-- ==== Sys2Proof/Word.lean ====
section
/-! DEFINITION. The word types of the Stavnak S9 (00 R3, R4) and the sparse map used for every numbered store. -/

namespace Sys2Proof

/-- 8 bits (R4). -/
abbrev Byte := BitVec 8
/-- 16 bits (R4). -/
abbrev Half := BitVec 16
/-- 32 bits (R4): a register, an instruction word. -/
abbrev Word := BitVec 32
/-- 64 bits (R4): an address, a pair of registers. -/
abbrev Quad := BitVec 64

/-- A store numbered by naturals, as pairs with strictly rising keys. A key that is absent reads as the
default that the reader names; no pair holds that default, so equal stores are equal lists. -/
abbrev SMap (α : Type) := List (Nat × α)

end Sys2Proof
end

