-- ==== Sys2Proof/Syntax.lean ====
section
/-! DEFINITION. The instructions and steps of the opcode table: one constructor a row. -/

namespace Sys2Proof

/-! ## Shared codes (03 R86, R87) -/

/-- The element types of R86, in code order. -/
inductive Ty where
  | i8 | z8 | i16 | z16 | i32 | z32 | i64 | z64 | f16 | bf16 | f32 | f64 | e4m3 | e5m2 | e2m1 | b128
  deriving DecidableEq, Repr

/-- RND (R47, R87): to nearest even, toward zero, toward +∞, toward −∞. -/
inductive Rnd where
  | rn | rz | ru | rd
  deriving DecidableEq, Repr

/-- SCOPE (R87). -/
inductive Scope where
  | team | die | dev | sys
  deriving DecidableEq, Repr

/-- ORD (R87); FENCE reads the same codes as sc, acq, rel, ar (R83). -/
inductive Ord where
  | rlx | acq | rel | acqrel
  deriving DecidableEq, Repr

/-! ## Instruction fields -/

/-- Base format B3 (R73): D, A, B and BK, with the literal of LEN 0b10 (R75). -/
structure B3 where
  d : BitVec 6
  a : BitVec 6
  b : BitVec 6
  bk : Bool
  lit : Option Quad
  deriving DecidableEq, Repr

/-- Base format BI (R73). -/
structure BI where
  d : BitVec 6
  a : BitVec 6
  imm : BitVec 9
  lit : Option Quad
  deriving DecidableEq, Repr

/-- Base format BJ (R73), S and OFF14; the condition is the constructor. -/
structure BJ where
  s : BitVec 6
  off : BitVec 14
  lit : Option Quad
  deriving DecidableEq, Repr

/-- Base format BS (R73); FN6 is the constructor. -/
structure BS where
  d : BitVec 6
  a : BitVec 6
  b : BitVec 6
  lit : Option Quad
  deriving DecidableEq, Repr

/-- What words 0 and 1 of every extended instruction hold beside MAJ and MIN (R78), and the literal of
LEN 0b11 (R82). -/
structure Head where
  d : BitVec 8
  a : BitVec 8
  b : BitVec 8
  c : BitVec 8
  la : BitVec 4
  gp : BitVec 3
  gn : Bool
  wk : BitVec 8
  lit : Option Quad
  deriving DecidableEq, Repr

/-- Word 2, arithmetic layout (R79, R80). -/
structure Arith where
  ty : Ty
  rnd : Rnd
  sat : Bool
  ftz : Bool
  ka : Bool
  kb : Bool
  kc : Bool
  bi : Bool
  imm : BitVec 20
  deriving DecidableEq, Repr

/-- Word 2, cross-lane layout (R79, R85). -/
structure Cross where
  ty : Ty
  rnd : Rnd
  ls : BitVec 2
  sub : BitVec 4
  fl : Bool
  bi : Bool
  ps : BitVec 3
  imm : BitVec 15
  deriving DecidableEq, Repr

/-- Word 2, branch layout (R79); the reserved bits 3:0 are kept so that a nonzero value is seen. -/
structure Branch where
  off : BitVec 24
  cnd : BitVec 4
  rsv : BitVec 4
  deriving DecidableEq, Repr

/-- Word 2, memory layout (R79), with MIN<7:4>: the hint, DEC and the reserved bit of XM, or the AOP of
XS and XA (R83). The TYPE position holds KIND in XY and XU and a selector in XP. -/
structure Mem where
  min4 : BitVec 4
  off : BitVec 24
  scope : Scope
  ord : Ord
  ty : Ty
  deriving DecidableEq, Repr

/-- Word 2, remote layout (R79, R373), with the AOP of MIN<7:4>. -/
structure Remote where
  min4 : BitVec 4
  se : Bool
  sp : BitVec 3
  off : BitVec 20
  scope : Scope
  ord : Ord
  ty : Ty
  deriving DecidableEq, Repr

/-- Word 2, command layout (R79). -/
structure Command where
  ta : Ty
  tb : Ty
  tc : Ty
  flg : BitVec 4
  imm : BitVec 16
  deriving DecidableEq, Repr

/-! ## What a step of an engine is about -/

/-- One slice of one resident team (04 R108): the team's number in the model, the bent and the logical slice. -/
structure SliceRef where
  tid : Nat
  bent : Nat
  sl : Nat
  deriving DecidableEq, Repr

/-- The kinds of access that a translation is asked for (06 R173). `probe` needs nothing (PRF, ICINV). -/
inductive Access where
  | fetch | read | write | atomic | probe
  deriving DecidableEq, Repr

/-- A page walk: the cluster whose access asked for it, and the kind of access (06 R171). -/
structure WalkReq where
  cl : Nat
  acc : Access
  deriving DecidableEq, Repr

/-- A checker of R241 by kind (1 L2, 2 home, 3 memory controller, 4 atomic unit, 5 far home) and instance. -/
structure ScribeId where
  kind : Nat
  inst : Nat
  deriving DecidableEq, Repr

/-- What a perform acknowledgement says of one line (07 R225): the scope reached, the interval observed or opened, the fill
epoch of the L1 sectors that served a load (R228), and an error that the host's completion carried (06 R191). An operation
without lines has line 0. -/
structure PerformAck where
  line : Nat
  scope : Scope
  interval : Half
  epoch : Option Nat
  err : Bool
  deriving DecidableEq, Repr

/-- What waits on a line transfer: an operation, a copy, a migration, or nothing. -/
inductive Client where
  | none
  | op (id : Nat)
  | copy (cid : Nat)
  | mig (mid : Nat)
  deriving DecidableEq, Repr

/-- Where the data of a transfer came from (06 R188, 14 R438). -/
inductive MemPart where
  | hbm | sill | l2 | cxl
  deriving DecidableEq, Repr

/-- One line transfer as its receiver sees it (07 R231, R232). `intoWrite`: a write grant, or a write to the line;
`bad` and `fixed`: the sectors in which the memory or the cache that sent them found an uncorrectable and a corrected error
(06 R188). -/
structure Transfer where
  unit : ScribeId
  hp : Nat
  line : Nat
  interval : Half
  data : List Byte
  hash : Quad
  intoWrite : Bool
  client : Client
  part : MemPart
  bad : BitVec 4
  fixed : BitVec 4
  deriving DecidableEq, Repr

/-- An access that reaches a line of a migrating page (06 R207). -/
structure HeldAccess where
  pa : Nat
  isWrite : Bool
  data : List Byte
  source : Nat
  deriving DecidableEq, Repr

/-- What the memory reports for the copies of one sector under scrub (09 R297). -/
structure ScrubFinding where
  /-- Some copy had an error that was corrected; some copy has one that was not. -/
  fixed : Bool
  bad : Bool
  deriving DecidableEq, Repr

/-- CAUSE of an event record (12 R395). -/
inductive LinkCause where
  | lossOfLight | errorThreshold | recovery | other
  deriving DecidableEq, Repr

/-- A Limop message: the header of 12 R381 and its data. -/
structure Msg where
  mtype : BitVec 4
  vc : BitVec 2
  num : Bool
  ptag : Bool
  dpeer : BitVec 10
  dinc : BitVec 8
  speer : BitVec 10
  sinc : BitVec 8
  sctx : BitVec 6
  rctx : BitVec 6
  win : BitVec 8
  len : Half
  tag : Half
  mseq : Word
  offset : Quad
  ty : BitVec 4
  aopst : BitVec 4
  wkey : Word
  hash : Quad
  interval : Half
  data : List Byte
  deriving DecidableEq, Repr

/-- A flit: the link header of 12 R383 and its 240 bytes of message space. -/
structure Flit where
  fseq : BitVec 12
  fack : BitVec 12
  nak : Bool
  null : Bool
  hole : Bool
  mapv : Bool
  stop : BitVec 4
  first : BitVec 4
  actmap : Half
  crc : Word
  space : List Byte
  deriving DecidableEq, Repr

/-- What Glomel's ROM finds of one firmware image (14 R432). -/
structure BootImage where
  ecdsaOk : Bool
  lmsOk : Bool
  version : Nat
  deriving DecidableEq, Repr

/-- The causes of a security alarm (14 R434). -/
inductive AlarmCause where
  | tamper | glitch | misuse | hash
  deriving DecidableEq, Repr

/-- A security alarm, with the key slots of the affected region. -/
structure Alarm where
  cause : AlarmCause
  slots : List Nat
  deriving DecidableEq, Repr

/-- What a host function does to device memory through a BAR (14 R424): a store of bytes, or an AtomicOp. -/
inductive HostOp where
  | store (data : List Byte)
  | fetchAdd (size : Nat) (v : Quad)
  | swap (size : Nat) (v : Quad)
  | cas (size : Nat) (expected v : Quad)
  | read (size : Nat)
  deriving DecidableEq, Repr

/-- A memory access of host port `port`; `vf` 0 is the physical function. -/
structure HostWrite where
  port : Nat
  vf : Nat
  pa : Nat
  op : HostOp
  deriving DecidableEq, Repr

/-! ## The table -/

/-- One constructor for each row of the opcode table. The first 238 are instructions, whose encodings
Decode.lean reads; the others are steps of engines, of the host and of the wire, which have no encoding. -/
inductive Instr where
  /-- BVI_ADD (R149). Base vector integer add on i32, with B a vector or a scalar register. -/
  | bviAdd (o : B3)
  /-- BVI_SUB (R149). Base vector integer subtract on i32. -/
  | bviSub (o : B3)
  /-- BVI_MUL (R149). Base vector integer multiply, keeping bits 31:0. -/
  | bviMul (o : B3)
  /-- BVI_MIN (R149). Base vector signed minimum. -/
  | bviMin (o : B3)
  /-- BVI_MAX (R149). Base vector signed maximum. -/
  | bviMax (o : B3)
  /-- BVI_AND (R149). Base vector bitwise AND. -/
  | bviAnd (o : B3)
  /-- BVI_OR (R149). Base vector bitwise OR. -/
  | bviOr (o : B3)
  /-- BVI_XOR (R149). Base vector bitwise XOR. -/
  | bviXor (o : B3)
  /-- BVI_ANDN (R149). Base vector a AND NOT b. -/
  | bviAndn (o : B3)
  /-- BVI_SHL (R149). Base vector shift left by an unsigned count. -/
  | bviShl (o : B3)
  /-- BVI_SHR (R149). Base vector logical shift right. -/
  | bviShr (o : B3)
  /-- BVI_SAR (R149). Base vector arithmetic shift right. -/
  | bviSar (o : B3)
  /-- BVI_MOV (R149). Base vector move, d := b. -/
  | bviMov (o : B3)
  /-- BSI_ADD (R149). Base scalar integer add, once per slice. -/
  | bsiAdd (o : B3)
  /-- BSI_SUB (R149). Base scalar subtract. -/
  | bsiSub (o : B3)
  /-- BSI_MUL (R149). Base scalar multiply. -/
  | bsiMul (o : B3)
  /-- BSI_MIN (R149). Base scalar signed minimum. -/
  | bsiMin (o : B3)
  /-- BSI_MAX (R149). Base scalar signed maximum. -/
  | bsiMax (o : B3)
  /-- BSI_AND (R149). Base scalar AND. -/
  | bsiAnd (o : B3)
  /-- BSI_OR (R149). Base scalar OR. -/
  | bsiOr (o : B3)
  /-- BSI_XOR (R149). Base scalar XOR. -/
  | bsiXor (o : B3)
  /-- BSI_ANDN (R149). Base scalar a AND NOT b. -/
  | bsiAndn (o : B3)
  /-- BSI_SHL (R149). Base scalar shift left. -/
  | bsiShl (o : B3)
  /-- BSI_SHR (R149). Base scalar logical shift right. -/
  | bsiShr (o : B3)
  /-- BSI_SAR (R149). Base scalar arithmetic shift right. -/
  | bsiSar (o : B3)
  /-- BSI_MOV (R149). Base scalar move. -/
  | bsiMov (o : B3)
  /-- BVF_FADD (R149). Base vector f32 add, to nearest even. -/
  | bvfFadd (o : B3)
  /-- BVF_FSUB (R149). Base vector f32 subtract. -/
  | bvfFsub (o : B3)
  /-- BVF_FMUL (R149). Base vector f32 multiply. -/
  | bvfFmul (o : B3)
  /-- BVF_FMIN (R149). Base vector f32 minimum. -/
  | bvfFmin (o : B3)
  /-- BVF_FMAX (R149). Base vector f32 maximum. -/
  | bvfFmax (o : B3)
  /-- BVF_FFMA (R149). Base vector f32 fused multiply-add, d := a*b + d. -/
  | bvfFfma (o : B3)
  /-- BVF_FRCP (R161). Base vector f32 reciprocal. -/
  | bvfFrcp (o : B3)
  /-- BVF_FRSQ (R161). Base vector f32 reciprocal square root. -/
  | bvfFrsq (o : B3)
  /-- BVF_FSQRT (R161). Base vector f32 square root. -/
  | bvfFsqrt (o : B3)
  /-- BVF_FEX2 (R161). Base vector f32 base-2 exponential. -/
  | bvfFex2 (o : B3)
  /-- BVF_FLG2 (R161). Base vector f32 base-2 logarithm. -/
  | bvfFlg2 (o : B3)
  /-- BVH_FADD_F16X2 (R150). Packed f16x2 add, element by element. -/
  | bvhFaddF16x2 (o : B3)
  /-- BVH_FSUB_F16X2 (R150). Packed f16x2 subtract. -/
  | bvhFsubF16x2 (o : B3)
  /-- BVH_FMUL_F16X2 (R150). Packed f16x2 multiply. -/
  | bvhFmulF16x2 (o : B3)
  /-- BVH_FMIN_F16X2 (R150). Packed f16x2 minimum. -/
  | bvhFminF16x2 (o : B3)
  /-- BVH_FMAX_F16X2 (R150). Packed f16x2 maximum. -/
  | bvhFmaxF16x2 (o : B3)
  /-- BVH_FFMA_F16X2 (R150). Packed f16x2 fused multiply-add into d. -/
  | bvhFfmaF16x2 (o : B3)
  /-- BVH_FADD_BF16X2 (R150). Packed bf16x2 add. -/
  | bvhFaddBf16x2 (o : B3)
  /-- BVH_FSUB_BF16X2 (R150). Packed bf16x2 subtract. -/
  | bvhFsubBf16x2 (o : B3)
  /-- BVH_FMUL_BF16X2 (R150). Packed bf16x2 multiply. -/
  | bvhFmulBf16x2 (o : B3)
  /-- BVH_FMIN_BF16X2 (R150). Packed bf16x2 minimum. -/
  | bvhFminBf16x2 (o : B3)
  /-- BVH_FMAX_BF16X2 (R150). Packed bf16x2 maximum. -/
  | bvhFmaxBf16x2 (o : B3)
  /-- BVH_FFMA_BF16X2 (R150). Packed bf16x2 fused multiply-add into d. -/
  | bvhFfmaBf16x2 (o : B3)
  /-- BVII_ADD (R149). Vector add of a sign-extended 9-bit immediate. -/
  | bviiAdd (o : BI)
  /-- BVII_AND (R149). Vector AND with an immediate. -/
  | bviiAnd (o : BI)
  /-- BVII_OR (R149). Vector OR with an immediate. -/
  | bviiOr (o : BI)
  /-- BVII_XOR (R149). Vector XOR with an immediate. -/
  | bviiXor (o : BI)
  /-- BVII_SHL (R149). Vector shift left by an immediate. -/
  | bviiShl (o : BI)
  /-- BVII_SHR (R149). Vector logical shift right by an immediate. -/
  | bviiShr (o : BI)
  /-- BVII_SAR (R149). Vector arithmetic shift right by an immediate. -/
  | bviiSar (o : BI)
  /-- BVII_MOV (R149). Vector move of a sign-extended immediate. -/
  | bviiMov (o : BI)
  /-- BSII_ADD (R149). Scalar add of an immediate. -/
  | bsiiAdd (o : BI)
  /-- BSII_AND (R149). Scalar AND with an immediate. -/
  | bsiiAnd (o : BI)
  /-- BSII_OR (R149). Scalar OR with an immediate. -/
  | bsiiOr (o : BI)
  /-- BSII_XOR (R149). Scalar XOR with an immediate. -/
  | bsiiXor (o : BI)
  /-- BSII_SHL (R149). Scalar shift left by an immediate. -/
  | bsiiShl (o : BI)
  /-- BSII_SHR (R149). Scalar logical shift right by an immediate. -/
  | bsiiShr (o : BI)
  /-- BSII_SAR (R149). Scalar arithmetic shift right by an immediate. -/
  | bsiiSar (o : BI)
  /-- BSII_MOV (R149). Scalar move of an immediate. -/
  | bsiiMov (o : BI)
  /-- BVC_ISET_EQ (R151). Vector signed i32 compare equal into a predicate. -/
  | bvcIsetEq (o : B3)
  /-- BVC_ISET_NE (R151). Vector compare not equal into a predicate. -/
  | bvcIsetNe (o : B3)
  /-- BVC_ISET_LT (R151). Vector signed compare less than into a predicate. -/
  | bvcIsetLt (o : B3)
  /-- BVC_ISET_LE (R151). Vector signed compare less or equal into a predicate. -/
  | bvcIsetLe (o : B3)
  /-- BVC_ISET_GT (R151). Vector signed compare greater than into a predicate. -/
  | bvcIsetGt (o : B3)
  /-- BVC_ISET_GE (R151). Vector signed compare greater or equal into a predicate. -/
  | bvcIsetGe (o : B3)
  /-- BVC_ISET_EQ_Z32 (R151). Vector unsigned compare equal into a predicate. -/
  | bvcIsetEqZ32 (o : B3)
  /-- BVC_ISET_NE_Z32 (R151). Vector unsigned compare not equal into a predicate. -/
  | bvcIsetNeZ32 (o : B3)
  /-- BVC_ISET_LT_Z32 (R151). Vector unsigned compare less than into a predicate. -/
  | bvcIsetLtZ32 (o : B3)
  /-- BVC_ISET_LE_Z32 (R151). Vector unsigned compare less or equal into a predicate. -/
  | bvcIsetLeZ32 (o : B3)
  /-- BVC_ISET_GT_Z32 (R151). Vector unsigned compare greater than into a predicate. -/
  | bvcIsetGtZ32 (o : B3)
  /-- BVC_ISET_GE_Z32 (R151). Vector unsigned compare greater or equal into a predicate. -/
  | bvcIsetGeZ32 (o : B3)
  /-- BVC_FSET_EQ (R151). Vector ordered f32 compare equal into a predicate. -/
  | bvcFsetEq (o : B3)
  /-- BVC_FSET_NE (R151). Vector ordered f32 compare not equal into a predicate. -/
  | bvcFsetNe (o : B3)
  /-- BVC_FSET_LT (R151). Vector f32 compare less than into a predicate. -/
  | bvcFsetLt (o : B3)
  /-- BVC_FSET_LE (R151). Vector f32 compare less or equal into a predicate. -/
  | bvcFsetLe (o : B3)
  /-- BVC_FSET_GT (R151). Vector f32 compare greater than into a predicate. -/
  | bvcFsetGt (o : B3)
  /-- BVC_FSET_GE (R151). Vector f32 compare greater or equal into a predicate. -/
  | bvcFsetGe (o : B3)
  /-- BVC_FSET_UNORD (R151). Vector f32 unordered test into a predicate. -/
  | bvcFsetUnord (o : B3)
  /-- BSC_ISET_EQ (R151). Scalar signed compare equal, writing 1 or 0. -/
  | bscIsetEq (o : B3)
  /-- BSC_ISET_NE (R151). Scalar compare not equal. -/
  | bscIsetNe (o : B3)
  /-- BSC_ISET_LT (R151). Scalar signed compare less than. -/
  | bscIsetLt (o : B3)
  /-- BSC_ISET_LE (R151). Scalar signed compare less or equal. -/
  | bscIsetLe (o : B3)
  /-- BSC_ISET_GT (R151). Scalar signed compare greater than. -/
  | bscIsetGt (o : B3)
  /-- BSC_ISET_GE (R151). Scalar signed compare greater or equal. -/
  | bscIsetGe (o : B3)
  /-- BSC_ISET_EQ_Z32 (R151). Scalar unsigned compare equal. -/
  | bscIsetEqZ32 (o : B3)
  /-- BSC_ISET_NE_Z32 (R151). Scalar unsigned compare not equal. -/
  | bscIsetNeZ32 (o : B3)
  /-- BSC_ISET_LT_Z32 (R151). Scalar unsigned compare less than. -/
  | bscIsetLtZ32 (o : B3)
  /-- BSC_ISET_LE_Z32 (R151). Scalar unsigned compare less or equal. -/
  | bscIsetLeZ32 (o : B3)
  /-- BSC_ISET_GT_Z32 (R151). Scalar unsigned compare greater than. -/
  | bscIsetGtZ32 (o : B3)
  /-- BSC_ISET_GE_Z32 (R151). Scalar unsigned compare greater or equal. -/
  | bscIsetGeZ32 (o : B3)
  /-- BBR_BRA (R126). Base unconditional branch by a word offset. -/
  | bbrBra (o : BJ)
  /-- BBR_BRC_NZ (R126). Base branch taken when the scalar register is nonzero. -/
  | bbrBrcNz (o : BJ)
  /-- BBR_BRC_Z (R126). Base branch taken when the scalar register is zero. -/
  | bbrBrcZ (o : BJ)
  /-- BBR_BRC_ANY (R126). Base branch taken when the predicate is 1 in some EXEC lane. -/
  | bbrBrcAny (o : BJ)
  /-- BBR_BRC_ALL (R126). Base branch taken when the predicate is 1 in every EXEC lane. -/
  | bbrBrcAll (o : BJ)
  /-- BBR_BRC_NONE (R126). Base branch taken when the predicate is 1 in no EXEC lane. -/
  | bbrBrcNone (o : BJ)
  /-- BBR_BREZ (R126). Base branch taken when EXEC is 0. -/
  | bbrBrez (o : BJ)
  /-- BBR_LOOP (R126). Decrements the scalar register and branches while the result is nonzero. -/
  | bbrLoop (o : BJ)
  /-- BBR_CALL (R126). Base call writing the return address to s62:63. -/
  | bbrCall (o : BJ)
  /-- NOP (R128). No operation. -/
  | bctNop (o : BS)
  /-- EXIT (R129). Ends the slice once its pending destinations are written. -/
  | bctExit (o : BS)
  /-- RET (R128). Jumps to the return address in s62:63. -/
  | bctRet (o : BS)
  /-- JMPR (R128). Jumps to the address held in a scalar pair. -/
  | bctJmpr (o : BS)
  /-- CALLR (R128). Calls the address held in a scalar pair, writing s62:63. -/
  | bctCallr (o : BS)
  /-- YIELD (R119). Holds the gang out of the ready set for 32 ic when another gang is ready. -/
  | bctYield (o : BS)
  /-- REGANG (R114). Waits at an explicit convergence point until every sibling slice waits at a REGANG. -/
  | bctRegang (o : BS)
  /-- EXSAVE (R130). Saves EXEC to a scalar and ANDs EXEC with a predicate mask. -/
  | bctExsave (o : BS)
  /-- EXELSE (R130). Sets EXEC to the saved mask AND NOT EXEC. -/
  | bctExelse (o : BS)
  /-- EXREST (R130). Restores EXEC from a scalar. -/
  | bctExrest (o : BS)
  /-- EXSET (R130). Sets EXEC from a scalar. -/
  | bctExset (o : BS)
  /-- EXGET (R130). Reads EXEC into a scalar. -/
  | bctExget (o : BS)
  /-- GMASK (R136). Reads the gang's slot mask into a scalar. -/
  | bctGmask (o : BS)
  /-- GWIDTH (R136). Reads the gang's active lane count into a scalar. -/
  | bctGwidth (o : BS)
  /-- SRD (R136). Reads special register A*64+B into a scalar. -/
  | bctSrd (o : BS)
  /-- WAITK (R136). Waits until the named tokens are clear, as an acquire. -/
  | bctWaitk (o : BS)
  /-- TRAP (R143). Raises TRAPI with a 6-bit code. -/
  | bctTrap (o : BS)
  /-- RFT (R143). Returns from the trap handler, restoring EXEC and PC. -/
  | bctRft (o : BS)
  /-- BRKPT (R143). Raises BREAK with a 6-bit tag. -/
  | bctBrkpt (o : BS)
  /-- XI_ADD (R153). Extended integer add with optional saturation. -/
  | xiAdd (h : Head) (w : Arith)
  /-- XI_SUB (R153). Extended integer subtract. -/
  | xiSub (h : Head) (w : Arith)
  /-- XI_ADDC (R155). Add with carry in and carry out through register C. -/
  | xiAddc (h : Head) (w : Arith)
  /-- XI_SUBB (R155). Subtract with borrow through register C. -/
  | xiSubb (h : Head) (w : Arith)
  /-- XI_MUL (R153). Extended integer multiply. -/
  | xiMul (h : Head) (w : Arith)
  /-- XI_MULH (R153). High half of the exact product. -/
  | xiMulh (h : Head) (w : Arith)
  /-- XI_MAD (R153). Multiply-add, exact before the fit. -/
  | xiMad (h : Head) (w : Arith)
  /-- XI_MIN (R153). Integer minimum. -/
  | xiMin (h : Head) (w : Arith)
  /-- XI_MAX (R153). Integer maximum. -/
  | xiMax (h : Head) (w : Arith)
  /-- XI_ABS (R153). Integer absolute value. -/
  | xiAbs (h : Head) (w : Arith)
  /-- XI_NEG (R153). Integer negation. -/
  | xiNeg (h : Head) (w : Arith)
  /-- XI_AND (R153). Bitwise AND. -/
  | xiAnd (h : Head) (w : Arith)
  /-- XI_OR (R153). Bitwise OR. -/
  | xiOr (h : Head) (w : Arith)
  /-- XI_XOR (R153). Bitwise XOR. -/
  | xiXor (h : Head) (w : Arith)
  /-- XI_ANDN (R153). a AND NOT b. -/
  | xiAndn (h : Head) (w : Arith)
  /-- XI_ORN (R153). a OR NOT b. -/
  | xiOrn (h : Head) (w : Arith)
  /-- XI_NOT (R153). Bitwise NOT. -/
  | xiNot (h : Head) (w : Arith)
  /-- XI_SHL (R154). Shift left. -/
  | xiShl (h : Head) (w : Arith)
  /-- XI_SHR (R154). Logical shift right. -/
  | xiShr (h : Head) (w : Arith)
  /-- XI_SAR (R154). Arithmetic shift right. -/
  | xiSar (h : Head) (w : Arith)
  /-- XI_ROL (R154). Rotate left. -/
  | xiRol (h : Head) (w : Arith)
  /-- XI_SHF (R154). Funnel shift right of the pair c:a. -/
  | xiShf (h : Head) (w : Arith)
  /-- XI_CLZ (R154). Count leading zeros. -/
  | xiClz (h : Head) (w : Arith)
  /-- XI_CTZ (R154). Count trailing zeros. -/
  | xiCtz (h : Head) (w : Arith)
  /-- XI_POPC (R154). Population count. -/
  | xiPopc (h : Head) (w : Arith)
  /-- XI_BREV (R154). Bit reverse. -/
  | xiBrev (h : Head) (w : Arith)
  /-- XI_BFX (R154). Bit-field extract. -/
  | xiBfx (h : Head) (w : Arith)
  /-- XI_BFI (R154). Bit-field insert. -/
  | xiBfi (h : Head) (w : Arith)
  /-- XI_BPERM (R154). Byte permute from the pair c:a. -/
  | xiBperm (h : Head) (w : Arith)
  /-- XI_SEL (R153). Selects a or b by a predicate. -/
  | xiSel (h : Head) (w : Arith)
  /-- XI_MOV (R153). Extended move, including b128. -/
  | xiMov (h : Head) (w : Arith)
  /-- XI_ISET (R153). Extended integer compare into a predicate or a scalar. -/
  | xiIset (h : Head) (w : Arith)
  /-- XI_LEA (R156). Computes a 64-bit address a + (b << shift). -/
  | xiLea (h : Head) (w : Arith)
  /-- XF_FADD (R158). Floating add with RND, SAT and FTZ. -/
  | xfFadd (h : Head) (w : Arith)
  /-- XF_FSUB (R158). Floating subtract. -/
  | xfFsub (h : Head) (w : Arith)
  /-- XF_FMUL (R158). Floating multiply. -/
  | xfFmul (h : Head) (w : Arith)
  /-- XF_FFMA (R158). Fused multiply-add with one rounding. -/
  | xfFfma (h : Head) (w : Arith)
  /-- XF_FMIN (R158). Floating minimum. -/
  | xfFmin (h : Head) (w : Arith)
  /-- XF_FMAX (R158). Floating maximum. -/
  | xfFmax (h : Head) (w : Arith)
  /-- XF_FSET (R159). Floating compare into a predicate or a scalar. -/
  | xfFset (h : Head) (w : Arith)
  /-- XF_FCLASS (R159). Writes a one-hot class mask of the operand. -/
  | xfFclass (h : Head) (w : Arith)
  /-- XF_FRND (R160). Rounds to an integral value of the same type. -/
  | xfFrnd (h : Head) (w : Arith)
  /-- XF_FRCP (R161). Correctly rounded reciprocal. -/
  | xfFrcp (h : Head) (w : Arith)
  /-- XF_FRSQ (R161). Correctly rounded reciprocal square root. -/
  | xfFrsq (h : Head) (w : Arith)
  /-- XF_FSQRT (R161). Correctly rounded square root. -/
  | xfFsqrt (h : Head) (w : Arith)
  /-- XF_FEX2 (R161). Correctly rounded base-2 exponential. -/
  | xfFex2 (h : Head) (w : Arith)
  /-- XF_FLG2 (R161). Correctly rounded base-2 logarithm. -/
  | xfFlg2 (h : Head) (w : Arith)
  /-- XF_FSIN (R161). Correctly rounded sine, class L. -/
  | xfFsin (h : Head) (w : Arith)
  /-- XF_FCOS (R161). Correctly rounded cosine, class L. -/
  | xfFcos (h : Head) (w : Arith)
  /-- XF_FTANH (R161). Correctly rounded hyperbolic tangent, class L. -/
  | xfFtanh (h : Head) (w : Arith)
  /-- CVT (R162). Converts a value between two types. -/
  | xqCvt (h : Head) (w : Arith)
  /-- QNTZ (R164). Bent-scope quantisation of 256 values into one SVB segment. -/
  | xqQntz (h : Head) (w : Arith)
  /-- DQNT (R165). Bent-scope decode of one block-scaled segment. -/
  | xqDqnt (h : Head) (w : Arith)
  /-- DOT4 (R163). Four-element packed dot product into an accumulator. -/
  | xqDot4 (h : Head) (w : Arith)
  /-- DOT8 (R163). Eight-element e2m1 dot product into an f32 accumulator. -/
  | xqDot8 (h : Head) (w : Arith)
  /-- SHFL (R133). Moves a value between lane positions of a scope. -/
  | xlShfl (h : Head) (w : Cross)
  /-- VOTE (R134). Evaluates a predicate over the present lanes. -/
  | xlVote (h : Head) (w : Cross)
  /-- GRED (R134). Reduces over the present lanes in tree order. -/
  | xlGred (h : Head) (w : Cross)
  /-- GSCAN (R134). Prefix scan over the present lanes. -/
  | xlGscan (h : Head) (w : Cross)
  /-- MATCH (R134). Finds the lanes whose values are equal. -/
  | xlMatch (h : Head) (w : Cross)
  /-- XC_BRA (R127). Extended unconditional branch. -/
  | xcBra (h : Head) (w : Branch)
  /-- XC_BRC (R127). Extended conditional branch. -/
  | xcBrc (h : Head) (w : Branch)
  /-- XC_CALL (R127). Extended call. -/
  | xcCall (h : Head) (w : Branch)
  /-- LD (R194). Loads from global memory, optionally decoding through page attributes. -/
  | xmLd (h : Head) (w : Mem)
  /-- ST (R195). Stores to global memory. -/
  | xmSt (h : Head) (w : Mem)
  /-- LDC (R196). Loads a value into scalar registers once per slice. -/
  | xmLdc (h : Head) (w : Mem)
  /-- PRF (R196). Prefetches a line into the level named by the hint. -/
  | xmPrf (h : Head) (w : Mem)
  /-- LDG (R201). Gathers indexed elements for a gang. -/
  | xmLdg (h : Head) (w : Mem)
  /-- SCT (R201). Scatters indexed elements. -/
  | xmSct (h : Head) (w : Mem)
  /-- ICINV (R197). Invalidates an instruction-cache line within a scope. -/
  | xmIcinv (h : Head) (w : Mem)
  /-- LDS (R198). Loads from the scratchpad. -/
  | xsLds (h : Head) (w : Mem)
  /-- STS (R198). Stores to the scratchpad. -/
  | xsSts (h : Head) (w : Mem)
  /-- ATOMS (R199). Scratchpad atomic read-modify-write. -/
  | xsAtoms (h : Head) (w : Mem)
  /-- ATOM (R199). Global atomic read-modify-write. -/
  | xaAtom (h : Head) (w : Mem)
  /-- FENCE (R248). Orders memory operations at a scope; the .sc form drains its path. -/
  | xoFence (h : Head) (w : Mem)
  /-- SEAL (R249). Waits until earlier operations are performed, sealed and checked by the Scribes. -/
  | xoSeal (h : Head) (w : Mem)
  /-- CHKR (R250). Checks one line at once with a hashed transfer and a window close. -/
  | xoChkr (h : Head) (w : Mem)
  /-- BARI (R262). Initialises a barrier word. -/
  | xyBari (h : Head) (w : Mem)
  /-- BARA (R263). Arrives at a barrier word. -/
  | xyBara (h : Head) (w : Mem)
  /-- BARAD (R263). Arrives at a barrier word and drops from later phases. -/
  | xyBarad (h : Head) (w : Mem)
  /-- BARW (R265). Parks the gang until the phase of the word differs from P. -/
  | xyBarw (h : Head) (w : Mem)
  /-- BART (R265). Tests whether a phase is complete, without parking. -/
  | xyBart (h : Head) (w : Mem)
  /-- BARX (R267). Invalidates a barrier word and traps its waiters. -/
  | xyBarx (h : Head) (w : Mem)
  /-- GBARA (R275). Arrives at a group barrier for the team. -/
  | xyGbara (h : Head) (w : Mem)
  /-- GBARD (R275). Arrives at a group barrier and drops. -/
  | xyGbard (h : Head) (w : Mem)
  /-- GBARW (R275). Parks the gang on a group barrier phase. -/
  | xyGbarw (h : Head) (w : Mem)
  /-- QPSH (R279). Pushes one 16-byte entry per lane to a hardware queue. -/
  | xuQpsh (h : Head) (w : Mem)
  /-- QPOP (R280). Pops one entry per lane from a hardware queue. -/
  | xuQpop (h : Head) (w : Mem)
  /-- QST (R280). Reads a queue's counts and status. -/
  | xuQst (h : Head) (w : Mem)
  /-- PHSW (R284). Flips the slice's current phase tag. -/
  | xuPhsw (h : Head) (w : Mem)
  /-- QUIET (R285). Waits until the traffic of one phase tag has drained. -/
  | xuQuiet (h : Head) (w : Mem)
  /-- CPY (R304). Issues an asynchronous byte copy. -/
  | xpCpy (h : Head) (w : Mem)
  /-- CPYT (R304). Issues an asynchronous tile copy by descriptor. -/
  | xpCpyt (h : Head) (w : Mem)
  /-- CPYR (R304). Issues an asynchronous reduce-copy. -/
  | xpCpyr (h : Head) (w : Mem)
  /-- CPYM (R305). Issues a copy with a follow-on matrix command. -/
  | xpCpym (h : Head) (w : Mem)
  /-- TLWT (R308). Stalls the gang until a timeline reaches a value. -/
  | xpTlwt (h : Head) (w : Mem)
  /-- TLRD (R309). Reads a timeline field. -/
  | xpTlrd (h : Head) (w : Mem)
  /-- MMA (R338). Bent-scope 16x16 matrix multiply-add on the partition unit. -/
  | xxMma (h : Head) (w : Command)
  /-- TMMA (R325). Queues a tile matrix multiply on the cluster engine. -/
  | xxTmma (h : Head) (w : Command)
  /-- TZRO (R334). Queues zeroing of an accumulator tile. -/
  | xxTzro (h : Head) (w : Command)
  /-- TRD (R334). Queues a read of a 16x16 tile block into registers. -/
  | xxTrd (h : Head) (w : Command)
  /-- TWR (R334). Queues a write of registers into a 16x16 tile block. -/
  | xxTwr (h : Head) (w : Command)
  /-- TSTO (R335). Queues a converted store of tile rows. -/
  | xxTsto (h : Head) (w : Command)
  /-- RLD (R375). Remote load from a peer window. -/
  | xrRld (h : Head) (w : Remote)
  /-- RST (R375). Remote store to a peer window. -/
  | xrRst (h : Head) (w : Remote)
  /-- RATM (R375). Remote atomic on a peer window. -/
  | xrRatm (h : Head) (w : Remote)
  /-- RFNC (R376). Remote fence, sending one marker to each named peer. -/
  | xrRfnc (h : Head) (w : Remote)
  /-- DVT (R423). Posts a Dovetail from a record in memory. -/
  | xvDvt (h : Head) (w : Command)
  /-- COLL (R423). Posts a collective reduction from a record in memory. -/
  | xvColl (h : Head) (w : Command)
  /-- NODEGO (R357). Releases a graph node, decrementing its LIVE count. -/
  | xvNodego (h : Head) (w : Command)
  /-- CSRR (R137). Reads a special register. -/
  | xzCsrr (h : Head) (w : Command)
  /-- CSRW (R137). Writes a special register by its access code. -/
  | xzCsrw (h : Head) (w : Command)
  /-- GETT (R137). Reads device time or the issue clock count. -/
  | xzGett (h : Head) (w : Command)
  /-- PMRD (R137). Reads a team performance counter. -/
  | xzPmrd (h : Head) (w : Command)
  /-- ISSUE_CLOCK (R117). Each issue clock, a cluster partition selects and issues at most one gang instruction or composite issue. -/
  | evIssueClock (cl pt : Nat)
  /-- REGANG_RELEASE (R114). When every non-exited sibling waits at a REGANG, the waiting slices form gangs and continue. -/
  | evRegangRelease (tid bent : Nat)
  /-- YIELD_HOLD_EXPIRY (R119). After 32 issue clocks a yielded gang re-enters the ready set. -/
  | evYieldHoldExpiry (r : SliceRef)
  /-- SLOT_MIGRATION_START (R122). The slice engine begins moving a slice to an exited slice's physical slot. -/
  | evSlotMigrationStart (r : SliceRef) (slot : Nat)
  /-- SLOT_MIGRATION_END (R122). A slot move finishes and the slice issues again from its new slot. -/
  | evSlotMigrationEnd (r : SliceRef)
  /-- CLASS_L_RESULT_WRITE (R93). A class L instruction's result lands in its pending destination. -/
  | evClassLResultWrite (r : SliceRef) (pid : Nat)
  /-- TOKEN_WAIT_RELEASE (R96). A gang waiting on tokens issues once every named token is clear. -/
  | evTokenWaitRelease (r : SliceRef)
  /-- TRAP_ENTRY (R139). After pending destinations are written, the slice enters trap mode and jumps to its handler. -/
  | evTrapEntry (r : SliceRef)
  /-- SLICE_RETIRE (R129). An exiting slice retires once its pending destinations are written. -/
  | evSliceRetire (r : SliceRef)
  /-- TEAM_START (R355). A team starts with zeroed scratchpad, Plate and tiles and its initial registers, as an acquire. -/
  | evTeamStart (launch : Nat)
  /-- TEAM_END (R255). Once all its operations are performed and releases sealed, a team ends as a dev-scope release and frees its resources. -/
  | evTeamEnd (tid : Nat)
  /-- TABLE_WALK (R170). A page walk completes, filling the TLB and setting A and D, or reporting a fault. -/
  | evTableWalk (hp ctx : Nat) (va : Quad) (w : WalkReq)
  /-- FAULT_RECORD_POST (R176). The L2 TLB posts a fault record to the context's fault queue when it has room. -/
  | evFaultRecordPost (fid : Nat)
  /-- RETRY_RETRY (R177). A retry command with FAIL = 0 makes every attached requester retry. -/
  | evRetryRetry (hp ctx tag : Nat)
  /-- RETRY_FAIL (R177). A retry command with FAIL = 1 ends attached waits with XLATE or an engine error. -/
  | evRetryFail (hp ctx tag : Nat)
  /-- L1_WRITE_BUFFER_DRAIN (R213). Buffered stores drain from the L1 write buffer to the L2. -/
  | evL1WriteBufferDrain (cl : Nat)
  /-- GATHER_SUBPACKET (R202). A home Sill die serves a gather sub-packet element by element. -/
  | evGatherSubpacket (op die : Nat)
  /-- GATHER_EXPANDER_READ (R202). A stack base die's gather expander reads and returns requested elements. -/
  | evGatherExpanderRead (op stack : Nat)
  /-- SCATTER_ELEMENT (R202). An SCT element performs at its line's home. -/
  | evScatterElement (op k : Nat)
  /-- L2_ATOMIC (R200). An atomic executes in the L2 after taking the line exclusive. -/
  | evL2Atomic (op : Nat)
  /-- MSA_ACCESS (R203). A memory-side atomic unit performs an access to an MSA line. -/
  | evMsaAccess (op : Nat)
  /-- SILL_WAY_TO_VAULT (R190). Setting a VAULT bit writes back, invalidates and clears a Sill way. -/
  | evSillWayToVault (die way : Nat)
  /-- SILL_WAY_TO_CACHE (R190). Clearing a VAULT bit returns the way to cache, dropping its data. -/
  | evSillWayToCache (die way : Nat)
  /-- SILL_WAY_CONVERT_DONE (R190). A way finishes converting to vault and its BUSY bit clears. -/
  | evSillWayConvertDone (die way : Nat)
  /-- MIGRATE_PAGE_LOCK (R207). Locks a page's lines at their home and recalls dirty owners. -/
  | evMigratePageLock (mid : Nat)
  /-- MIGRATE_PAGE_COPY (R207). Copies each line of the page to its new location. -/
  | evMigratePageCopy (mid : Nat)
  /-- MIGRATE_PAGE_SWITCH (R207). Writes the page's entries with a compare-and-write. -/
  | evMigratePageSwitch (mid : Nat)
  /-- MIGRATE_PAGE_SHOOT (R207). Shoots down the page's translations and old cached lines. -/
  | evMigratePageShoot (mid : Nat)
  /-- MIGRATE_PAGE_RELEASE (R207). Clears the locks and forwards held writes to the new lines. -/
  | evMigratePageRelease (mid : Nat)
  /-- MIGRATE_PAGE_DRAIN_DONE (R207). All shoot-down acknowledgements for the page have arrived. -/
  | evMigratePageDrainDone (mid : Nat)
  /-- MIGRATE_PAGE_FREE (R207). Ends forwarding; after the last page the timeline advances. -/
  | evMigratePageFree (mid : Nat)
  /-- MIGRATE_HELD_ACCESS (R207). An access to a migrating page is served or held by stage. -/
  | evMigrateHeldAccess (mid : Nat) (a : HeldAccess)
  /-- RELEASE_ARRIVAL (R226). A dispatched release arrives at its perform point and is held pending-seal. -/
  | evReleaseArrival (op : Nat)
  /-- SQUARE_SEAL (R227). The Square seals a release once its obligations are acknowledged. -/
  | evSquareSeal (op : Nat)
  /-- PERFORM_ACK (R225). A perform acknowledgement tagged with its scope reaches the Square. -/
  | evPerformAck (op : Nat) (a : PerformAck)
  /-- SCRIBE_TRANSFER_CHECK (R232). A Scribe checks the hash and single-writer rules of a received line transfer. -/
  | evScribeTransferCheck (t : Transfer)
  /-- SCRIBE_WINDOW_CLOSE (R233). A deferred window closes on count, timer or request, and hashes are exchanged. -/
  | evScribeWindowClose (home peer : ScribeId)
  /-- SCRIBE_RECORD_EXCHANGE (R233). After a DIRECTORY mismatch the Scribes exchange records and name the lines at fault. -/
  | evScribeRecordExchange (home peer : ScribeId)
  /-- FORCED_PUBLISH (R223). A holder cluster drains its write buffer on a forced publish from an outside acquire. -/
  | evForcedPublish (cl : Nat)
  /-- SEQ_GAP_TIMEOUT (R237). A sequence gap open for 50 µs is a SEQ violation. -/
  | evSeqGapTimeout (src dst : Nat)
  /-- FENCE_SC_COMPLETE (R248). An sc fence completes when every drain marker is acknowledged and it is sealed. -/
  | evFenceScComplete (op : Nat)
  /-- SEAL_COMPLETE (R249). SEAL completes when its conditions hold, letting the next instruction issue. -/
  | evSealComplete (op : Nat)
  /-- CHKR_COMPLETE (R250). CHKR completes after the line's transfer is checked and windows exchanged. -/
  | evChkrComplete (op : Nat)
  /-- ICINV_COMPLETE (R197). ICINV completes when every named instruction cache acknowledges. -/
  | evIcinvComplete (op : Nat)
  /-- CHKMODE_WRITE (R243). Sets checker modes of a hard partition, subject to LOCK and trusted interfaces. -/
  | evChkmodeWrite (hp : Nat) (v : Quad)
  /-- ORDINJ_WRITE (R246). Arms or clears the order-injection register. -/
  | evOrdinjWrite (hp : Nat) (v : Quad)
  /-- SHOOTDOWN_GO (R251). SDCMD with GO starts a TLB shoot-down, or is ignored with ERR. -/
  | evShootdownGo (hp : Nat) (v : Quad)
  /-- SHOOTDOWN_DONE (R252). After affected accesses perform, BUSY clears and DONE increments. -/
  | evShootdownDone (hp : Nat)
  /-- BARRIER_ARRIVAL_COUNT (R263). The sync engine counts or rejects a sealed barrier arrival. -/
  | evBarrierArrivalCount (op : Nat)
  /-- BARRIER_WAKE (R266). A parked gang re-enters the ready set two issue clocks after its phase completes. -/
  | evBarrierWake (r : SliceRef)
  /-- HALFDONE (R272). A paired half receives HALFDONE and flips or records REMOTE. -/
  | evHalfdone (tid half off : Nat)
  /-- GROUP_TABLE_LOAD (R274). The group barrier unit loads a launch's entries once room is free. -/
  | evGroupTableLoad (launch : Nat)
  /-- GROUP_ARRIVAL (R275). The group barrier unit counts a team's group arrival or drop. -/
  | evGroupArrival (op : Nat)
  /-- QUEUE_PUSH_ARRIVAL (R279). The queue engine accepts or refuses a pushed entry. -/
  | evQueuePushArrival (op : Nat)
  /-- QUEUE_POP_ARRIVAL (R280). The queue engine returns the oldest entry or reports empty. -/
  | evQueuePopArrival (op : Nat)
  /-- QUEUE_STAT_ARRIVAL (R280). The queue engine answers a QST. -/
  | evQueueStatArrival (op : Nat)
  /-- SPILL_MOVE (R279). The queue engine moves spilled entries into the on-chip ring. -/
  | evSpillMove (q : Nat)
  /-- QCR_WRITE (R277). Writes a queue control record; VALID = 0 discards entries, and writing ERR clears it. -/
  | evQcrWrite (q off : Nat) (v : Quad)
  /-- QUIET_RETURN (R285). QUIET returns once every source reports zero for the tag. -/
  | evQuietReturn (r : SliceRef)
  /-- REDIRECTED_ARRIVAL (R287). An arrival for a saved team is applied to its barrier image. -/
  | evRedirectedArrival (op : Nat)
  /-- QUEUE_SLOT_READ (R291). A consumer reads an eligible slot, starts the packet and advances RDIDX. -/
  | evQueueSlotRead (hp ctx q : Nat)
  /-- POOL_DISPATCH (R351). The distributor selects the highest ready entry and dispatches it to an engine. -/
  | evPoolDispatch (hp : Nat)
  /-- ENTRY_READY (R351). An entry becomes ready when device time reaches its not-before time. -/
  | evEntryReady (eid : Nat)
  /-- LEVEL_AGING (R351). Each full millisecond waited ready raises an entry's level by one. -/
  | evLevelAging (eid : Nat)
  /-- PREFETCH_WAIT_END (R353). Dispatch proceeds once operand prefetch ends or 20 µs pass. -/
  | evPrefetchWaitEnd (eid : Nat)
  /-- NOP_PACKET (R35). Completes at once and advances its timeline. -/
  | evNopPacket (eid : Nat)
  /-- KERNEL_PACKET (R344). Reads the descriptor and group table and launches the teams. -/
  | evKernelPacket (eid : Nat)
  /-- COPY_PACKET (R293). Starts a plain, tile, reduce or convert copy from a queue. -/
  | evCopyPacket (eid : Nat)
  /-- SCRUB_PACKET (R297). Starts a scrub of a range of sectors. -/
  | evScrubPacket (eid : Nat)
  /-- MIGRATE_PACKET (R206). Checks every page of a migration and starts moving them. -/
  | evMigratePacket (eid : Nat)
  /-- GRAPH_PACKET (R347). Checks a graph, writes LIVE counts and admits ready nodes. -/
  | evGraphPacket (eid : Nat)
  /-- SIGNAL_PACKET (R349). Performs one release write. -/
  | evSignalPacket (eid : Nat)
  /-- WAIT_PACKET (R350). Starts a wait on a timeline value. -/
  | evWaitPacket (eid : Nat)
  /-- WAIT_SATISFIED (R350). A WAIT completes when the timeline reaches its value. -/
  | evWaitSatisfied (eid : Nat)
  /-- WAIT_TIMEOUT (R350). A WAIT completes in error when its timeout elapses. -/
  | evWaitTimeout (eid : Nat)
  /-- DOVETAIL_PACKET (R408). Posts a Dovetail to a collective half. -/
  | evDovetailPacket (eid : Nat)
  /-- COLLECTIVE_PACKET (R408). Posts a collective to a collective half. -/
  | evCollectivePacket (eid : Nat)
  /-- NODE_COMPLETE (R348). A node's completion decrements its successors' LIVE counts and admits those at 0. -/
  | evNodeComplete (gid node : Nat)
  /-- NODEGO_ARRIVAL (R357). A NODEGO release reaches the pool and decrements LIVE or is logged. -/
  | evNodegoArrival (op : Nat)
  /-- LAUNCH_COMPLETE (R344). A launch completes when its last team ends and its group entries are freed. -/
  | evLaunchComplete (launch : Nat)
  /-- COPY_CHUNK_SEND (R299). The copy engine sends the next chunk by deficit round-robin. -/
  | evCopyChunkSend (engine : Nat)
  /-- COPY_COMPLETE (R306). A copy's chunks have performed; it places follow-ons, arrives, advances its timeline and clears its token. -/
  | evCopyComplete (cid : Nat)
  /-- COPY_ABANDON (R312). A retryable transfer error abandons a copy. -/
  | evCopyAbandon (cid : Nat)
  /-- COPY_REPLAY (R313). An abandoned copy is replayed from its first chunk. -/
  | evCopyReplay (cid : Nat)
  /-- SCRUB_SECTOR (R297). Scrubs one sector under the directory lock. -/
  | evScrubSector (sid : Nat) (found : ScrubFinding)
  /-- TLWT_RETURN (R308). TLWT returns once the timeline value is reached. -/
  | evTlwtReturn (r : SliceRef)
  /-- FOLLOWON_ENTER (R322). A waiting follow-on command enters its team queue when there is room. -/
  | evFollowonEnter (cid : Nat)
  /-- TILE_ROTATION (R323). The cluster engine runs one tile step of the next ready team's head command. -/
  | evTileRotation (cl : Nat)
  /-- TMMA_SLAB_LOAD (R329). Loads a B slab from the Plate. -/
  | evTmmaSlabLoad (tid : Nat)
  /-- TMMA_STREAM (R329). Streams one row group of A through the array. -/
  | evTmmaStream (tid : Nat)
  /-- TMMA_WRITEBACK (R329). Rounds a group's sums into the tile. -/
  | evTmmaWriteback (tid : Nat)
  /-- TMMA_DONE (R329). Makes the barrier arrival and clears the token. -/
  | evTmmaDone (tid : Nat)
  /-- TSTO_COMPLETE (R336). A TSTO's stores have performed, and its token clears. -/
  | evTstoComplete (id : Nat)
  /-- CTX_EN_WRITE (R340). Setting EN reads the tables and starts the context running. -/
  | evCtxEnWrite (hp ctx : Nat) (v : Quad)
  /-- CTX_SAVE (R358). CMD SAVE starts draining the context. -/
  | evCtxSave (hp ctx : Nat)
  /-- CTX_RESTORE (R363). CMD RESTORE checks and reloads the context image. -/
  | evCtxRestore (hp ctx : Nat)
  /-- CTX_KILL (R366). CMD KILL kills every team and discards every pending item in error. -/
  | evCtxKill (hp ctx : Nat)
  /-- FQRD_WRITE (R340). Software consumes fault records by advancing FQRD. -/
  | evFqrdWrite (hp ctx : Nat) (v : Word)
  /-- SAVE_DRAIN_DONE (R358). All started work has ended within the drain limit, and the image is written. -/
  | evSaveDrainDone (hp ctx : Nat)
  /-- FORCED_SAVE (R359). Expiry of the drain limit stops the context's slices and abandons copies. -/
  | evForcedSave (hp ctx : Nat)
  /-- SAVE_COMPLETE (R358). The image is written, resources are freed, STATE becomes saved and an interrupt is raised. -/
  | evSaveComplete (hp ctx : Nat)
  /-- TEAM_KILL (R365). Stops a team, discards its commands and logs the kill. -/
  | evTeamKill (tid cause : Nat)
  /-- BANDWIDTH_CHANGE (R356). Reassigns unstarted collectives to the half with more active wavelengths. -/
  | evBandwidthChange (die port : Nat)
  /-- FABRIC_EN_WRITE (R367). Enabling Limop reads the route table and starts sending and accepting. -/
  | evFabricEnWrite (hp : Nat) (v : Quad)
  /-- RTLOAD (R368). The far dies re-read the route table. -/
  | evRtload (hp : Nat)
  /-- FABRIC_INVALIDATE (R369). Invalidates cached peer, import and export entries. -/
  | evFabricInvalidate (hp ctx : Nat) (v : Quad)
  /-- RDREQ (R372). A responder checks and serves a remote read. -/
  | evRdreq (m : Msg)
  /-- WRREQ (R372). A responder performs a numbered remote write in sequence. -/
  | evWrreq (m : Msg)
  /-- ATREQ (R376). A responder performs a numbered remote atomic. -/
  | evAtreq (m : Msg)
  /-- FNREQ (R376). A responder acknowledges a fence marker after earlier messages. -/
  | evFnreq (m : Msg)
  /-- SKIP (R390). Fills a sequence number and performs nothing. -/
  | evSkip (m : Msg)
  /-- RDRSP (R376). A read response writes the lane's destination. -/
  | evRdrsp (m : Msg)
  /-- WRACK (R380). A write acknowledgement completes a remote store. -/
  | evWrack (m : Msg)
  /-- ATRSP (R376). An atomic response returns the old value. -/
  | evAtrsp (m : Msg)
  /-- FNACK (R379). A fence acknowledgement completes an RFNC marker. -/
  | evFnack (m : Msg)
  /-- ERRRSP (R378). An error response completes requests with a status. -/
  | evErrrsp (m : Msg)
  /-- FLIT_RECEIVE (R386). A port accepts a flit in order with a good CRC, or discards it and NAKs. -/
  | evFlitReceive (port : Nat) (f : Flit)
  /-- NAK_RECEIVE (R386). A sender resends from FACK + 1 on a NAK. -/
  | evNakReceive (port fack : Nat)
  /-- NAK_REPEAT (R386). The NAK is repeated every 64 ns until the missing flit arrives. -/
  | evNakRepeat (port : Nat)
  /-- NAK_HOLD_EXPIRY (R393). A held NAK is sent alone after 40 ns. -/
  | evNakHoldExpiry (port : Nat)
  /-- FLIT_FLUSH (R383). A partly filled flit is padded and sent after 64 ns without a new unit. -/
  | evFlitFlush (port : Nat)
  /-- NULL_FLIT (R383). A NULL flit is sent when 32 ns pass without a flit. -/
  | evNullFlit (port : Nat)
  /-- LOSS_OF_LIGHT (R391). A wavelength below threshold for 30 ns is found lost and a restripe begins. -/
  | evLossOfLight (port wave : Nat) (cause : LinkCause)
  /-- ACTMAP_RECEIVE (R392). A sender adopts a new wavelength map and resends after FACK. -/
  | evActmapReceive (port fack : Nat) (map : Half)
  /-- WAVELENGTH_RECOVERY (R392). A wavelength is re-added after 1 ms of clean reception. -/
  | evWavelengthRecovery (port wave : Nat)
  /-- PORT_DOWN (R394). A port goes down and its outstanding messages are re-sent on other ports. -/
  | evPortDown (port : Nat) (cause : LinkCause)
  /-- PORT_UP (R395). A port completes training, records an event and signals a bandwidth change. -/
  | evPortUp (port : Nat)
  /-- REQUEST_TABLE_ADMIT (R387). A waiting request takes an outstanding-request entry when one frees. -/
  | evRequestTableAdmit (die : Nat)
  /-- REQUEST_TIMEOUT (R387). A request with no response within REQTO completes TIMEOUT. -/
  | evRequestTimeout (die tag : Nat)
  /-- RESPONSE_CACHE_EXPIRY (R396). A cached response expires after 2 x REQTO. -/
  | evResponseCacheExpiry (die speer sinc tag : Nat)
  /-- SEND_WINDOW_HOLE (R396). An uncorrectable send-window flit becomes a hole and its messages are re-sent. -/
  | evSendWindowHole (port fseq : Nat)
  /-- LIMOP_SEQ_GAP_TIMEOUT (R390). A Limop gap open for 2 x REQTO is a SEQ violation. -/
  | evLimopSeqGapTimeout (hp speer sinc : Nat)
  /-- TXEN_WRITE (R436). Sets a Limop port's transmit wavelengths, restriping the link. -/
  | evTxenWrite (port : Nat) (v : Quad)
  /-- COLLECTIVE_POST (R407). A half checks a posted collective and sends its CSETs. -/
  | evCollectivePost (oid : Nat)
  /-- CSET (R407). A half receives a member's CSET and, with all in hand, compares hashes. -/
  | evCset (m : Msg)
  /-- CDAT (R409). A receiver writes a collective data message at its destination offset. -/
  | evCdat (m : Msg)
  /-- CCTL_DONE (R409). A sender learns a receiver has performed all its bytes. -/
  | evCctlDone (m : Msg)
  /-- CCTL_ABORT (R407). A member's abort ends the operation with PEERFAULT. -/
  | evCctlAbort (m : Msg)
  /-- CCTL_COMMIT (R418). The switch commits an in-switch reduction. -/
  | evCctlCommit (m : Msg)
  /-- CCTL_NOSW (R418). The switch refuses in-switch reduction. -/
  | evCctlNosw (m : Msg)
  /-- COLLECTIVE_COMPLETE (R411). A member completes, writes status, advances its timeline and clears its token. -/
  | evCollectiveComplete (oid : Nat)
  /-- COLLECTIVE_TIMEOUT (R419). TIMEOUT elapses before a collective completes. -/
  | evCollectiveTimeout (oid : Nat)
  /-- HELD_MESSAGE_DISCARD (R407). Held CSETs and ABORTs not claimed within 2 x REQTO are discarded. -/
  | evHeldMessageDiscard (half : Nat)
  /-- PSTEP_WRITE (R435). Commands performance steps for compute dies. -/
  | evPstepWrite (v : Quad)
  /-- STEP_RELOCK_DONE (R18). A compute die's clocks relock and it resumes issue. -/
  | evStepRelockDone (die : Nat)
  /-- THERMAL_TRIP (R19). A die reaching 110 °C stops all clocks but Glomel's. -/
  | evThermalTrip (die : Nat) (temp : Half)
  /-- HOST_RESET (R19). A host reset resumes the device. -/
  | evHostReset
  /-- POWER_ON_RESET (R435). Power-on reset returns every register to its reset value. -/
  | evPowerOnReset
  /-- PARTCFG_WRITE (R427). Changes the partition plan or ownership, or sets ERR. -/
  | evPartcfgWrite (v : Quad)
  /-- PLAN_CHANGE_DONE (R427). Zeroing for a plan change ends and BUSY clears. -/
  | evPlanChangeDone
  /-- KEY_GENERATE (R429). Glomel draws a random key into a slot. -/
  | evKeyGenerate (v : Quad)
  /-- KEY_IMPORT (R429). Imports a key delivered under an SPDM session. -/
  | evKeyImport (v : Quad)
  /-- KEY_DESTROY (R430). Starts destruction of a key slot. -/
  | evKeyDestroy (v : Quad)
  /-- KEY_CLEAR (R429). Returns a destroyed slot to EMPTY. -/
  | evKeyClear (v : Quad)
  /-- KEY_DESTROY_DONE (R430). Every unit has dropped the slot's lines and BUSY clears. -/
  | evKeyDestroyDone
  /-- LOCK_INTERFACE (R431). TDISP LOCK_INTERFACE binds key slots to a TDI. -/
  | evLockInterface (port vf : Nat) (slots : List Nat)
  /-- STOP_INTERFACE (R431). TDISP STOP_INTERFACE destroys the TDI's bound slots. -/
  | evStopInterface (port vf : Nat)
  /-- IDE_INTEGRITY_FAILURE (R431). An IDE integrity failure makes the TDI leave RUN, destroying its keys. -/
  | evIdeIntegrityFailure (port vf : Nat)
  /-- FUNCTION_LEVEL_RESET (R431). A function-level reset makes the TDI leave RUN, destroying its keys. -/
  | evFunctionLevelReset (port vf : Nat)
  /-- GLOMEL_BOOT (R432). At reset Glomel verifies its firmware chain. -/
  | evGlomelBoot (images : List BootImage)
  /-- GLOMEL_FAILOVER (R432). The standby Glomel takes over after 10 ms without heartbeat. -/
  | evGlomelFailover
  /-- SPDM_REQUEST (R433). Glomel answers an SPDM attestation request. -/
  | evSpdmRequest
  /-- SECURITY_ALARM (R434). A security alarm takes the action set in GLPOL. -/
  | evSecurityAlarm (a : Alarm)
  /-- GLPOL_WRITE (R434). Sets alarm actions unless LOCK is set. -/
  | evGlpolWrite (v : Quad)
  /-- SRPOL_WRITE (R437). Sets a pseudo-channel's self-refresh policy, entering now for MODE 2. -/
  | evSrpolWrite (chan : Nat) (v : Quad)
  /-- SELF_REFRESH_ENTRY (R437). The idle timer expires and the pseudo-channel enters self-refresh. -/
  | evSelfRefreshEntry (chan : Nat)
  /-- SELF_REFRESH_EXIT (R437). A request finding self-refresh waits for the exit. -/
  | evSelfRefreshExit (chan : Nat)
  /-- RESYNC_GO (R439). Starts writing the summary block. -/
  | evResyncGo (v : Quad)
  /-- RESYNC_DONE (R439). The summary is written, BUSY clears and the management vector is raised. -/
  | evResyncDone
  /-- REGISTER_WRITE (R7). A write to a register with no behaviour of its own. -/
  | evRegisterWrite (pa : Nat) (v : Quad)
  /-- HOST_PORT_WRITE (R424). A memory write or AtomicOp that the host sends through a BAR of a host port is performed in device memory, such as a queue slot, a queue header or a timeline. -/
  | evHostPortWrite (a : HostWrite)
  /-- START_INTERFACE (R431). A TDISP request moves a trusted device interface from CONFIG_LOCKED into RUN. -/
  | evStartInterface (port vf : Nat)
  deriving DecidableEq, Repr

end Sys2Proof
end

