-- ==== Sys2Proof/WellFormed.lean ====
section
/-! DEFINITION. Which instructions the encoding rules allow: the checks of ILL that need no state (03 R70 to
R92, R97, and the entries of 04 to 13). Checks that need the state (the vector budget of R89, the mode) are
made where the instruction issues. -/

namespace Sys2Proof

/-! ## Types and codes -/

/-- The code of a type (R86). -/
def Ty.code : Ty → BitVec 4
  | .i8 => 0 | .z8 => 1 | .i16 => 2 | .z16 => 3 | .i32 => 4 | .z32 => 5 | .i64 => 6 | .z64 => 7
  | .f16 => 8 | .bf16 => 9 | .f32 => 10 | .f64 => 11 | .e4m3 => 12 | .e5m2 => 13 | .e2m1 => 14 | .b128 => 15

/-- The types an instruction accepts, as a list of codes. -/
def Ty.isInt (t : Ty) : Bool := t ∈ [.i8, .z8, .i16, .z16, .i32, .z32, .i64, .z64]

/-- i32 z32 i64 z64. -/
def Ty.isWideInt (t : Ty) : Bool := t ∈ [.i32, .z32, .i64, .z64]

/-- The float types of XF (R157). -/
def Ty.isFloat (t : Ty) : Bool := t ∈ [.f16, .bf16, .f32, .f64]

/-- The types of SHFL and MATCH (R132). -/
def Ty.isLaneTy (t : Ty) : Bool := t ∈ [.i32, .z32, .f32, .i64, .z64, .f64]

/-- The types of atomics (R192, R373). -/
def Ty.isAtomTy (t : Ty) : Bool := t ∈ [.i32, .z32, .i64, .z64, .f32, .f64]

/-- Registers that a value of the type takes (R86): a pair for 64 bits, four for b128. -/
def Ty.regs : Ty → Nat
  | .i64 | .z64 | .f64 => 2
  | .b128 => 4
  | _ => 1

/-- A register group is aligned to its size and stays in its file (R89); `sc` chooses the scalar file. -/
def regOk (sc : Bool) (n r : Nat) : Bool := r % n = 0 && r + n ≤ (if sc then 64 else 256)

/-! ## Special registers (R90) -/

/-- The special-register numbers that are assigned (R90, R124, R138, R140). -/
def srAssigned (n : Nat) : Bool :=
  n ≤ 0x14 || (0x20 ≤ n && n ≤ 0x2B) || (0x100 ≤ n && n ≤ 0x10F) || (0x1000 ≤ n && n ≤ 0x1002)

/-- The assigned numbers that CSRW may write: FFLAGS, TPCLO, TPCHI, TEXEC, TSCR, PMSEL0 to PMSEL15. -/
def srWritable (n : Nat) : Bool :=
  n == 0 || n == 0x21 || n == 0x22 || n == 0x27 || n == 0x2A || (0x100 ≤ n && n ≤ 0x10F)

/-! ## Base forms (R73 to R77) -/

/-- With the literal, the field it replaces is zero (R75). -/
def B3.litOk (o : B3) : Bool := o.lit.isNone || (o.b == 0 && !o.bk)

/-- A B3 form with operands D, A and B. -/
def B3.ok (o : B3) : Bool := o.litOk

/-- BVI and BSI MOV: A is zero (R149). -/
def B3.okMov (o : B3) : Bool := o.litOk && o.a == 0

/-- A B3 form that reads A only: B and BK are zero, and no operand is left for a literal (R149). -/
def B3.okUnary (o : B3) : Bool := o.lit.isNone && o.b == 0 && !o.bk

/-- BVC: D names a predicate (R76). -/
def B3.okPred (o : B3) : Bool := o.litOk && o.d.toNat < 8

def BI.ok (o : BI) : Bool := o.lit.isNone || o.imm == 0

def BI.okMov (o : BI) : Bool := o.ok && o.a == 0

/-- A branch target by literal is word aligned (R75). -/
def BJ.litOk (o : BJ) : Bool :=
  match o.lit with
  | none => true
  | some l => o.off == 0 && l.toNat % 4 == 0

def BJ.okScalar (o : BJ) : Bool := o.litOk
def BJ.okPred (o : BJ) : Bool := o.litOk && o.s.toNat < 8
def BJ.okNone (o : BJ) : Bool := o.litOk && o.s == 0

def BS.okNone (o : BS) : Bool := o.lit.isNone && o.d == 0 && o.a == 0 && o.b == 0
def BS.okD (o : BS) : Bool := o.lit.isNone && o.a == 0 && o.b == 0
def BS.okA (o : BS) : Bool := o.lit.isNone && o.d == 0 && o.b == 0
def BS.okB (o : BS) : Bool := o.lit.isNone && o.d == 0 && o.a == 0
def BS.okPairA (o : BS) : Bool := o.okA && o.a.toNat % 2 == 0
def BS.okExsave (o : BS) : Bool := o.lit.isNone && o.a == 0 && o.b.toNat < 8

/-- The special-register number of SRD: A × 64 + B, or bits 11:0 of the literal (R75, R77). -/
def BS.srNum (o : BS) : Nat :=
  match o.lit with
  | none => o.a.toNat * 64 + o.b.toNat
  | some l => l.toNat % 4096

def BS.okSrd (o : BS) : Bool :=
  (match o.lit with
   | none => true
   | some l => o.a == 0 && o.b == 0 && l.toNat / 4096 % 16 == 0)
  && srAssigned o.srNum

def BS.okWaitk (o : BS) : Bool := o.lit.isNone && o.d == 0 && o.a.toNat < 4

/-! ## Words 0 and 1 of extended forms (R78) -/

/-- Guard field legal, and LA zero outside class L (R78, R92). -/
def Head.ok (h : Head) (classL : Bool) : Bool :=
  !(h.gp == 7 && h.gn) && (classL || h.la == 0)

/-- What word 1 field C means in an arithmetic instruction: not read, a register group, a code whose
largest value is given, or a predicate. -/
inductive CUse where
  | none
  | reg (n : Nat)
  | code (max : Nat)
  | pred
  deriving DecidableEq, Repr

/-- What an arithmetic entry reads and accepts (R152, R157, R162 to R165). -/
structure ArithRule where
  tys : Ty → Bool
  readsA : Bool := true
  readsB : Bool := true
  c : CUse := .none
  rnd : Bool := false
  sat : Bool := false
  ftz : Bool := false
  nD : Ty → Nat := Ty.regs
  nA : Ty → Nat := Ty.regs
  nB : Ty → Nat := Ty.regs
  predD : Bool := false

/-- The kind of D: DK with BI = 0, the kind of KA with BI = 1 (R80). -/
def Arith.dk (w : Arith) : Bool := if w.bi then w.ka else w.imm.getLsbD 19

/-- A source C that is a register, and not the literal (R82). -/
def litC (h : Head) (w : Arith) : Bool := h.lit.isSome && !w.bi

def CUse.ok (u : CUse) (h : Head) (w : Arith) : Bool :=
  match u with
  | .none => h.c == 0 && !w.kc && !litC h w
  | .code m => h.c.toNat ≤ m && !w.kc && !litC h w
  | .pred => h.c.toNat < 8 && !w.kc && !litC h w
  | .reg n => if litC h w then h.c == 0 && w.kc else regOk w.kc n h.c.toNat

def CUse.scalarOk (u : CUse) (h : Head) (w : Arith) : Bool :=
  match u with
  | .reg _ => w.kc || litC h w
  | _ => true

def ArithRule.ok (r : ArithRule) (classL : Bool) (h : Head) (w : Arith) : Bool :=
  h.ok classL && r.tys w.ty
  && (r.rnd || w.rnd == .rn) && (r.sat || !w.sat) && (r.ftz || !w.ftz)
  && (if w.bi then r.readsB && h.b == 0 && !w.kb && (h.lit.isNone || w.imm == 0)
      else w.imm.toNat % 2 ^ 19 == 0)
  && (if r.readsA then regOk w.ka (r.nA w.ty) h.a.toNat else h.a == 0 && (w.bi || !w.ka))
  && (if r.readsB then w.bi || regOk w.kb (r.nB w.ty) h.b.toNat else h.b == 0 && !w.kb)
  && r.c.ok h w
  && (if r.predD && !w.dk then h.d.toNat < 8 else regOk w.dk (r.nD w.ty) h.d.toNat)
  && (!w.dk || ((!r.readsA || w.ka) && (!r.readsB || w.bi || w.kb) && r.c.scalarOk h w))

/-! ### XI (R152) -/

def xi2 (sat : Bool) : ArithRule := { tys := Ty.isInt, sat := sat }
def selRule : ArithRule := { tys := Ty.isInt, c := .pred }
def xiWide : ArithRule := { tys := Ty.isWideInt }
def xi1 (tys : Ty → Bool) (sat : Bool := false) : ArithRule := { tys := tys, readsB := false, sat := sat }
/-- Three register operands of the type's width. -/
def xi3 (tys : Ty → Bool) (sat : Bool) (t : Ty) : ArithRule := { tys := tys, sat := sat, c := .reg t.regs }

/-- ADDC and SUBB (R152): C is one 32-bit register, of D's kind, apart from D and its pair; it is written,
so it is never the literal. -/
def okCarry (h : Head) (w : Arith) : Bool :=
  ({ tys := Ty.isWideInt, c := .reg 1 } : ArithRule).ok false h w
  && !litC h w && w.kc == w.dk && !(h.d.toNat ≤ h.c.toNat && h.c.toNat < h.d.toNat + w.ty.regs)

/-- SEL (R152): C is a predicate, D a vector. -/
def okSel (h : Head) (w : Arith) : Bool :=
  selRule.ok false h w && !w.dk

/-- MOV (R152): B only; b128 with a register B. -/
def okMov (h : Head) (w : Arith) : Bool :=
  ({ tys := fun t => t.isInt || t == .b128, readsA := false } : ArithRule).ok false h w
  && !(w.ty == .b128 && w.bi)

def okIset (h : Head) (w : Arith) : Bool :=
  ({ tys := Ty.isInt, c := .code 5, nD := fun _ => 1, predD := true } : ArithRule).ok false h w

/-- LEA (R152, R156): D and A are pairs; C is the shift. -/
def okLea (h : Head) (w : Arith) : Bool :=
  ({ tys := fun t => t ∈ [.i32, .z32, .i64], c := .code 7, nD := fun _ => 2, nA := fun _ => 2 } : ArithRule).ok false h w

/-! ### XF (R157) -/

def xf2 (rnd sat : Bool) : ArithRule := { tys := Ty.isFloat, rnd := rnd, sat := sat, ftz := true }
def xf1 (tys : Ty → Bool) (rnd sat : Bool) : ArithRule :=
  { tys := tys, readsB := false, rnd := rnd, sat := sat, ftz := true }
def okFfma (h : Head) (w : Arith) : Bool :=
  ({ tys := Ty.isFloat, rnd := true, sat := true, ftz := true, c := .reg w.ty.regs } : ArithRule).ok false h w
def okFset (h : Head) (w : Arith) : Bool :=
  ({ tys := Ty.isFloat, ftz := true, c := .code 7, nD := fun _ => 1, predD := true } : ArithRule).ok false h w
def okFclass (h : Head) (w : Arith) : Bool :=
  ({ tys := Ty.isFloat, readsB := false, nD := fun _ => 1 } : ArithRule).ok false h w
def isF3264 (t : Ty) : Bool := t ∈ [.f32, .f64]
def isF32 (t : Ty) : Bool := t == .f32

/-! ### XQ (R162 to R165) -/

/-- The type whose code is `c`. -/
def Ty.ofCode (c : BitVec 4) : Ty :=
  match c.toNat with
  | 0 => .i8 | 1 => .z8 | 2 => .i16 | 3 => .z16 | 4 => .i32 | 5 => .z32 | 6 => .i64 | 7 => .z64
  | 8 => .f16 | 9 => .bf16 | 10 => .f32 | 11 => .f64 | 12 => .e4m3 | 13 => .e5m2 | 14 => .e2m1 | _ => .b128

/-- The source type in word 1 C<3:0> (R79). -/
def Head.srcTy (h : Head) : Ty := Ty.ofCode (h.c.setWidth 4)

def okCvt (h : Head) (w : Arith) : Bool :=
  ({ tys := fun t => t != .b128, readsB := false, c := .code 14, rnd := true, sat := true, ftz := true,
     nA := fun _ => h.srcTy.regs } : ArithRule).ok false h w

def okQntz (h : Head) (w : Arith) : Bool :=
  ({ tys := fun t => t == .e2m1, c := .code 15, nD := fun _ => 2, nA := fun _ => 8, nB := fun _ => 1 } : ArithRule).ok true h w
  && !w.ka && !w.dk && (w.bi || w.kb) && (h.srcTy ∈ [.f32, .f16, .bf16])

def okDqnt (h : Head) (w : Arith) : Bool :=
  ({ tys := fun t => t ∈ [.f32, .f16, .bf16], readsB := false, rnd := true, c := .code 3,
     nD := fun _ => 8, nA := fun _ => 2 } : ArithRule).ok true h w
  && !w.ka && !w.dk && h.c != 0

def okDot4 (h : Head) (w : Arith) : Bool :=
  ({ tys := fun t => t ∈ [.i8, .z8, .e4m3, .e5m2], rnd := !w.ty.isInt, sat := true, c := .reg 1,
     nD := fun _ => 1, nA := fun _ => 1, nB := fun _ => 1 } : ArithRule).ok false h w && !w.bi

def okDot8 (h : Head) (w : Arith) : Bool :=
  ({ tys := fun t => t == .e2m1, rnd := true, sat := true, c := .reg 1,
     nD := fun _ => 1, nA := fun _ => 1, nB := fun _ => 1 } : ArithRule).ok false h w && !w.bi

/-! ### XL (R132, R85) -/

def Cross.baseOk (h : Head) (w : Cross) : Bool := h.ok false && w.ls != 3

def okShfl (h : Head) (w : Cross) : Bool :=
  w.baseOk h && w.ty.isLaneTy && w.rnd == .rn && w.sub.toNat ≤ 3 && w.ps == 0
  && regOk false w.ty.regs h.d.toNat && regOk false w.ty.regs h.a.toNat
  && (if w.bi then h.b == 0 && (h.lit.isNone || w.imm == 0) else w.imm == 0 && h.lit.isNone)
  && (if w.fl then regOk false w.ty.regs h.c.toNat else h.c == 0)

def okVote (h : Head) (w : Cross) : Bool :=
  w.baseOk h && w.ty == .i8 && w.rnd == .rn && w.sub.toNat ≤ 3 && !w.fl && !w.bi && w.imm == 0
  && h.lit.isNone && h.a == 0 && h.b == 0 && h.c == 0
  && (if w.sub == 3 then h.d.toNat < 64 else h.d.toNat < 8)

/-- What SHFL and VOTE alone use is zero. -/
def Cross.plain (h : Head) (w : Cross) : Bool :=
  !w.fl && !w.bi && w.imm == 0 && h.lit.isNone && h.b == 0 && h.c == 0

def okReduce (op : Nat) (h : Head) (w : Cross) : Bool :=
  w.baseOk h && w.plain h && w.ps == 0 && (w.ty ∈ [.i32, .z32, .i64, .z64, .f32, .f64]) && op ≤ 5
  && (w.ty.isInt || op ≤ 2) && (w.rnd == .rn || (!w.ty.isInt && op == 0))
  && regOk false w.ty.regs h.d.toNat && regOk false w.ty.regs h.a.toNat

def okGred (h : Head) (w : Cross) : Bool := okReduce w.sub.toNat h w
def okGscan (h : Head) (w : Cross) : Bool := okReduce (w.sub.toNat % 8) h w

def okMatch (h : Head) (w : Cross) : Bool :=
  w.baseOk h && w.plain h && w.ty.isLaneTy && w.rnd == .rn && w.sub.toNat ≤ 1
  && (w.sub == 1 || w.ps == 0) && regOk false w.ty.regs h.d.toNat && regOk false w.ty.regs h.a.toNat

/-! ### XC (R127) -/

def Branch.baseOk (h : Head) (w : Branch) : Bool :=
  h.ok false && h.d == 0 && h.b == 0 && h.c == 0 && w.rsv == 0
  && (match h.lit with
      | none => true
      | some l => w.off == 0 && l.toNat % 4 == 0)

def okXcPlain (h : Head) (w : Branch) : Bool := w.baseOk h && h.a == 0 && w.cnd == 0
def okXcBrc (h : Head) (w : Branch) : Bool :=
  w.baseOk h && (match w.cnd.toNat with
    | 1 | 2 => h.a.toNat < 64
    | 3 | 4 | 5 => h.a.toNat < 8
    | 6 => h.a == 0
    | _ => false)

/-! ### XM, XS, XA (R192, R81, R83) -/

def Mem.hint (w : Mem) : Nat := w.min4.toNat % 4
def Mem.dec (w : Mem) : Bool := w.min4.getLsbD 2

/-- Field A as an address pair (R81, R82): zero with the literal, else a vector or a scalar pair. -/
def pairOk (h : Head) : Bool :=
  if h.lit.isSome then h.a == 0 else h.a.toNat < 128 || h.a.toNat - 128 < 32

/-- Field A as a scalar pair, or the literal (R192). -/
def scalarPairOk (h : Head) : Bool :=
  if h.lit.isSome then h.a == 0 else 128 ≤ h.a.toNat && h.a.toNat - 128 < 32

/-- Field A of XS (R81). -/
def offsetRegOk (h : Head) : Bool := h.lit.isNone && (h.a.toNat < 128 || h.a.toNat - 128 < 64)

/-- The XM common part: the reserved MIN bit, the hint and DEC (R83, R97). -/
def Mem.xmOk (w : Mem) (hints : List Nat) (dec : Bool) : Bool :=
  !w.min4.getLsbD 3 && (w.hint ∈ hints) && (dec || !w.dec)

def okLd (h : Head) (w : Mem) : Bool :=
  h.ok true && w.xmOk [0, 1, 2, 3] true && pairOk h && h.c == 0 && (w.ord ∈ [.rlx, .acq])
  && regOk false w.ty.regs h.d.toNat
  && (if w.dec then w.ty ∈ [.f16, .bf16, .f32, .i32, .z32] else w.ty != .e2m1 && h.b == 0)

def okSt (h : Head) (w : Mem) : Bool :=
  h.ok false && w.xmOk [0, 1, 3] false && pairOk h && h.d == 0 && h.c == 0 && (w.ord ∈ [.rlx, .rel])
  && w.ty != .e2m1 && regOk false w.ty.regs h.b.toNat

def okLdc (h : Head) (w : Mem) : Bool :=
  h.ok true && w.xmOk [0, 2] false && scalarPairOk h && h.b == 0 && h.c == 0 && w.ord == .rlx
  && (w.ty ∈ [.i32, .z32, .f32, .i64, .z64, .f64, .b128]) && regOk true w.ty.regs h.d.toNat

def okPrf (h : Head) (w : Mem) : Bool :=
  h.ok false && w.xmOk [0, 1, 2, 3] false && pairOk h && h.d == 0 && h.b == 0 && h.c == 0
  && w.ord == .rlx && w.scope == .team && w.ty == .i8

def okGather (classL : Bool) (h : Head) (w : Mem) : Bool :=
  h.ok classL && w.xmOk [0] false && scalarPairOk h && w.ord == .rlx && (w.scope ∈ [.dev, .sys])
  && w.ty != .e2m1 && w.ty != .b128

def okLdg (h : Head) (w : Mem) : Bool := okGather true h w && h.c == 0 && regOk false w.ty.regs h.d.toNat
def okSct (h : Head) (w : Mem) : Bool := okGather false h w && h.d == 0 && regOk false w.ty.regs h.c.toNat

def okIcinv (h : Head) (w : Mem) : Bool :=
  h.ok false && w.xmOk [0] false && scalarPairOk h && h.d == 0 && h.b == 0 && h.c == 0
  && w.ord == .rlx && w.ty == .i8

def okLds (h : Head) (w : Mem) : Bool :=
  h.ok true && offsetRegOk h && w.min4 == 0 && w.scope == .team && (w.ord ∈ [.rlx, .acq])
  && w.ty != .e2m1 && h.b == 0 && h.c == 0 && regOk false w.ty.regs h.d.toNat

def okSts (h : Head) (w : Mem) : Bool :=
  h.ok false && offsetRegOk h && w.min4 == 0 && w.scope == .team && (w.ord ∈ [.rlx, .rel])
  && w.ty != .e2m1 && h.d == 0 && h.c == 0 && regOk false w.ty.regs h.b.toNat

/-- The AOP of ATOMS, ATOM and RATM is listed (R84), and is one its type allows (R199). -/
def aopOk (aop : BitVec 4) (t : Ty) : Bool :=
  aop.toNat ≤ 9 && t.isAtomTy && (t.isInt || aop.toNat ∈ [0, 1, 2, 6, 7])

def okAtomRegs (h : Head) (w : Mem) : Bool :=
  aopOk w.min4 w.ty && regOk false w.ty.regs h.d.toNat && regOk false w.ty.regs h.b.toNat
  && (if w.min4 == 7 then regOk false w.ty.regs h.c.toNat else h.c == 0)

def okAtoms (h : Head) (w : Mem) : Bool := h.ok true && offsetRegOk h && w.scope == .team && okAtomRegs h w
def okAtom (h : Head) (w : Mem) : Bool := h.ok true && pairOk h && okAtomRegs h w

/-! ### XO (R247) -/

def Mem.noA (h : Head) (w : Mem) : Bool :=
  h.lit.isNone && w.min4 == 0 && h.d == 0 && h.b == 0 && h.c == 0

def okFence (h : Head) (w : Mem) : Bool := h.ok false && w.noA h && h.a == 0 && w.off == 0 && w.ty == .i8
def okSeal (h : Head) (w : Mem) : Bool := okFence h w && w.ord == .rlx
def okChkr (h : Head) (w : Mem) : Bool :=
  h.ok false && w.noA h && scalarPairOk h && w.scope == .dev && w.ord == .rlx && w.ty == .i8

/-! ### XY and XU (R261, R278, R284, R285) -/

/-- No base register, or s(n) (R261). -/
def baseRegOk (r : BitVec 8) : Bool := r == 0 || (128 ≤ r.toNat && r.toNat - 128 < 64)

/-- The phase operand (R261). -/
def phaseOk (r : BitVec 8) : Bool := r.toNat ≤ 1 || (128 ≤ r.toNat && r.toNat - 128 < 64)

/-- A group of `n` scalar registers named 0x80 + r. -/
def sGroupOk (n : Nat) (r : BitVec 8) : Bool := 128 ≤ r.toNat && regOk true n (r.toNat - 128)

def Mem.xyOk (h : Head) (w : Mem) (kinds : List Ty) : Bool :=
  h.ok false && h.lit.isNone && w.min4 == 0 && w.scope == .team && w.ord == .rlx && (w.ty ∈ kinds)

def okBari (h : Head) (w : Mem) : Bool :=
  w.xyOk h [.i8, .z8] && baseRegOk h.a && sGroupOk 2 h.b && h.c == 0 && h.d == 0
def okBara (h : Head) (w : Mem) : Bool :=
  w.xyOk h [.i8, .i16] && baseRegOk h.a && h.b == 0 && h.c == 0 && h.d == 0
def okBarw (h : Head) (w : Mem) : Bool :=
  w.xyOk h [.i8] && baseRegOk h.a && h.b == 0 && phaseOk h.c && h.d == 0
def okBart (h : Head) (w : Mem) : Bool :=
  w.xyOk h [.i8] && baseRegOk h.a && h.b == 0 && phaseOk h.c && h.d.toNat < 64
def okBarx (h : Head) (w : Mem) : Bool :=
  w.xyOk h [.i8] && baseRegOk h.a && h.b == 0 && h.c == 0 && h.d == 0
def okGbara (h : Head) (w : Mem) : Bool :=
  w.xyOk h [.i8] && h.a == 0 && w.off == 0 && h.b.toNat < 4 && h.c == 0 && h.d == 0
def okGbarw (h : Head) (w : Mem) : Bool :=
  w.xyOk h [.i8] && h.a == 0 && w.off == 0 && h.b.toNat < 4 && phaseOk h.c && h.d == 0

def Mem.xuOk (h : Head) (w : Mem) (classL : Bool) : Bool :=
  h.ok classL && h.lit.isNone && w.min4 == 0 && w.ord == .rlx && w.ty == .i8

def okQpsh (h : Head) (w : Mem) : Bool :=
  w.xuOk h true && w.scope == .team && baseRegOk h.a && h.d.toNat < 8 && regOk false 4 h.b.toNat && h.c == 0
def okQpop (h : Head) (w : Mem) : Bool :=
  w.xuOk h true && w.scope == .team && baseRegOk h.a && regOk false 4 h.d.toNat && h.b == 0 && h.c.toNat < 8
def okQst (h : Head) (w : Mem) : Bool :=
  w.xuOk h true && w.scope == .team && baseRegOk h.a && regOk true 2 h.d.toNat && h.b == 0 && h.c == 0
def okPhsw (h : Head) (w : Mem) : Bool :=
  w.xuOk h false && w.scope == .team && h.a == 0 && h.b == 0 && h.c == 0 && h.d == 0 && w.off == 0
def okQuiet (h : Head) (w : Mem) : Bool :=
  w.xuOk h false && (w.scope ∈ [.dev, .sys]) && h.a == 0 && h.b == 0 && phaseOk h.c && h.d == 0 && w.off == 0

/-! ### XP (R300, R308, R309) -/

/-- The token, the copy block and the barrier fields of a copy instruction. BAR is the ORD position. -/
def Mem.cpyOk (h : Head) (w : Mem) : Bool :=
  h.ok false && h.lit.isNone && w.min4 == 0 && h.d.toNat < 8 && sGroupOk 8 h.a
  && (w.ord ∈ [.rlx, .acq]) && (w.ord == .acq || w.off == 0) && w.scope != .die

def okCpy (h : Head) (w : Mem) : Bool := w.cpyOk h && h.b == 0 && h.c == 0 && w.ty == .i8
def okCpyt (h : Head) (w : Mem) : Bool := w.cpyOk h && sGroupOk 2 h.b && h.c == 0 && w.ty == .i8
def okCpyr (h : Head) (w : Mem) : Bool := w.cpyOk h && h.b == 0 && h.c == 0 && w.ty.isAtomTy
def okCpym (h : Head) (w : Mem) : Bool :=
  w.cpyOk h && w.scope != .sys && (h.b == 0 || sGroupOk 2 h.b) && sGroupOk 8 h.c && w.ty == .i8
def okTlwt (h : Head) (w : Mem) : Bool :=
  h.ok false && h.lit.isNone && w.min4 == 0 && h.d == 0 && sGroupOk 1 h.a && sGroupOk 2 h.b && h.c == 0
  && w.off == 0 && w.scope == .team && w.ord == .rlx && w.ty == .i8
def okTlrd (h : Head) (w : Mem) : Bool :=
  h.ok true && h.lit.isNone && w.min4 == 0 && regOk true 2 h.d.toNat && sGroupOk 1 h.a && h.b == 0 && h.c == 0
  && w.off == 0 && w.scope == .team && w.ord == .rlx && (w.ty ∈ [.i8, .z8, .i16])

/-! ### XX (R325, R334, R335, R338) -/

/-- The operand types of MMA (R338). -/
def mmaTys (ta tb : Ty) : Bool :=
  ((ta ∈ [.e4m3, .e5m2]) && (tb ∈ [.e4m3, .e5m2])) || (ta == tb && (ta ∈ [.f16, .bf16, .e2m1]))

def groupsApart (a na b nb : Nat) : Bool := a + na ≤ b || b + nb ≤ a

def okMma (h : Head) (w : Command) : Bool :=
  h.ok true && h.lit.isNone && h.c == 0 && mmaTys w.ta w.tb && w.tc == .f32 && w.flg == 0 && w.imm == 0
  && regOk false 8 h.d.toNat && regOk false 4 h.a.toNat && regOk false 4 h.b.toNat
  && groupsApart h.d.toNat 8 h.a.toNat 4 && groupsApart h.d.toNat 8 h.b.toNat 4

/-- TA, TB, TC and FLG zero (R79). -/
def Command.plain (w : Command) : Bool := w.ta == .i8 && w.tb == .i8 && w.tc == .i8 && w.flg == 0

def okTmma (h : Head) (w : Command) : Bool :=
  h.ok false && h.lit.isNone && w.plain && w.imm == 0 && h.d.toNat < 8 && sGroupOk 8 h.a && h.b == 0 && h.c == 0
def okTzro (h : Head) (w : Command) : Bool :=
  h.ok false && h.lit.isNone && w.plain && w.imm.toNat < 16 && h.d == 0 && h.a == 0 && h.b == 0 && h.c == 0
def okTrd (h : Head) (w : Command) : Bool :=
  h.ok true && h.lit.isNone && w.plain && w.imm.toNat < 1024 && regOk false 8 h.d.toNat && h.a == 0 && h.b == 0 && h.c == 0
def okTwr (h : Head) (w : Command) : Bool :=
  h.ok false && h.lit.isNone && w.plain && w.imm.toNat < 1024 && h.d == 0 && regOk false 8 h.a.toNat && h.b == 0 && h.c == 0
def okTsto (h : Head) (w : Command) : Bool :=
  h.ok false && h.lit.isNone && w.tb == .i8 && w.flg.toNat < 8 && w.imm == 0
  && ((w.ta == .f32 && (w.tc ∈ [.f32, .f16, .bf16, .e4m3, .e5m2])) || (w.ta == .f64 && (w.tc ∈ [.f64, .f32])))
  && h.d.toNat < 8 && sGroupOk 4 h.a && h.b == 0 && h.c == 0

/-! ### XR (R373, R81) -/

def peerOk (r : BitVec 8) : Bool := r.toNat < 128 || r.toNat - 128 < 64

def Remote.baseOk (h : Head) (w : Remote) (classL : Bool) : Bool :=
  h.ok classL && w.scope == .sys && peerOk h.c && (if w.se then w.sp != 7 else w.sp == 0)

def okRld (h : Head) (w : Remote) : Bool :=
  w.baseOk h true && w.min4 == 0 && pairOk h && h.b == 0 && w.ty != .e2m1 && (w.ord ∈ [.rlx, .acq])
  && regOk false w.ty.regs h.d.toNat
def okRst (h : Head) (w : Remote) : Bool :=
  w.baseOk h false && w.min4 == 0 && pairOk h && h.d == 0 && w.ty != .e2m1 && (w.ord ∈ [.rlx, .rel])
  && regOk false w.ty.regs h.b.toNat
def okRatm (h : Head) (w : Remote) : Bool :=
  w.baseOk h true && pairOk h && aopOk w.min4 w.ty && regOk false w.ty.regs h.d.toNat
  && regOk false (if w.min4 == 7 then 2 * w.ty.regs else w.ty.regs) h.b.toNat
def okRfnc (h : Head) (w : Remote) : Bool :=
  w.baseOk h false && w.min4 == 0 && h.lit.isNone && h.a == 0 && h.b == 0 && h.d == 0 && w.off == 0
  && w.ord == .rlx && w.ty == .i8

/-! ### XV, XZ (R422, R357, R137) -/

def okDvt (h : Head) (w : Command) : Bool :=
  h.ok false && h.lit.isNone && w.ta == .i8 && w.tb == .i8 && w.tc == .i8 && w.flg.toNat < 2 && w.imm == 0
  && h.d.toNat < 8 && sGroupOk 2 h.a && h.b == 0 && h.c == 0
def okNodego (h : Head) (w : Command) : Bool :=
  h.ok false && h.lit.isNone && w.plain && w.imm == 0 && h.d == 0 && sGroupOk 2 h.a && h.b == 0 && h.c == 0

def okCsrr (h : Head) (w : Command) : Bool :=
  h.ok false && h.lit.isNone && w.plain && h.d.toNat < 64 && h.a == 0 && h.b == 0 && h.c == 0 && srAssigned w.imm.toNat
def okCsrw (h : Head) (w : Command) : Bool :=
  h.ok false && h.lit.isNone && w.plain && h.a.toNat < 64 && h.d == 0 && h.b == 0 && h.c == 0 && srWritable w.imm.toNat
def okGett (h : Head) (w : Command) : Bool :=
  h.ok false && h.lit.isNone && w.ta == .i8 && w.tb == .i8 && w.tc == .i8 && w.flg.toNat < 2 && w.imm == 0
  && regOk true 2 h.d.toNat && h.a == 0 && h.b == 0 && h.c == 0
def okPmrd (h : Head) (w : Command) : Bool :=
  h.ok true && h.lit.isNone && w.plain && w.imm.toNat < 16 && regOk true 2 h.d.toNat && h.a == 0 && h.b == 0 && h.c == 0

/-! ## All instructions -/

/-- The instruction is one that the encoding rules allow (R97); a step of an engine has no encoding, and the
model puts no condition on it. -/
def Instr.wellFormed : Instr → Bool
  | .bviAdd o => o.ok && !(o.d == 0 && o.a == 0 && o.b == 0 && !o.bk && o.lit.isNone)
  | .bviSub o => o.ok
  | .bviMul o => o.ok
  | .bviMin o => o.ok
  | .bviMax o => o.ok
  | .bviAnd o => o.ok
  | .bviOr o => o.ok
  | .bviXor o => o.ok
  | .bviAndn o => o.ok
  | .bviShl o => o.ok
  | .bviShr o => o.ok
  | .bviSar o => o.ok
  | .bviMov o => o.okMov
  | .bsiAdd o => o.ok
  | .bsiSub o => o.ok
  | .bsiMul o => o.ok
  | .bsiMin o => o.ok
  | .bsiMax o => o.ok
  | .bsiAnd o => o.ok
  | .bsiOr o => o.ok
  | .bsiXor o => o.ok
  | .bsiAndn o => o.ok
  | .bsiShl o => o.ok
  | .bsiShr o => o.ok
  | .bsiSar o => o.ok
  | .bsiMov o => o.okMov
  | .bvfFadd o => o.ok
  | .bvfFsub o => o.ok
  | .bvfFmul o => o.ok
  | .bvfFmin o => o.ok
  | .bvfFmax o => o.ok
  | .bvfFfma o => o.ok
  | .bvfFrcp o => o.okUnary
  | .bvfFrsq o => o.okUnary
  | .bvfFsqrt o => o.okUnary
  | .bvfFex2 o => o.okUnary
  | .bvfFlg2 o => o.okUnary
  | .bvhFaddF16x2 o => o.ok
  | .bvhFsubF16x2 o => o.ok
  | .bvhFmulF16x2 o => o.ok
  | .bvhFminF16x2 o => o.ok
  | .bvhFmaxF16x2 o => o.ok
  | .bvhFfmaF16x2 o => o.ok
  | .bvhFaddBf16x2 o => o.ok
  | .bvhFsubBf16x2 o => o.ok
  | .bvhFmulBf16x2 o => o.ok
  | .bvhFminBf16x2 o => o.ok
  | .bvhFmaxBf16x2 o => o.ok
  | .bvhFfmaBf16x2 o => o.ok
  | .bviiAdd o => o.ok
  | .bviiAnd o => o.ok
  | .bviiOr o => o.ok
  | .bviiXor o => o.ok
  | .bviiShl o => o.ok
  | .bviiShr o => o.ok
  | .bviiSar o => o.ok
  | .bviiMov o => o.okMov
  | .bsiiAdd o => o.ok
  | .bsiiAnd o => o.ok
  | .bsiiOr o => o.ok
  | .bsiiXor o => o.ok
  | .bsiiShl o => o.ok
  | .bsiiShr o => o.ok
  | .bsiiSar o => o.ok
  | .bsiiMov o => o.okMov
  | .bvcIsetEq o => o.okPred
  | .bvcIsetNe o => o.okPred
  | .bvcIsetLt o => o.okPred
  | .bvcIsetLe o => o.okPred
  | .bvcIsetGt o => o.okPred
  | .bvcIsetGe o => o.okPred
  | .bvcIsetEqZ32 o => o.okPred
  | .bvcIsetNeZ32 o => o.okPred
  | .bvcIsetLtZ32 o => o.okPred
  | .bvcIsetLeZ32 o => o.okPred
  | .bvcIsetGtZ32 o => o.okPred
  | .bvcIsetGeZ32 o => o.okPred
  | .bvcFsetEq o => o.okPred
  | .bvcFsetNe o => o.okPred
  | .bvcFsetLt o => o.okPred
  | .bvcFsetLe o => o.okPred
  | .bvcFsetGt o => o.okPred
  | .bvcFsetGe o => o.okPred
  | .bvcFsetUnord o => o.okPred
  | .bscIsetEq o => o.ok
  | .bscIsetNe o => o.ok
  | .bscIsetLt o => o.ok
  | .bscIsetLe o => o.ok
  | .bscIsetGt o => o.ok
  | .bscIsetGe o => o.ok
  | .bscIsetEqZ32 o => o.ok
  | .bscIsetNeZ32 o => o.ok
  | .bscIsetLtZ32 o => o.ok
  | .bscIsetLeZ32 o => o.ok
  | .bscIsetGtZ32 o => o.ok
  | .bscIsetGeZ32 o => o.ok
  | .bbrBra o => o.okNone
  | .bbrBrcNz o => o.okScalar
  | .bbrBrcZ o => o.okScalar
  | .bbrBrcAny o => o.okPred
  | .bbrBrcAll o => o.okPred
  | .bbrBrcNone o => o.okPred
  | .bbrBrez o => o.okNone
  | .bbrLoop o => o.okScalar
  | .bbrCall o => o.okNone
  | .bctNop o => o.okNone
  | .bctExit o => o.okNone
  | .bctRet o => o.okNone
  | .bctJmpr o => o.okPairA
  | .bctCallr o => o.okPairA
  | .bctYield o => o.okNone
  | .bctRegang o => o.okNone
  | .bctExsave o => o.okExsave
  | .bctExelse o => o.okA
  | .bctExrest o => o.okA
  | .bctExset o => o.okA
  | .bctExget o => o.okD
  | .bctGmask o => o.okD
  | .bctGwidth o => o.okD
  | .bctSrd o => o.okSrd
  | .bctWaitk o => o.okWaitk
  | .bctTrap o => o.okB
  | .bctRft o => o.okNone
  | .bctBrkpt o => o.okB
  | .xiAdd h w => (xi2 true).ok false h w
  | .xiSub h w => (xi2 true).ok false h w
  | .xiAddc h w => okCarry h w
  | .xiSubb h w => okCarry h w
  | .xiMul h w => (xi2 true).ok false h w
  | .xiMulh h w => xiWide.ok false h w
  | .xiMad h w => (xi3 Ty.isInt true w.ty).ok false h w
  | .xiMin h w => (xi2 false).ok false h w
  | .xiMax h w => (xi2 false).ok false h w
  | .xiAbs h w => (xi1 (fun t => t ∈ [.i8, .i16, .i32, .i64]) true).ok false h w
  | .xiNeg h w => (xi1 Ty.isInt true).ok false h w
  | .xiAnd h w => xiWide.ok false h w
  | .xiOr h w => xiWide.ok false h w
  | .xiXor h w => xiWide.ok false h w
  | .xiAndn h w => xiWide.ok false h w
  | .xiOrn h w => xiWide.ok false h w
  | .xiNot h w => (xi1 Ty.isWideInt).ok false h w
  | .xiShl h w => (xi2 false).ok false h w
  | .xiShr h w => (xi2 false).ok false h w
  | .xiSar h w => (xi2 false).ok false h w
  | .xiRol h w => (xi2 false).ok false h w
  | .xiShf h w => (xi3 Ty.isWideInt false w.ty).ok false h w
  | .xiClz h w => (xi1 Ty.isInt).ok false h w
  | .xiCtz h w => (xi1 Ty.isInt).ok false h w
  | .xiPopc h w => (xi1 Ty.isInt).ok false h w
  | .xiBrev h w => (xi1 Ty.isInt).ok false h w
  | .xiBfx h w => xiWide.ok false h w
  | .xiBfi h w => (xi3 Ty.isWideInt false w.ty).ok false h w
  | .xiBperm h w => (xi3 (fun t => t ∈ [.i32, .z32]) false w.ty).ok false h w
  | .xiSel h w => okSel h w
  | .xiMov h w => okMov h w
  | .xiIset h w => okIset h w
  | .xiLea h w => okLea h w
  | .xfFadd h w => (xf2 true true).ok false h w
  | .xfFsub h w => (xf2 true true).ok false h w
  | .xfFmul h w => (xf2 true true).ok false h w
  | .xfFfma h w => okFfma h w
  | .xfFmin h w => (xf2 false false).ok false h w
  | .xfFmax h w => (xf2 false false).ok false h w
  | .xfFset h w => okFset h w
  | .xfFclass h w => okFclass h w
  | .xfFrnd h w => (xf1 Ty.isFloat true false).ok false h w
  | .xfFrcp h w => (xf1 isF3264 true true).ok false h w
  | .xfFrsq h w => (xf1 isF3264 false false).ok false h w
  | .xfFsqrt h w => (xf1 isF3264 true true).ok false h w
  | .xfFex2 h w => (xf1 isF32 false false).ok false h w
  | .xfFlg2 h w => (xf1 isF32 false false).ok false h w
  | .xfFsin h w => (xf1 isF32 false false).ok true h w
  | .xfFcos h w => (xf1 isF32 false false).ok true h w
  | .xfFtanh h w => (xf1 isF32 false false).ok true h w
  | .xqCvt h w => okCvt h w
  | .xqQntz h w => okQntz h w
  | .xqDqnt h w => okDqnt h w
  | .xqDot4 h w => okDot4 h w
  | .xqDot8 h w => okDot8 h w
  | .xlShfl h w => okShfl h w
  | .xlVote h w => okVote h w
  | .xlGred h w => okGred h w
  | .xlGscan h w => okGscan h w
  | .xlMatch h w => okMatch h w
  | .xcBra h w => okXcPlain h w
  | .xcBrc h w => okXcBrc h w
  | .xcCall h w => okXcPlain h w
  | .xmLd h w => okLd h w
  | .xmSt h w => okSt h w
  | .xmLdc h w => okLdc h w
  | .xmPrf h w => okPrf h w
  | .xmLdg h w => okLdg h w
  | .xmSct h w => okSct h w
  | .xmIcinv h w => okIcinv h w
  | .xsLds h w => okLds h w
  | .xsSts h w => okSts h w
  | .xsAtoms h w => okAtoms h w
  | .xaAtom h w => okAtom h w
  | .xoFence h w => okFence h w
  | .xoSeal h w => okSeal h w
  | .xoChkr h w => okChkr h w
  | .xyBari h w => okBari h w
  | .xyBara h w => okBara h w
  | .xyBarad h w => okBara h w
  | .xyBarw h w => okBarw h w
  | .xyBart h w => okBart h w
  | .xyBarx h w => okBarx h w
  | .xyGbara h w => okGbara h w
  | .xyGbard h w => okGbara h w
  | .xyGbarw h w => okGbarw h w
  | .xuQpsh h w => okQpsh h w
  | .xuQpop h w => okQpop h w
  | .xuQst h w => okQst h w
  | .xuPhsw h w => okPhsw h w
  | .xuQuiet h w => okQuiet h w
  | .xpCpy h w => okCpy h w
  | .xpCpyt h w => okCpyt h w
  | .xpCpyr h w => okCpyr h w
  | .xpCpym h w => okCpym h w
  | .xpTlwt h w => okTlwt h w
  | .xpTlrd h w => okTlrd h w
  | .xxMma h w => okMma h w
  | .xxTmma h w => okTmma h w
  | .xxTzro h w => okTzro h w
  | .xxTrd h w => okTrd h w
  | .xxTwr h w => okTwr h w
  | .xxTsto h w => okTsto h w
  | .xrRld h w => okRld h w
  | .xrRst h w => okRst h w
  | .xrRatm h w => okRatm h w
  | .xrRfnc h w => okRfnc h w
  | .xvDvt h w => okDvt h w
  | .xvColl h w => okDvt h w
  | .xvNodego h w => okNodego h w
  | .xzCsrr h w => okCsrr h w
  | .xzCsrw h w => okCsrw h w
  | .xzGett h w => okGett h w
  | .xzPmrd h w => okPmrd h w
  | .evIssueClock _ _ => true
  | .evRegangRelease _ _ => true
  | .evYieldHoldExpiry _ => true
  | .evSlotMigrationStart _ _ => true
  | .evSlotMigrationEnd _ => true
  | .evClassLResultWrite _ _ => true
  | .evTokenWaitRelease _ => true
  | .evTrapEntry _ => true
  | .evSliceRetire _ => true
  | .evTeamStart _ => true
  | .evTeamEnd _ => true
  | .evTableWalk _ _ _ _ => true
  | .evFaultRecordPost _ => true
  | .evRetryRetry _ _ _ => true
  | .evRetryFail _ _ _ => true
  | .evL1WriteBufferDrain _ => true
  | .evGatherSubpacket _ _ => true
  | .evGatherExpanderRead _ _ => true
  | .evScatterElement _ _ => true
  | .evL2Atomic _ => true
  | .evMsaAccess _ => true
  | .evSillWayToVault _ _ => true
  | .evSillWayToCache _ _ => true
  | .evSillWayConvertDone _ _ => true
  | .evMigratePageLock _ => true
  | .evMigratePageCopy _ => true
  | .evMigratePageSwitch _ => true
  | .evMigratePageShoot _ => true
  | .evMigratePageRelease _ => true
  | .evMigratePageDrainDone _ => true
  | .evMigratePageFree _ => true
  | .evMigrateHeldAccess _ _ => true
  | .evReleaseArrival _ => true
  | .evSquareSeal _ => true
  | .evPerformAck _ _ => true
  | .evScribeTransferCheck _ => true
  | .evScribeWindowClose _ _ => true
  | .evScribeRecordExchange _ _ => true
  | .evForcedPublish _ => true
  | .evSeqGapTimeout _ _ => true
  | .evFenceScComplete _ => true
  | .evSealComplete _ => true
  | .evChkrComplete _ => true
  | .evIcinvComplete _ => true
  | .evChkmodeWrite _ _ => true
  | .evOrdinjWrite _ _ => true
  | .evShootdownGo _ _ => true
  | .evShootdownDone _ => true
  | .evBarrierArrivalCount _ => true
  | .evBarrierWake _ => true
  | .evHalfdone _ _ _ => true
  | .evGroupTableLoad _ => true
  | .evGroupArrival _ => true
  | .evQueuePushArrival _ => true
  | .evQueuePopArrival _ => true
  | .evQueueStatArrival _ => true
  | .evSpillMove _ => true
  | .evQcrWrite _ _ _ => true
  | .evQuietReturn _ => true
  | .evRedirectedArrival _ => true
  | .evQueueSlotRead _ _ _ => true
  | .evPoolDispatch _ => true
  | .evEntryReady _ => true
  | .evLevelAging _ => true
  | .evPrefetchWaitEnd _ => true
  | .evNopPacket _ => true
  | .evKernelPacket _ => true
  | .evCopyPacket _ => true
  | .evScrubPacket _ => true
  | .evMigratePacket _ => true
  | .evGraphPacket _ => true
  | .evSignalPacket _ => true
  | .evWaitPacket _ => true
  | .evWaitSatisfied _ => true
  | .evWaitTimeout _ => true
  | .evDovetailPacket _ => true
  | .evCollectivePacket _ => true
  | .evNodeComplete _ _ => true
  | .evNodegoArrival _ => true
  | .evLaunchComplete _ => true
  | .evCopyChunkSend _ => true
  | .evCopyComplete _ => true
  | .evCopyAbandon _ => true
  | .evCopyReplay _ => true
  | .evScrubSector _ _ => true
  | .evTlwtReturn _ => true
  | .evFollowonEnter _ => true
  | .evTileRotation _ => true
  | .evTmmaSlabLoad _ => true
  | .evTmmaStream _ => true
  | .evTmmaWriteback _ => true
  | .evTmmaDone _ => true
  | .evTstoComplete _ => true
  | .evCtxEnWrite _ _ _ => true
  | .evCtxSave _ _ => true
  | .evCtxRestore _ _ => true
  | .evCtxKill _ _ => true
  | .evFqrdWrite _ _ _ => true
  | .evSaveDrainDone _ _ => true
  | .evForcedSave _ _ => true
  | .evSaveComplete _ _ => true
  | .evTeamKill _ _ => true
  | .evBandwidthChange _ _ => true
  | .evFabricEnWrite _ _ => true
  | .evRtload _ => true
  | .evFabricInvalidate _ _ _ => true
  | .evRdreq _ => true
  | .evWrreq _ => true
  | .evAtreq _ => true
  | .evFnreq _ => true
  | .evSkip _ => true
  | .evRdrsp _ => true
  | .evWrack _ => true
  | .evAtrsp _ => true
  | .evFnack _ => true
  | .evErrrsp _ => true
  | .evFlitReceive _ _ => true
  | .evNakReceive _ _ => true
  | .evNakRepeat _ => true
  | .evNakHoldExpiry _ => true
  | .evFlitFlush _ => true
  | .evNullFlit _ => true
  | .evLossOfLight _ _ _ => true
  | .evActmapReceive _ _ _ => true
  | .evWavelengthRecovery _ _ => true
  | .evPortDown _ _ => true
  | .evPortUp _ => true
  | .evRequestTableAdmit _ => true
  | .evRequestTimeout _ _ => true
  | .evResponseCacheExpiry _ _ _ _ => true
  | .evSendWindowHole _ _ => true
  | .evLimopSeqGapTimeout _ _ _ => true
  | .evTxenWrite _ _ => true
  | .evCollectivePost _ => true
  | .evCset _ => true
  | .evCdat _ => true
  | .evCctlDone _ => true
  | .evCctlAbort _ => true
  | .evCctlCommit _ => true
  | .evCctlNosw _ => true
  | .evCollectiveComplete _ => true
  | .evCollectiveTimeout _ => true
  | .evHeldMessageDiscard _ => true
  | .evPstepWrite _ => true
  | .evStepRelockDone _ => true
  | .evThermalTrip _ _ => true
  | .evHostReset => true
  | .evPowerOnReset => true
  | .evPartcfgWrite _ => true
  | .evPlanChangeDone => true
  | .evKeyGenerate _ => true
  | .evKeyImport _ => true
  | .evKeyDestroy _ => true
  | .evKeyClear _ => true
  | .evKeyDestroyDone => true
  | .evLockInterface _ _ _ => true
  | .evStopInterface _ _ => true
  | .evIdeIntegrityFailure _ _ => true
  | .evFunctionLevelReset _ _ => true
  | .evGlomelBoot _ => true
  | .evGlomelFailover => true
  | .evSpdmRequest => true
  | .evSecurityAlarm _ => true
  | .evGlpolWrite _ => true
  | .evSrpolWrite _ _ => true
  | .evSelfRefreshEntry _ => true
  | .evSelfRefreshExit _ => true
  | .evResyncGo _ => true
  | .evResyncDone => true
  | .evRegisterWrite _ _ => true
  | .evHostPortWrite _ => true
  | .evStartInterface _ _ => true

end Sys2Proof
end

