-- ==== Sys2Proof/Decode.lean ====
section
/-! DEFINITION. Instruction words to instructions and back (03 R70 to R87). Words are naturals below 2^32. -/

namespace Sys2Proof

/-- Bits lo+n−1:lo of a word. -/
def field (w lo n : Nat) : BitVec n := BitVec.ofNat n (w / 2 ^ lo)

/-- One bit of a word. -/
def bit (w i : Nat) : Bool := w / 2 ^ i % 2 == 1

def bitVal (b : Bool) : Nat := if b then 1 else 0

/-- Why words are not an instruction; each raises ILL (R97). -/
inductive DecodeError where
  /-- Fewer words than LEN names. -/
  | truncated
  /-- The first word is 0 (R72). -/
  | zeroWord
  /-- LEN and MAJ do not match (R70), or MAJ is reserved (R76, R83). -/
  | reservedMajor
  /-- A function, condition or minor code that the tables leave empty (R76, R77, R83). -/
  | unlistedFunction
  /-- A field that its entry forbids (R97): Instr.wellFormed names the checks. -/
  | illFormed
  deriving DecidableEq, Repr

/-- An instruction by its format: MAJ where several classes share the format, the function code, the fields. -/
inductive Form where
  | b3 (maj fn : Nat) (o : B3)
  | bi (maj fn : Nat) (o : BI)
  | bj (cnd : Nat) (o : BJ)
  | bs (fn : Nat) (o : BS)
  | arith (maj mn : Nat) (h : Head) (w : Arith)
  | cross (mn : Nat) (h : Head) (w : Cross)
  | branch (mn : Nat) (h : Head) (w : Branch)
  | mem (maj mn : Nat) (h : Head) (w : Mem)
  | remote (mn : Nat) (h : Head) (w : Remote)
  | command (maj mn : Nat) (h : Head) (w : Command)
  deriving DecidableEq, Repr

/-! ## Codes of R87 -/

def Rnd.ofCode (n : Nat) : Rnd := match n with | 0 => .rn | 1 => .rz | 2 => .ru | _ => .rd
def Rnd.code : Rnd → Nat | .rn => 0 | .rz => 1 | .ru => 2 | .rd => 3
def Scope.ofCode (n : Nat) : Scope := match n with | 0 => .team | 1 => .die | 2 => .dev | _ => .sys
def Scope.code : Scope → Nat | .team => 0 | .die => 1 | .dev => 2 | .sys => 3
def Ord.ofCode (n : Nat) : Ord := match n with | 0 => .rlx | 1 => .acq | 2 => .rel | _ => .acqrel
def Ord.code : Ord → Nat | .rlx => 0 | .acq => 1 | .rel => 2 | .acqrel => 3

def tyAt (w lo : Nat) : Ty := Ty.ofCode (field w lo 4)
def rndAt (w lo : Nat) : Rnd := Rnd.ofCode (w / 2 ^ lo % 4)
def scopeAt (w lo : Nat) : Scope := Scope.ofCode (w / 2 ^ lo % 4)
def ordAt (w lo : Nat) : Ord := Ord.ofCode (w / 2 ^ lo % 4)

/-! ## The class tables -/

/-- BVI (R76). -/
def instrBvi (fn : Nat) (o : B3) : Option Instr :=
  match fn with
  | 0 => some (.bviAdd o)
  | 1 => some (.bviSub o)
  | 2 => some (.bviMul o)
  | 3 => some (.bviMin o)
  | 4 => some (.bviMax o)
  | 5 => some (.bviAnd o)
  | 6 => some (.bviOr o)
  | 7 => some (.bviXor o)
  | 8 => some (.bviAndn o)
  | 9 => some (.bviShl o)
  | 10 => some (.bviShr o)
  | 11 => some (.bviSar o)
  | 12 => some (.bviMov o)
  | _ => none

/-- BVF (R76). -/
def instrBvf (fn : Nat) (o : B3) : Option Instr :=
  match fn with
  | 0 => some (.bvfFadd o)
  | 1 => some (.bvfFsub o)
  | 2 => some (.bvfFmul o)
  | 3 => some (.bvfFmin o)
  | 4 => some (.bvfFmax o)
  | 5 => some (.bvfFfma o)
  | 6 => some (.bvfFrcp o)
  | 7 => some (.bvfFrsq o)
  | 8 => some (.bvfFsqrt o)
  | 9 => some (.bvfFex2 o)
  | 10 => some (.bvfFlg2 o)
  | _ => none

/-- BVH (R76). -/
def instrBvh (fn : Nat) (o : B3) : Option Instr :=
  match fn with
  | 0 => some (.bvhFaddF16x2 o)
  | 1 => some (.bvhFsubF16x2 o)
  | 2 => some (.bvhFmulF16x2 o)
  | 3 => some (.bvhFminF16x2 o)
  | 4 => some (.bvhFmaxF16x2 o)
  | 5 => some (.bvhFfmaF16x2 o)
  | 16 => some (.bvhFaddBf16x2 o)
  | 17 => some (.bvhFsubBf16x2 o)
  | 18 => some (.bvhFmulBf16x2 o)
  | 19 => some (.bvhFminBf16x2 o)
  | 20 => some (.bvhFmaxBf16x2 o)
  | 21 => some (.bvhFfmaBf16x2 o)
  | _ => none

/-- BSI (R76). -/
def instrBsi (fn : Nat) (o : B3) : Option Instr :=
  match fn with
  | 0 => some (.bsiAdd o)
  | 1 => some (.bsiSub o)
  | 2 => some (.bsiMul o)
  | 3 => some (.bsiMin o)
  | 4 => some (.bsiMax o)
  | 5 => some (.bsiAnd o)
  | 6 => some (.bsiOr o)
  | 7 => some (.bsiXor o)
  | 8 => some (.bsiAndn o)
  | 9 => some (.bsiShl o)
  | 10 => some (.bsiShr o)
  | 11 => some (.bsiSar o)
  | 12 => some (.bsiMov o)
  | _ => none

/-- BVII (R76). -/
def instrBvii (fn : Nat) (o : BI) : Option Instr :=
  match fn with
  | 0 => some (.bviiAdd o)
  | 1 => some (.bviiAnd o)
  | 2 => some (.bviiOr o)
  | 3 => some (.bviiXor o)
  | 4 => some (.bviiShl o)
  | 5 => some (.bviiShr o)
  | 6 => some (.bviiSar o)
  | 7 => some (.bviiMov o)
  | _ => none

/-- BSII (R76). -/
def instrBsii (fn : Nat) (o : BI) : Option Instr :=
  match fn with
  | 0 => some (.bsiiAdd o)
  | 1 => some (.bsiiAnd o)
  | 2 => some (.bsiiOr o)
  | 3 => some (.bsiiXor o)
  | 4 => some (.bsiiShl o)
  | 5 => some (.bsiiShr o)
  | 6 => some (.bsiiSar o)
  | 7 => some (.bsiiMov o)
  | _ => none

/-- BVC (R76). -/
def instrBvc (fn : Nat) (o : B3) : Option Instr :=
  match fn with
  | 0 => some (.bvcIsetEq o)
  | 1 => some (.bvcIsetNe o)
  | 2 => some (.bvcIsetLt o)
  | 3 => some (.bvcIsetLe o)
  | 4 => some (.bvcIsetGt o)
  | 5 => some (.bvcIsetGe o)
  | 8 => some (.bvcIsetEqZ32 o)
  | 9 => some (.bvcIsetNeZ32 o)
  | 10 => some (.bvcIsetLtZ32 o)
  | 11 => some (.bvcIsetLeZ32 o)
  | 12 => some (.bvcIsetGtZ32 o)
  | 13 => some (.bvcIsetGeZ32 o)
  | 16 => some (.bvcFsetEq o)
  | 17 => some (.bvcFsetNe o)
  | 18 => some (.bvcFsetLt o)
  | 19 => some (.bvcFsetLe o)
  | 20 => some (.bvcFsetGt o)
  | 21 => some (.bvcFsetGe o)
  | 22 => some (.bvcFsetUnord o)
  | _ => none

/-- BSC (R76). -/
def instrBsc (fn : Nat) (o : B3) : Option Instr :=
  match fn with
  | 0 => some (.bscIsetEq o)
  | 1 => some (.bscIsetNe o)
  | 2 => some (.bscIsetLt o)
  | 3 => some (.bscIsetLe o)
  | 4 => some (.bscIsetGt o)
  | 5 => some (.bscIsetGe o)
  | 8 => some (.bscIsetEqZ32 o)
  | 9 => some (.bscIsetNeZ32 o)
  | 10 => some (.bscIsetLtZ32 o)
  | 11 => some (.bscIsetLeZ32 o)
  | 12 => some (.bscIsetGtZ32 o)
  | 13 => some (.bscIsetGeZ32 o)
  | _ => none

/-- BBR (R77). -/
def instrBbr (fn : Nat) (o : BJ) : Option Instr :=
  match fn with
  | 0 => some (.bbrBra o)
  | 1 => some (.bbrBrcNz o)
  | 2 => some (.bbrBrcZ o)
  | 3 => some (.bbrBrcAny o)
  | 4 => some (.bbrBrcAll o)
  | 5 => some (.bbrBrcNone o)
  | 6 => some (.bbrBrez o)
  | 7 => some (.bbrLoop o)
  | 8 => some (.bbrCall o)
  | _ => none

/-- BCT (R77). -/
def instrBct (fn : Nat) (o : BS) : Option Instr :=
  match fn with
  | 0 => some (.bctNop o)
  | 1 => some (.bctExit o)
  | 2 => some (.bctRet o)
  | 3 => some (.bctJmpr o)
  | 4 => some (.bctCallr o)
  | 5 => some (.bctYield o)
  | 6 => some (.bctRegang o)
  | 7 => some (.bctExsave o)
  | 8 => some (.bctExelse o)
  | 9 => some (.bctExrest o)
  | 10 => some (.bctExset o)
  | 11 => some (.bctExget o)
  | 12 => some (.bctGmask o)
  | 13 => some (.bctGwidth o)
  | 14 => some (.bctSrd o)
  | 15 => some (.bctWaitk o)
  | 16 => some (.bctTrap o)
  | 17 => some (.bctRft o)
  | 18 => some (.bctBrkpt o)
  | _ => none

/-- XI (R83). -/
def instrXi (fn : Nat) (h : Head) (w : Arith) : Option Instr :=
  match fn with
  | 0 => some (.xiAdd h w)
  | 1 => some (.xiSub h w)
  | 2 => some (.xiAddc h w)
  | 3 => some (.xiSubb h w)
  | 4 => some (.xiMul h w)
  | 5 => some (.xiMulh h w)
  | 6 => some (.xiMad h w)
  | 7 => some (.xiMin h w)
  | 8 => some (.xiMax h w)
  | 9 => some (.xiAbs h w)
  | 10 => some (.xiNeg h w)
  | 11 => some (.xiAnd h w)
  | 12 => some (.xiOr h w)
  | 13 => some (.xiXor h w)
  | 14 => some (.xiAndn h w)
  | 15 => some (.xiOrn h w)
  | 16 => some (.xiNot h w)
  | 17 => some (.xiShl h w)
  | 18 => some (.xiShr h w)
  | 19 => some (.xiSar h w)
  | 20 => some (.xiRol h w)
  | 21 => some (.xiShf h w)
  | 22 => some (.xiClz h w)
  | 23 => some (.xiCtz h w)
  | 24 => some (.xiPopc h w)
  | 25 => some (.xiBrev h w)
  | 26 => some (.xiBfx h w)
  | 27 => some (.xiBfi h w)
  | 28 => some (.xiBperm h w)
  | 29 => some (.xiSel h w)
  | 30 => some (.xiMov h w)
  | 31 => some (.xiIset h w)
  | 32 => some (.xiLea h w)
  | _ => none

/-- XF (R83). -/
def instrXf (fn : Nat) (h : Head) (w : Arith) : Option Instr :=
  match fn with
  | 0 => some (.xfFadd h w)
  | 1 => some (.xfFsub h w)
  | 2 => some (.xfFmul h w)
  | 3 => some (.xfFfma h w)
  | 4 => some (.xfFmin h w)
  | 5 => some (.xfFmax h w)
  | 6 => some (.xfFset h w)
  | 7 => some (.xfFclass h w)
  | 8 => some (.xfFrnd h w)
  | 9 => some (.xfFrcp h w)
  | 10 => some (.xfFrsq h w)
  | 11 => some (.xfFsqrt h w)
  | 12 => some (.xfFex2 h w)
  | 13 => some (.xfFlg2 h w)
  | 14 => some (.xfFsin h w)
  | 15 => some (.xfFcos h w)
  | 16 => some (.xfFtanh h w)
  | _ => none

/-- XQ (R83). -/
def instrXq (fn : Nat) (h : Head) (w : Arith) : Option Instr :=
  match fn with
  | 0 => some (.xqCvt h w)
  | 1 => some (.xqQntz h w)
  | 2 => some (.xqDqnt h w)
  | 3 => some (.xqDot4 h w)
  | 4 => some (.xqDot8 h w)
  | _ => none

/-- XL (R83). -/
def instrXl (fn : Nat) (h : Head) (w : Cross) : Option Instr :=
  match fn with
  | 0 => some (.xlShfl h w)
  | 1 => some (.xlVote h w)
  | 2 => some (.xlGred h w)
  | 3 => some (.xlGscan h w)
  | 4 => some (.xlMatch h w)
  | _ => none

/-- XC (R83). -/
def instrXc (fn : Nat) (h : Head) (w : Branch) : Option Instr :=
  match fn with
  | 0 => some (.xcBra h w)
  | 1 => some (.xcBrc h w)
  | 2 => some (.xcCall h w)
  | _ => none

/-- XM (R83). -/
def instrXm (fn : Nat) (h : Head) (w : Mem) : Option Instr :=
  match fn with
  | 0 => some (.xmLd h w)
  | 1 => some (.xmSt h w)
  | 2 => some (.xmLdc h w)
  | 3 => some (.xmPrf h w)
  | 4 => some (.xmLdg h w)
  | 5 => some (.xmSct h w)
  | 6 => some (.xmIcinv h w)
  | _ => none

/-- XS (R83). -/
def instrXs (fn : Nat) (h : Head) (w : Mem) : Option Instr :=
  match fn with
  | 0 => some (.xsLds h w)
  | 1 => some (.xsSts h w)
  | 2 => some (.xsAtoms h w)
  | _ => none

/-- XA (R83). -/
def instrXa (fn : Nat) (h : Head) (w : Mem) : Option Instr :=
  match fn with
  | 0 => some (.xaAtom h w)
  | _ => none

/-- XO (R83). -/
def instrXo (fn : Nat) (h : Head) (w : Mem) : Option Instr :=
  match fn with
  | 0 => some (.xoFence h w)
  | 1 => some (.xoSeal h w)
  | 2 => some (.xoChkr h w)
  | _ => none

/-- XY (R83). -/
def instrXy (fn : Nat) (h : Head) (w : Mem) : Option Instr :=
  match fn with
  | 0 => some (.xyBari h w)
  | 1 => some (.xyBara h w)
  | 2 => some (.xyBarad h w)
  | 3 => some (.xyBarw h w)
  | 4 => some (.xyBart h w)
  | 5 => some (.xyBarx h w)
  | 6 => some (.xyGbara h w)
  | 7 => some (.xyGbard h w)
  | 8 => some (.xyGbarw h w)
  | _ => none

/-- XU (R83). -/
def instrXu (fn : Nat) (h : Head) (w : Mem) : Option Instr :=
  match fn with
  | 0 => some (.xuQpsh h w)
  | 1 => some (.xuQpop h w)
  | 2 => some (.xuQst h w)
  | 3 => some (.xuPhsw h w)
  | 4 => some (.xuQuiet h w)
  | _ => none

/-- XP (R83). -/
def instrXp (fn : Nat) (h : Head) (w : Mem) : Option Instr :=
  match fn with
  | 0 => some (.xpCpy h w)
  | 1 => some (.xpCpyt h w)
  | 2 => some (.xpCpyr h w)
  | 3 => some (.xpCpym h w)
  | 4 => some (.xpTlwt h w)
  | 5 => some (.xpTlrd h w)
  | _ => none

/-- XX (R83). -/
def instrXx (fn : Nat) (h : Head) (w : Command) : Option Instr :=
  match fn with
  | 0 => some (.xxMma h w)
  | 1 => some (.xxTmma h w)
  | 2 => some (.xxTzro h w)
  | 3 => some (.xxTrd h w)
  | 4 => some (.xxTwr h w)
  | 5 => some (.xxTsto h w)
  | _ => none

/-- XR (R83). -/
def instrXr (fn : Nat) (h : Head) (w : Remote) : Option Instr :=
  match fn with
  | 0 => some (.xrRld h w)
  | 1 => some (.xrRst h w)
  | 2 => some (.xrRatm h w)
  | 3 => some (.xrRfnc h w)
  | _ => none

/-- XV (R83). -/
def instrXv (fn : Nat) (h : Head) (w : Command) : Option Instr :=
  match fn with
  | 0 => some (.xvDvt h w)
  | 1 => some (.xvColl h w)
  | 2 => some (.xvNodego h w)
  | _ => none

/-- XZ (R83). -/
def instrXz (fn : Nat) (h : Head) (w : Command) : Option Instr :=
  match fn with
  | 0 => some (.xzCsrr h w)
  | 1 => some (.xzCsrw h w)
  | 2 => some (.xzGett h w)
  | 3 => some (.xzPmrd h w)
  | _ => none

/-- The instruction of a format, by the class and function codes of R76, R77 and R83. -/
def Form.instr? : Form → Option Instr
  | .b3 0 fn o => instrBvi fn o
  | .b3 1 fn o => instrBvf fn o
  | .b3 2 fn o => instrBvh fn o
  | .b3 3 fn o => instrBsi fn o
  | .b3 6 fn o => instrBvc fn o
  | .b3 7 fn o => instrBsc fn o
  | .bi 4 fn o => instrBvii fn o
  | .bi 5 fn o => instrBsii fn o
  | .bj fn o => instrBbr fn o
  | .bs fn o => instrBct fn o
  | .arith 32 fn h w => instrXi fn h w
  | .arith 33 fn h w => instrXf fn h w
  | .arith 34 fn h w => instrXq fn h w
  | .cross fn h w => instrXl fn h w
  | .branch fn h w => instrXc fn h w
  | .mem 37 fn h w => instrXm fn h w
  | .mem 38 fn h w => instrXs fn h w
  | .mem 39 fn h w => instrXa fn h w
  | .mem 40 fn h w => instrXo fn h w
  | .mem 41 fn h w => instrXy fn h w
  | .mem 42 fn h w => instrXu fn h w
  | .mem 43 fn h w => instrXp fn h w
  | .remote fn h w => instrXr fn h w
  | .command 44 fn h w => instrXx fn h w
  | .command 46 fn h w => instrXv fn h w
  | .command 47 fn h w => instrXz fn h w
  | _ => none

/-! ## Fields -/

/-- B3 (R73). -/
def readB3 (w : Nat) (lit : Option Quad) : B3 :=
  { d := field w 13 6, a := field w 7 6, b := field w 1 6, bk := bit w 0, lit := lit }

def readBI (w : Nat) (lit : Option Quad) : BI :=
  { d := field w 15 6, a := field w 9 6, imm := field w 0 9, lit := lit }

def readBJ (w : Nat) (lit : Option Quad) : BJ := { s := field w 14 6, off := field w 0 14, lit := lit }

def readBS (w : Nat) (lit : Option Quad) : BS :=
  { d := field w 18 6, a := field w 12 6, b := field w 6 6, lit := lit }

/-- Words 0 and 1 of an extended instruction (R78). -/
def readHead (w0 w1 : Nat) (lit : Option Quad) : Head :=
  { d := field w0 8 8, a := field w0 0 8, b := field w1 24 8, c := field w1 16 8,
    la := field w1 12 4, gp := field w1 9 3, gn := bit w1 8, wk := field w1 0 8, lit := lit }

def readArith (w : Nat) : Arith :=
  { ty := tyAt w 28, rnd := rndAt w 26, sat := bit w 25, ftz := bit w 24, ka := bit w 23, kb := bit w 22,
    kc := bit w 21, bi := bit w 20, imm := field w 0 20 }

def readCross (w : Nat) : Cross :=
  { ty := tyAt w 28, rnd := rndAt w 26, ls := field w 24 2, sub := field w 20 4, fl := bit w 19, bi := bit w 18,
    ps := field w 15 3, imm := field w 0 15 }

def readBranch (w : Nat) : Branch := { off := field w 8 24, cnd := field w 4 4, rsv := field w 0 4 }

def readMem (w0 w : Nat) : Mem :=
  { min4 := field w0 20 4, off := field w 8 24, scope := scopeAt w 6, ord := ordAt w 4, ty := tyAt w 0 }

def readRemote (w0 w : Nat) : Remote :=
  { min4 := field w0 20 4, se := bit w 31, sp := field w 28 3, off := field w 8 20, scope := scopeAt w 6,
    ord := ordAt w 4, ty := tyAt w 0 }

def readCommand (w : Nat) : Command :=
  { ta := tyAt w 28, tb := tyAt w 24, tc := tyAt w 20, flg := field w 16 4, imm := field w 0 16 }

/-- A base instruction by its class (R76). -/
def readBase (w : Nat) (lit : Option Quad) : Except DecodeError Form :=
  match w / 2 ^ 24 % 64 with
  | 0 | 1 | 2 | 3 | 6 | 7 => .ok (.b3 (w / 2 ^ 24 % 64) (w / 2 ^ 19 % 32) (readB3 w lit))
  | 4 | 5 => .ok (.bi (w / 2 ^ 24 % 64) (w / 2 ^ 21 % 8) (readBI w lit))
  | 8 => .ok (.bj (w / 2 ^ 20 % 16) (readBJ w lit))
  | 9 => .ok (.bs (w % 64) (readBS w lit))
  | _ => .error .reservedMajor

/-- An extended instruction by its class (R79, R83). -/
def readExt (w0 w1 w2 : Nat) (lit : Option Quad) : Except DecodeError Form :=
  match w0 / 2 ^ 24 % 64 with
  | 32 | 33 | 34 => .ok (.arith (w0 / 2 ^ 24 % 64) (w0 / 2 ^ 16 % 256) (readHead w0 w1 lit) (readArith w2))
  | 35 => .ok (.cross (w0 / 2 ^ 16 % 256) (readHead w0 w1 lit) (readCross w2))
  | 36 => .ok (.branch (w0 / 2 ^ 16 % 256) (readHead w0 w1 lit) (readBranch w2))
  | 37 | 38 | 39 | 40 | 41 | 42 | 43 =>
    .ok (.mem (w0 / 2 ^ 24 % 64) (w0 / 2 ^ 16 % 16) (readHead w0 w1 lit) (readMem w0 w2))
  | 45 => .ok (.remote (w0 / 2 ^ 16 % 16) (readHead w0 w1 lit) (readRemote w0 w2))
  | 44 | 46 | 47 => .ok (.command (w0 / 2 ^ 24 % 64) (w0 / 2 ^ 16 % 256) (readHead w0 w1 lit) (readCommand w2))
  | _ => .error .reservedMajor

/-- The literal, low word first (R70). -/
def literalOf (lo hi : Nat) : Quad := BitVec.ofNat 64 (lo % 2 ^ 32 + hi * 2 ^ 32)

/-- How many words the instruction has whose first word is `w` (R70). -/
def wordCount (w : Nat) : Nat :=
  match w / 2 ^ 30 % 4 with
  | 0 => 1
  | 1 => 3
  | 2 => 3
  | _ => 5

/-- The words of one instruction, read by LEN (R70). -/
def readForm (ws : List Nat) : Except DecodeError Form :=
  match ws with
  | [] => .error .truncated
  | w0 :: rest =>
    if w0 = 0 then .error .zeroWord else
    match w0 / 2 ^ 30 % 4, rest with
    | 0, _ => readBase w0 none
    | 1, w1 :: w2 :: _ => readExt w0 w1 w2 none
    | 2, lo :: hi :: _ => readBase w0 (some (literalOf lo hi))
    | 3, w1 :: w2 :: lo :: hi :: _ => readExt w0 w1 w2 (some (literalOf lo hi))
    | _, _ => .error .truncated

/-- The instruction that starts a list of words, or why there is none (R97). -/
def decodeWords (ws : List Nat) : Except DecodeError Instr :=
  match readForm ws with
  | .error e => .error e
  | .ok f =>
    match f.instr? with
    | none => .error .unlistedFunction
    | some i => if i.wellFormed then .ok i else .error .illFormed

/-- Four bytes of memory, lowest address first, as a word (00 R3). -/
def wordOfBytes (b0 b1 b2 b3 : Byte) : Nat :=
  b0.toNat + b1.toNat * 2 ^ 8 + b2.toNat * 2 ^ 16 + b3.toNat * 2 ^ 24

/-- The whole words of a list of bytes. -/
def wordsOfBytes : List Byte → List Nat
  | b0 :: b1 :: b2 :: b3 :: rest => wordOfBytes b0 b1 b2 b3 :: wordsOfBytes rest
  | _ => []

/-- The instruction that starts a list of bytes, and its length in bytes. -/
def decode (bs : List Byte) : Except DecodeError (Instr × Nat) :=
  match decodeWords (wordsOfBytes bs) with
  | .error e => .error e
  | .ok i => .ok (i, 4 * wordCount ((wordsOfBytes bs).headD 0))

/-! ## The encoder -/

/-- The low and high word of the literal. -/
def litWords : Option Quad → List Nat
  | none => []
  | some l => [l.toNat % 2 ^ 32, l.toNat / 2 ^ 32]

/-- LEN of a form with the literal or without (R70). -/
def lenBits (short : Nat) : Option Quad → Nat
  | none => short * 2 ^ 30
  | some _ => (short + 2) * 2 ^ 30

def headWord0 (maj mn : Nat) (h : Head) : Nat :=
  lenBits 1 h.lit + maj * 2 ^ 24 + mn * 2 ^ 16 + h.d.toNat * 2 ^ 8 + h.a.toNat

def headWord1 (h : Head) : Nat :=
  h.b.toNat * 2 ^ 24 + h.c.toNat * 2 ^ 16 + h.la.toNat * 2 ^ 12 + h.gp.toNat * 2 ^ 9 + bitVal h.gn * 2 ^ 8 + h.wk.toNat

def Arith.word (w : Arith) : Nat :=
  w.ty.code.toNat * 2 ^ 28 + w.rnd.code * 2 ^ 26 + bitVal w.sat * 2 ^ 25 + bitVal w.ftz * 2 ^ 24 + bitVal w.ka * 2 ^ 23
    + bitVal w.kb * 2 ^ 22 + bitVal w.kc * 2 ^ 21 + bitVal w.bi * 2 ^ 20 + w.imm.toNat

def Cross.word (w : Cross) : Nat :=
  w.ty.code.toNat * 2 ^ 28 + w.rnd.code * 2 ^ 26 + w.ls.toNat * 2 ^ 24 + w.sub.toNat * 2 ^ 20 + bitVal w.fl * 2 ^ 19
    + bitVal w.bi * 2 ^ 18 + w.ps.toNat * 2 ^ 15 + w.imm.toNat

def Branch.word (w : Branch) : Nat := w.off.toNat * 2 ^ 8 + w.cnd.toNat * 2 ^ 4 + w.rsv.toNat

def Mem.word (w : Mem) : Nat :=
  w.off.toNat * 2 ^ 8 + w.scope.code * 2 ^ 6 + w.ord.code * 2 ^ 4 + w.ty.code.toNat

def Remote.word (w : Remote) : Nat :=
  bitVal w.se * 2 ^ 31 + w.sp.toNat * 2 ^ 28 + w.off.toNat * 2 ^ 8 + w.scope.code * 2 ^ 6 + w.ord.code * 2 ^ 4
    + w.ty.code.toNat

def Command.word (w : Command) : Nat :=
  w.ta.code.toNat * 2 ^ 28 + w.tb.code.toNat * 2 ^ 24 + w.tc.code.toNat * 2 ^ 20 + w.flg.toNat * 2 ^ 16 + w.imm.toNat

/-- The words of a format, first word first (R73, R78, R79). -/
def Form.words : Form → List Nat
  | .b3 maj fn o =>
    (lenBits 0 o.lit + maj * 2 ^ 24 + fn * 2 ^ 19 + o.d.toNat * 2 ^ 13 + o.a.toNat * 2 ^ 7 + o.b.toNat * 2 + bitVal o.bk)
      :: litWords o.lit
  | .bi maj fn o =>
    (lenBits 0 o.lit + maj * 2 ^ 24 + fn * 2 ^ 21 + o.d.toNat * 2 ^ 15 + o.a.toNat * 2 ^ 9 + o.imm.toNat) :: litWords o.lit
  | .bj cnd o => (lenBits 0 o.lit + 8 * 2 ^ 24 + cnd * 2 ^ 20 + o.s.toNat * 2 ^ 14 + o.off.toNat) :: litWords o.lit
  | .bs fn o =>
    (lenBits 0 o.lit + 9 * 2 ^ 24 + o.d.toNat * 2 ^ 18 + o.a.toNat * 2 ^ 12 + o.b.toNat * 2 ^ 6 + fn) :: litWords o.lit
  | .arith maj mn h w => headWord0 maj mn h :: headWord1 h :: w.word :: litWords h.lit
  | .cross mn h w => headWord0 35 mn h :: headWord1 h :: w.word :: litWords h.lit
  | .branch mn h w => headWord0 36 mn h :: headWord1 h :: w.word :: litWords h.lit
  | .mem maj mn h w => headWord0 maj (w.min4.toNat * 16 + mn) h :: headWord1 h :: w.word :: litWords h.lit
  | .remote mn h w => headWord0 45 (w.min4.toNat * 16 + mn) h :: headWord1 h :: w.word :: litWords h.lit
  | .command maj mn h w => headWord0 maj mn h :: headWord1 h :: w.word :: litWords h.lit

/-- The format of an instruction; a step of an engine has none. -/
def Instr.form : Instr → Option Form
  | .bviAdd o => some (.b3 0 0 o)
  | .bviSub o => some (.b3 0 1 o)
  | .bviMul o => some (.b3 0 2 o)
  | .bviMin o => some (.b3 0 3 o)
  | .bviMax o => some (.b3 0 4 o)
  | .bviAnd o => some (.b3 0 5 o)
  | .bviOr o => some (.b3 0 6 o)
  | .bviXor o => some (.b3 0 7 o)
  | .bviAndn o => some (.b3 0 8 o)
  | .bviShl o => some (.b3 0 9 o)
  | .bviShr o => some (.b3 0 10 o)
  | .bviSar o => some (.b3 0 11 o)
  | .bviMov o => some (.b3 0 12 o)
  | .bsiAdd o => some (.b3 3 0 o)
  | .bsiSub o => some (.b3 3 1 o)
  | .bsiMul o => some (.b3 3 2 o)
  | .bsiMin o => some (.b3 3 3 o)
  | .bsiMax o => some (.b3 3 4 o)
  | .bsiAnd o => some (.b3 3 5 o)
  | .bsiOr o => some (.b3 3 6 o)
  | .bsiXor o => some (.b3 3 7 o)
  | .bsiAndn o => some (.b3 3 8 o)
  | .bsiShl o => some (.b3 3 9 o)
  | .bsiShr o => some (.b3 3 10 o)
  | .bsiSar o => some (.b3 3 11 o)
  | .bsiMov o => some (.b3 3 12 o)
  | .bvfFadd o => some (.b3 1 0 o)
  | .bvfFsub o => some (.b3 1 1 o)
  | .bvfFmul o => some (.b3 1 2 o)
  | .bvfFmin o => some (.b3 1 3 o)
  | .bvfFmax o => some (.b3 1 4 o)
  | .bvfFfma o => some (.b3 1 5 o)
  | .bvfFrcp o => some (.b3 1 6 o)
  | .bvfFrsq o => some (.b3 1 7 o)
  | .bvfFsqrt o => some (.b3 1 8 o)
  | .bvfFex2 o => some (.b3 1 9 o)
  | .bvfFlg2 o => some (.b3 1 10 o)
  | .bvhFaddF16x2 o => some (.b3 2 0 o)
  | .bvhFsubF16x2 o => some (.b3 2 1 o)
  | .bvhFmulF16x2 o => some (.b3 2 2 o)
  | .bvhFminF16x2 o => some (.b3 2 3 o)
  | .bvhFmaxF16x2 o => some (.b3 2 4 o)
  | .bvhFfmaF16x2 o => some (.b3 2 5 o)
  | .bvhFaddBf16x2 o => some (.b3 2 16 o)
  | .bvhFsubBf16x2 o => some (.b3 2 17 o)
  | .bvhFmulBf16x2 o => some (.b3 2 18 o)
  | .bvhFminBf16x2 o => some (.b3 2 19 o)
  | .bvhFmaxBf16x2 o => some (.b3 2 20 o)
  | .bvhFfmaBf16x2 o => some (.b3 2 21 o)
  | .bviiAdd o => some (.bi 4 0 o)
  | .bviiAnd o => some (.bi 4 1 o)
  | .bviiOr o => some (.bi 4 2 o)
  | .bviiXor o => some (.bi 4 3 o)
  | .bviiShl o => some (.bi 4 4 o)
  | .bviiShr o => some (.bi 4 5 o)
  | .bviiSar o => some (.bi 4 6 o)
  | .bviiMov o => some (.bi 4 7 o)
  | .bsiiAdd o => some (.bi 5 0 o)
  | .bsiiAnd o => some (.bi 5 1 o)
  | .bsiiOr o => some (.bi 5 2 o)
  | .bsiiXor o => some (.bi 5 3 o)
  | .bsiiShl o => some (.bi 5 4 o)
  | .bsiiShr o => some (.bi 5 5 o)
  | .bsiiSar o => some (.bi 5 6 o)
  | .bsiiMov o => some (.bi 5 7 o)
  | .bvcIsetEq o => some (.b3 6 0 o)
  | .bvcIsetNe o => some (.b3 6 1 o)
  | .bvcIsetLt o => some (.b3 6 2 o)
  | .bvcIsetLe o => some (.b3 6 3 o)
  | .bvcIsetGt o => some (.b3 6 4 o)
  | .bvcIsetGe o => some (.b3 6 5 o)
  | .bvcIsetEqZ32 o => some (.b3 6 8 o)
  | .bvcIsetNeZ32 o => some (.b3 6 9 o)
  | .bvcIsetLtZ32 o => some (.b3 6 10 o)
  | .bvcIsetLeZ32 o => some (.b3 6 11 o)
  | .bvcIsetGtZ32 o => some (.b3 6 12 o)
  | .bvcIsetGeZ32 o => some (.b3 6 13 o)
  | .bvcFsetEq o => some (.b3 6 16 o)
  | .bvcFsetNe o => some (.b3 6 17 o)
  | .bvcFsetLt o => some (.b3 6 18 o)
  | .bvcFsetLe o => some (.b3 6 19 o)
  | .bvcFsetGt o => some (.b3 6 20 o)
  | .bvcFsetGe o => some (.b3 6 21 o)
  | .bvcFsetUnord o => some (.b3 6 22 o)
  | .bscIsetEq o => some (.b3 7 0 o)
  | .bscIsetNe o => some (.b3 7 1 o)
  | .bscIsetLt o => some (.b3 7 2 o)
  | .bscIsetLe o => some (.b3 7 3 o)
  | .bscIsetGt o => some (.b3 7 4 o)
  | .bscIsetGe o => some (.b3 7 5 o)
  | .bscIsetEqZ32 o => some (.b3 7 8 o)
  | .bscIsetNeZ32 o => some (.b3 7 9 o)
  | .bscIsetLtZ32 o => some (.b3 7 10 o)
  | .bscIsetLeZ32 o => some (.b3 7 11 o)
  | .bscIsetGtZ32 o => some (.b3 7 12 o)
  | .bscIsetGeZ32 o => some (.b3 7 13 o)
  | .bbrBra o => some (.bj 0 o)
  | .bbrBrcNz o => some (.bj 1 o)
  | .bbrBrcZ o => some (.bj 2 o)
  | .bbrBrcAny o => some (.bj 3 o)
  | .bbrBrcAll o => some (.bj 4 o)
  | .bbrBrcNone o => some (.bj 5 o)
  | .bbrBrez o => some (.bj 6 o)
  | .bbrLoop o => some (.bj 7 o)
  | .bbrCall o => some (.bj 8 o)
  | .bctNop o => some (.bs 0 o)
  | .bctExit o => some (.bs 1 o)
  | .bctRet o => some (.bs 2 o)
  | .bctJmpr o => some (.bs 3 o)
  | .bctCallr o => some (.bs 4 o)
  | .bctYield o => some (.bs 5 o)
  | .bctRegang o => some (.bs 6 o)
  | .bctExsave o => some (.bs 7 o)
  | .bctExelse o => some (.bs 8 o)
  | .bctExrest o => some (.bs 9 o)
  | .bctExset o => some (.bs 10 o)
  | .bctExget o => some (.bs 11 o)
  | .bctGmask o => some (.bs 12 o)
  | .bctGwidth o => some (.bs 13 o)
  | .bctSrd o => some (.bs 14 o)
  | .bctWaitk o => some (.bs 15 o)
  | .bctTrap o => some (.bs 16 o)
  | .bctRft o => some (.bs 17 o)
  | .bctBrkpt o => some (.bs 18 o)
  | .xiAdd h w => some (.arith 32 0 h w)
  | .xiSub h w => some (.arith 32 1 h w)
  | .xiAddc h w => some (.arith 32 2 h w)
  | .xiSubb h w => some (.arith 32 3 h w)
  | .xiMul h w => some (.arith 32 4 h w)
  | .xiMulh h w => some (.arith 32 5 h w)
  | .xiMad h w => some (.arith 32 6 h w)
  | .xiMin h w => some (.arith 32 7 h w)
  | .xiMax h w => some (.arith 32 8 h w)
  | .xiAbs h w => some (.arith 32 9 h w)
  | .xiNeg h w => some (.arith 32 10 h w)
  | .xiAnd h w => some (.arith 32 11 h w)
  | .xiOr h w => some (.arith 32 12 h w)
  | .xiXor h w => some (.arith 32 13 h w)
  | .xiAndn h w => some (.arith 32 14 h w)
  | .xiOrn h w => some (.arith 32 15 h w)
  | .xiNot h w => some (.arith 32 16 h w)
  | .xiShl h w => some (.arith 32 17 h w)
  | .xiShr h w => some (.arith 32 18 h w)
  | .xiSar h w => some (.arith 32 19 h w)
  | .xiRol h w => some (.arith 32 20 h w)
  | .xiShf h w => some (.arith 32 21 h w)
  | .xiClz h w => some (.arith 32 22 h w)
  | .xiCtz h w => some (.arith 32 23 h w)
  | .xiPopc h w => some (.arith 32 24 h w)
  | .xiBrev h w => some (.arith 32 25 h w)
  | .xiBfx h w => some (.arith 32 26 h w)
  | .xiBfi h w => some (.arith 32 27 h w)
  | .xiBperm h w => some (.arith 32 28 h w)
  | .xiSel h w => some (.arith 32 29 h w)
  | .xiMov h w => some (.arith 32 30 h w)
  | .xiIset h w => some (.arith 32 31 h w)
  | .xiLea h w => some (.arith 32 32 h w)
  | .xfFadd h w => some (.arith 33 0 h w)
  | .xfFsub h w => some (.arith 33 1 h w)
  | .xfFmul h w => some (.arith 33 2 h w)
  | .xfFfma h w => some (.arith 33 3 h w)
  | .xfFmin h w => some (.arith 33 4 h w)
  | .xfFmax h w => some (.arith 33 5 h w)
  | .xfFset h w => some (.arith 33 6 h w)
  | .xfFclass h w => some (.arith 33 7 h w)
  | .xfFrnd h w => some (.arith 33 8 h w)
  | .xfFrcp h w => some (.arith 33 9 h w)
  | .xfFrsq h w => some (.arith 33 10 h w)
  | .xfFsqrt h w => some (.arith 33 11 h w)
  | .xfFex2 h w => some (.arith 33 12 h w)
  | .xfFlg2 h w => some (.arith 33 13 h w)
  | .xfFsin h w => some (.arith 33 14 h w)
  | .xfFcos h w => some (.arith 33 15 h w)
  | .xfFtanh h w => some (.arith 33 16 h w)
  | .xqCvt h w => some (.arith 34 0 h w)
  | .xqQntz h w => some (.arith 34 1 h w)
  | .xqDqnt h w => some (.arith 34 2 h w)
  | .xqDot4 h w => some (.arith 34 3 h w)
  | .xqDot8 h w => some (.arith 34 4 h w)
  | .xlShfl h w => some (.cross 0 h w)
  | .xlVote h w => some (.cross 1 h w)
  | .xlGred h w => some (.cross 2 h w)
  | .xlGscan h w => some (.cross 3 h w)
  | .xlMatch h w => some (.cross 4 h w)
  | .xcBra h w => some (.branch 0 h w)
  | .xcBrc h w => some (.branch 1 h w)
  | .xcCall h w => some (.branch 2 h w)
  | .xmLd h w => some (.mem 37 0 h w)
  | .xmSt h w => some (.mem 37 1 h w)
  | .xmLdc h w => some (.mem 37 2 h w)
  | .xmPrf h w => some (.mem 37 3 h w)
  | .xmLdg h w => some (.mem 37 4 h w)
  | .xmSct h w => some (.mem 37 5 h w)
  | .xmIcinv h w => some (.mem 37 6 h w)
  | .xsLds h w => some (.mem 38 0 h w)
  | .xsSts h w => some (.mem 38 1 h w)
  | .xsAtoms h w => some (.mem 38 2 h w)
  | .xaAtom h w => some (.mem 39 0 h w)
  | .xoFence h w => some (.mem 40 0 h w)
  | .xoSeal h w => some (.mem 40 1 h w)
  | .xoChkr h w => some (.mem 40 2 h w)
  | .xyBari h w => some (.mem 41 0 h w)
  | .xyBara h w => some (.mem 41 1 h w)
  | .xyBarad h w => some (.mem 41 2 h w)
  | .xyBarw h w => some (.mem 41 3 h w)
  | .xyBart h w => some (.mem 41 4 h w)
  | .xyBarx h w => some (.mem 41 5 h w)
  | .xyGbara h w => some (.mem 41 6 h w)
  | .xyGbard h w => some (.mem 41 7 h w)
  | .xyGbarw h w => some (.mem 41 8 h w)
  | .xuQpsh h w => some (.mem 42 0 h w)
  | .xuQpop h w => some (.mem 42 1 h w)
  | .xuQst h w => some (.mem 42 2 h w)
  | .xuPhsw h w => some (.mem 42 3 h w)
  | .xuQuiet h w => some (.mem 42 4 h w)
  | .xpCpy h w => some (.mem 43 0 h w)
  | .xpCpyt h w => some (.mem 43 1 h w)
  | .xpCpyr h w => some (.mem 43 2 h w)
  | .xpCpym h w => some (.mem 43 3 h w)
  | .xpTlwt h w => some (.mem 43 4 h w)
  | .xpTlrd h w => some (.mem 43 5 h w)
  | .xxMma h w => some (.command 44 0 h w)
  | .xxTmma h w => some (.command 44 1 h w)
  | .xxTzro h w => some (.command 44 2 h w)
  | .xxTrd h w => some (.command 44 3 h w)
  | .xxTwr h w => some (.command 44 4 h w)
  | .xxTsto h w => some (.command 44 5 h w)
  | .xrRld h w => some (.remote 0 h w)
  | .xrRst h w => some (.remote 1 h w)
  | .xrRatm h w => some (.remote 2 h w)
  | .xrRfnc h w => some (.remote 3 h w)
  | .xvDvt h w => some (.command 46 0 h w)
  | .xvColl h w => some (.command 46 1 h w)
  | .xvNodego h w => some (.command 46 2 h w)
  | .xzCsrr h w => some (.command 47 0 h w)
  | .xzCsrw h w => some (.command 47 1 h w)
  | .xzGett h w => some (.command 47 2 h w)
  | .xzPmrd h w => some (.command 47 3 h w)
  | _ => none

/-- The words of an instruction, first word first; a step of an engine has none. -/
def encode (i : Instr) : Option (List Nat) := i.form.map Form.words

/-- The 32-bit words of a number, least significant first. -/
def splitWords : Nat → Nat → List Nat
  | 0, _ => []
  | n + 1, w => w % 2 ^ 32 :: splitWords n (w / 2 ^ 32)

/-- The longest instruction has five words (R70). -/
def maxWords : Nat := 5

/-- The instruction that the decoder reads from bits numbered from the least significant bit of the first
word, with zeros above bit `nbits`. -/
def decodeTableWord (nbits w : Nat) : Option Instr :=
  match decodeWords (splitWords maxWords (w % 2 ^ nbits)) with
  | .ok i => some i
  | .error _ => none

end Sys2Proof
end

