-- ==== Sys2Proof/Machine/Formats.lean ====
section
/-! DEFINITION. Floating-point formats, exact values and rounding (02 R44 to R51, R58, R67). Codes are
naturals below 2^width; an exact value is a signed dyadic. -/

namespace Sys2Proof.Machine

/-! ## Sticky flags (02 R52) -/

/-- The six sticky flags, bit i as FFLAGS numbers it. -/
abbrev FFlags := BitVec 6

def flagNX : FFlags := 1
def flagUF : FFlags := 2
def flagOF : FFlags := 4
def flagDZ : FFlags := 8
def flagNV : FFlags := 16
def flagSX : FFlags := 32

def flagIf (b : Bool) (f : FFlags) : FFlags := if b then f else 0

/-! ## Exact values -/

/-- (−1)^neg × m × 2^e; zero keeps its sign. -/
structure Dyad where
  neg : Bool
  m : Nat
  e : Int
  deriving DecidableEq, Repr

/-- What a code of a format means. -/
inductive FVal where
  | nan (signalling : Bool)
  | inf (neg : Bool)
  | fin (d : Dyad)
  deriving DecidableEq, Repr

def Dyad.zero (neg : Bool) : Dyad := { neg := neg, m := 0, e := 0 }

def Dyad.ofInt (i : Int) : Dyad := { neg := decide (i < 0), m := i.natAbs, e := 0 }

/-- The value as an integer multiple of 2^u, for u at most its exponent. -/
def Dyad.atExp (d : Dyad) (u : Int) : Int :=
  let n : Int := ((d.m * 2 ^ (d.e - u).toNat : Nat) : Int)
  if d.neg then -n else n

def Dyad.mul (a b : Dyad) : Dyad := { neg := a.neg != b.neg, m := a.m * b.m, e := a.e + b.e }

def Dyad.negate (a : Dyad) : Dyad := { a with neg := !a.neg }

/-- Times 2^k. -/
def Dyad.scale (a : Dyad) (k : Int) : Dyad := { a with e := a.e + k }

/-- The least exponent of a list of terms. -/
def minExp : List Dyad → Int
  | [] => 0
  | [d] => d.e
  | d :: ds => min d.e (minExp ds)

def sumAtExp (u : Int) : List Dyad → Int
  | [] => 0
  | d :: ds => d.atExp u + sumAtExp u ds

/-- The exact sum of the terms, with the sign of a zero sum by R67. -/
def sumDyads (rnd : Rnd) (ds : List Dyad) : Dyad :=
  let u := minExp ds
  let n := sumAtExp u ds
  if n = 0 then
    Dyad.zero (if ds.all (·.neg) && !ds.isEmpty then true else if ds.all (!·.neg) then false else rnd == .rd)
  else { neg := decide (n < 0), m := n.natAbs, e := u }

/-- Order of exact values. -/
def Dyad.lt (a b : Dyad) : Bool :=
  let u := min a.e b.e
  decide (a.atExp u < b.atExp u)

def Dyad.eqv (a b : Dyad) : Bool :=
  let u := min a.e b.e
  decide (a.atExp u = b.atExp u)

def Dyad.abs (a : Dyad) : Dyad := { a with neg := false }

/-- Exp(y) of R60: floor(log2 y) for y > 0. -/
def Dyad.exponent (d : Dyad) : Int := d.e + (Nat.log2 d.m : Int)

/-! ## Formats (R44) -/

/-- How a format uses its largest exponent. -/
inductive FStyle where
  | ieee | e4m3 | e2m1
  deriving DecidableEq, Repr

structure Fmt where
  ebits : Nat
  mbits : Nat
  bias : Int
  style : FStyle
  deriving DecidableEq, Repr

def fmtF64 : Fmt := { ebits := 11, mbits := 52, bias := 1023, style := .ieee }
def fmtF32 : Fmt := { ebits := 8, mbits := 23, bias := 127, style := .ieee }
def fmtF16 : Fmt := { ebits := 5, mbits := 10, bias := 15, style := .ieee }
def fmtBf16 : Fmt := { ebits := 8, mbits := 7, bias := 127, style := .ieee }
def fmtE5m2 : Fmt := { ebits := 5, mbits := 2, bias := 15, style := .ieee }
def fmtE4m3 : Fmt := { ebits := 4, mbits := 3, bias := 7, style := .e4m3 }
def fmtE2m1 : Fmt := { ebits := 2, mbits := 1, bias := 1, style := .e2m1 }

def Fmt.width (f : Fmt) : Nat := 1 + f.ebits + f.mbits

/-- The formats that FTZ acts on (R49). -/
def Fmt.wide (f : Fmt) : Bool := f.style == .ieee && f.mbits != 2

/-- The exponent of the least subnormal. -/
def Fmt.minE (f : Fmt) : Int := 1 - f.bias - f.mbits

/-- The code of the largest finite magnitude. -/
def Fmt.maxCode (f : Fmt) : Nat :=
  match f.style with
  | .ieee => (2 ^ f.ebits - 1) * 2 ^ f.mbits - 1
  | .e4m3 => 0x7E
  | .e2m1 => 7

def Fmt.infCode (f : Fmt) : Nat := (2 ^ f.ebits - 1) * 2 ^ f.mbits

/-- The canonical NaN of R44; e2m1 has none, and R50 gives 0x0. -/
def Fmt.nanCode (f : Fmt) : Nat :=
  match f.style with
  | .ieee => (2 ^ f.ebits - 1) * 2 ^ f.mbits + 2 ^ (f.mbits - 1)
  | .e4m3 => 0x7F
  | .e2m1 => 0

def Fmt.withSign (f : Fmt) (neg : Bool) (code : Nat) : Nat := if neg then code + 2 ^ (f.ebits + f.mbits) else code

/-- What a code means (R44, R46). -/
def Fmt.decode (f : Fmt) (code : Nat) : FVal :=
  let neg := code / 2 ^ (f.ebits + f.mbits) % 2 == 1
  let mag := code % 2 ^ (f.ebits + f.mbits)
  let ex := mag / 2 ^ f.mbits
  let mn := mag % 2 ^ f.mbits
  if f.style == .ieee && ex == 2 ^ f.ebits - 1 then
    if mn == 0 then .inf neg else .nan (f.wide && mn / 2 ^ (f.mbits - 1) == 0)
  else if f.style == .e4m3 && mag == 0x7F then .nan false
  else if ex == 0 then .fin { neg := neg, m := mn, e := f.minE }
  else .fin { neg := neg, m := 2 ^ f.mbits + mn, e := (ex : Int) - f.bias - f.mbits }

/-! ## Rounding (R47, R48, R49, R51) -/

/-- m / 2^k rounded to an integer, and whether it is inexact. -/
def roundShift (rnd : Rnd) (neg : Bool) (m k : Nat) : Nat × Bool :=
  let q := m / 2 ^ k
  let r := m % 2 ^ k
  let up := match rnd with
    | .rn => decide (2 * r > 2 ^ k) || (decide (2 * r = 2 ^ k) && q % 2 == 1)
    | .rz => false
    | .ru => !neg && r != 0
    | .rd => neg && r != 0
  (if up then q + 1 else q, r != 0)

/-- A value rounded to the format with the exponent unbounded above: the code it would have, and whether the
rounding is inexact. -/
def Fmt.roundMag (f : Fmt) (rnd : Rnd) (d : Dyad) : Nat × Bool :=
  let u := max (d.exponent - f.mbits) f.minE
  let (q, ix) := if d.e ≥ u then (d.m * 2 ^ (d.e - u).toNat, false) else roundShift rnd d.neg d.m (u - d.e).toNat
  ((u - f.minE).toNat * 2 ^ f.mbits + q, ix)

/-- What an overflowing result becomes in f64, f32, f16 and bf16 (R48). -/
def Fmt.overflow (f : Fmt) (rnd : Rnd) (sat neg : Bool) : Nat × FFlags :=
  let toInf := match rnd with
    | .rn => true
    | .rz => false
    | .ru => !neg
    | .rd => neg
  if toInf && !sat then (f.withSign neg f.infCode, flagOF ||| flagNX)
  else (f.withSign neg f.maxCode, flagOF ||| flagNX ||| flagIf toInf flagSX)

/-- A finite value rounded once to a format, with its flags. For e5m2, e4m3 and e2m1 the caller passes RND
to nearest even and R50 governs. -/
def Fmt.round (f : Fmt) (rnd : Rnd) (sat ftz : Bool) (d : Dyad) : Nat × FFlags :=
  if d.m = 0 then (if f.style == .e2m1 then 0 else f.withSign d.neg 0, 0)
  else
    let (code, ix) := f.roundMag rnd d
    if code > f.maxCode then
      match f.style with
      | .ieee => f.overflow rnd sat d.neg
      | _ => (f.withSign d.neg f.maxCode, flagOF ||| flagNX ||| flagSX)
    else
      let tiny := code < 2 ^ f.mbits
      if ftz && f.wide && tiny && code != 0 then (f.withSign d.neg 0, flagUF ||| flagNX)
      else
        (if f.style == .e2m1 && code == 0 then 0 else f.withSign d.neg code,
         flagIf ix flagNX ||| flagIf (ix && tiny) flagUF)

/-- A result that may be a NaN or infinite, written in a format (R46, R48, R50). -/
def Fmt.write (f : Fmt) (rnd : Rnd) (sat ftz : Bool) (v : FVal) : Nat × FFlags :=
  match v with
  | .nan _ => (f.nanCode, 0)
  | .inf neg =>
    if f.style == .ieee && (f.wide || !sat) then (f.withSign neg f.infCode, 0)
    else (f.withSign neg f.maxCode, flagSX)
  | .fin d => f.round rnd sat ftz d

/-- An operand, with FTZ (R49). -/
def Fmt.operand (f : Fmt) (ftz : Bool) (code : Nat) : FVal :=
  match f.decode code with
  | .fin d =>
    if ftz && f.wide && code % 2 ^ (f.ebits + f.mbits) < 2 ^ f.mbits then .fin (Dyad.zero d.neg) else .fin d
  | v => v

def FVal.isNan : FVal → Bool
  | .nan _ => true
  | _ => false

def FVal.isSig : FVal → Bool
  | .nan s => s
  | _ => false

def FVal.isNeg : FVal → Bool
  | .nan _ => false
  | .inf n => n
  | .fin d => d.neg

def FVal.isZero : FVal → Bool
  | .fin d => d.m == 0
  | _ => false

def FVal.negate : FVal → FVal
  | .nan s => .nan s
  | .inf n => .inf !n
  | .fin d => .fin d.negate

/-- NV for a signalling operand (R46). -/
def sigFlag (vs : List FVal) : FFlags := flagIf (vs.any FVal.isSig) flagNV

/-! ## Sums and products of values that may be special (R67, R158) -/

/-- The exact product; 0 × ∞ is the invalid operation. -/
def mulVal (a b : FVal) : FVal × FFlags :=
  match a, b with
  | .fin x, .fin y => (.fin (x.mul y), 0)
  | .nan _, _ | _, .nan _ => (.nan false, 0)
  | a, b =>
    if a.isZero || b.isZero then (.nan false, flagNV) else (.inf (a.isNeg != b.isNeg), 0)

def finParts : List FVal → List Dyad
  | [] => []
  | .fin d :: vs => d :: finParts vs
  | _ :: vs => finParts vs

/-- The exact sum of the terms; ∞ − ∞ is the invalid operation. -/
def sumVals (rnd : Rnd) (vs : List FVal) : FVal × FFlags :=
  let pos := vs.any fun v => v == .inf false
  let neg := vs.any fun v => v == .inf true
  if pos && neg then (.nan false, flagNV)
  else if vs.any FVal.isNan then (.nan false, 0)
  else if pos then (.inf false, 0)
  else if neg then (.inf true, 0)
  else (.fin (sumDyads rnd (finParts vs)), 0)

/-- The products of two lists of values, with the flags of the invalid ones. -/
def mulVals : List FVal → List FVal → List FVal × FFlags
  | a :: as, b :: bs =>
    let (p, f) := mulVal a b
    let (ps, fs) := mulVals as bs
    (p :: ps, f ||| fs)
  | _, _ => ([], 0)

/-! ## The operations of XF (R158 to R160) -/

structure FMode where
  rnd : Rnd
  sat : Bool
  ftz : Bool
  deriving DecidableEq, Repr

def Fmt.result (f : Fmt) (m : FMode) (v : FVal) (fl : FFlags) : Nat × FFlags :=
  let (c, g) := f.write m.rnd m.sat m.ftz v
  (c, fl ||| g)

def fAdd (f : Fmt) (m : FMode) (a b : Nat) : Nat × FFlags :=
  let x := f.operand m.ftz a
  let y := f.operand m.ftz b
  let (v, fl) := sumVals m.rnd [x, y]
  f.result m v (fl ||| sigFlag [x, y])

def fSub (f : Fmt) (m : FMode) (a b : Nat) : Nat × FFlags :=
  let x := f.operand m.ftz a
  let y := f.operand m.ftz b
  let (v, fl) := sumVals m.rnd [x, y.negate]
  f.result m v (fl ||| sigFlag [x, y])

def fMul (f : Fmt) (m : FMode) (a b : Nat) : Nat × FFlags :=
  let x := f.operand m.ftz a
  let y := f.operand m.ftz b
  let (v, fl) := mulVal x y
  f.result m v (fl ||| sigFlag [x, y])

/-- a × b + c exactly, with one rounding; 0 × ∞ is invalid whatever c is. -/
def fFma (f : Fmt) (m : FMode) (a b c : Nat) : Nat × FFlags :=
  let x := f.operand m.ftz a
  let y := f.operand m.ftz b
  let z := f.operand m.ftz c
  let (p, fl) := mulVal x y
  let (v, fl') := sumVals m.rnd [p, z]
  f.result m v (fl ||| fl' ||| sigFlag [x, y, z])

/-- x is below y, with −0 below +0; NaN operands are not compared here. -/
def FVal.below (x y : FVal) : Bool :=
  match x, y with
  | .inf n, .inf n' => n && !n'
  | .inf n, _ => n
  | _, .inf n => !n
  | .fin a, .fin b => if a.m == 0 && b.m == 0 then a.neg && !b.neg else a.lt b
  | _, _ => false

/-- FMIN (`mx` false) and FMAX on values (R134, R158): the operand, or the other one when exactly one is NaN. -/
def minMaxVal (mx : Bool) (x y : FVal) : FVal :=
  match x.isNan, y.isNan with
  | true, true => .nan false
  | true, false => y
  | false, true => x
  | false, false => if (if mx then x.below y else y.below x) then y else x

def fMinMax (mx : Bool) (f : Fmt) (m : FMode) (a b : Nat) : Nat × FFlags :=
  let x := f.operand m.ftz a
  let y := f.operand m.ftz b
  f.result m (minMaxVal mx x y) (sigFlag [x, y])

def FVal.eqv (x y : FVal) : Bool :=
  match x, y with
  | .inf n, .inf n' => n == n'
  | .fin a, .fin b => a.eqv b
  | _, _ => false

def FVal.less (x y : FVal) : Bool :=
  match x, y with
  | .inf n, .inf n' => n && !n'
  | .inf n, .fin _ => n
  | .fin _, .inf n => !n
  | .fin a, .fin b => a.lt b
  | _, _ => false

/-- FSET by condition code (R157, R159). -/
def fSet (f : Fmt) (ftz : Bool) (cc : Nat) (a b : Nat) : Bool × FFlags :=
  let x := f.operand ftz a
  let y := f.operand ftz b
  let un := x.isNan || y.isNan
  let r := match cc with
    | 0 => x.eqv y
    | 1 => !un && !(x.eqv y)
    | 2 => x.less y
    | 3 => x.less y || x.eqv y
    | 4 => y.less x
    | 5 => y.less x || x.eqv y
    | 6 => un
    | _ => !un
  (r, flagIf (x.isSig || y.isSig || (un && 2 ≤ cc && cc ≤ 5)) flagNV)

/-- FCLASS (R159). -/
def fClass (f : Fmt) (a : Nat) : Nat :=
  let mag := a % 2 ^ (f.ebits + f.mbits)
  match f.decode a with
  | .nan s => if s then 2 ^ 8 else 2 ^ 9
  | .inf n => if n then 2 ^ 0 else 2 ^ 7
  | .fin d =>
    if mag = 0 then (if d.neg then 2 ^ 3 else 2 ^ 4)
    else if mag < 2 ^ f.mbits then (if d.neg then 2 ^ 2 else 2 ^ 5)
    else (if d.neg then 2 ^ 1 else 2 ^ 6)

/-- A value rounded to an integer, with its magnitude, and whether it is inexact. -/
def Dyad.roundInt (rnd : Rnd) (d : Dyad) : Nat × Bool :=
  if d.e ≥ 0 then (d.m * 2 ^ d.e.toNat, false) else roundShift rnd d.neg d.m (-d.e).toNat

/-- FRND (R160). -/
def fRnd (f : Fmt) (m : FMode) (a : Nat) : Nat × FFlags :=
  match f.operand m.ftz a with
  | .fin d =>
    let (n, ix) := d.roundInt m.rnd
    ((f.write .rn false false (.fin { neg := d.neg, m := n, e := 0 })).1, flagIf ix flagNX)
  | v => f.result m v (sigFlag [v])

/-! ## Reciprocal and roots (R161) -/

/-- A magnitude known as n × 2^e, or strictly between it and the next multiple when `more`: one bit below the
lowest says so, and rounding at any higher bit gives the exact result. -/
def stickyDyad (neg : Bool) (n : Nat) (e : Int) (more : Bool) : Dyad :=
  { neg := neg, m := 2 * n + (if more then 1 else 0), e := e - 1 }

/-- More bits than any format keeps, so that the quotient and root below decide every rounding. -/
def guardBits : Nat := 70

/-- 1 / d for a nonzero d. -/
def recipDyad (d : Dyad) : Dyad :=
  let k := Nat.log2 d.m + guardBits
  stickyDyad d.neg (2 ^ k / d.m) (-d.e - k) (2 ^ k % d.m != 0)

/-- The integer square root, one bit of the root for each unit of fuel. -/
def isqrtBits (n : Nat) : Nat → Nat → Nat
  | 0, r => r
  | k + 1, r => let t := r + 2 ^ k; isqrtBits n k (if t * t ≤ n then t else r)

def isqrt (n : Nat) : Nat := isqrtBits n (Nat.log2 n / 2 + 1) 0

/-- The square root of a positive value. -/
def sqrtDyad (d : Dyad) : Dyad :=
  let (m, e) := if d.e % 2 = 0 then (d.m, d.e) else (2 * d.m, d.e - 1)
  let n := m * 2 ^ (2 * guardBits)
  let r := isqrt n
  stickyDyad false r (e / 2 - guardBits) (r * r != n)

/-- 1 / √d for a positive value. -/
def rsqrtDyad (d : Dyad) : Dyad :=
  let (m, e) := if d.e % 2 = 0 then (d.m, d.e) else (2 * d.m, d.e - 1)
  let k := Nat.log2 m + guardBits
  let r := isqrt (2 ^ (2 * k) / m)
  stickyDyad false r (-(e / 2) - k) (r * r * m != 2 ^ (2 * k))

def fRcp (f : Fmt) (m : FMode) (a : Nat) : Nat × FFlags :=
  match f.operand m.ftz a with
  | .nan s => (f.nanCode, flagIf s flagNV)
  | .inf n => (f.withSign n 0, 0)
  | .fin d => if d.m = 0 then (f.withSign d.neg f.infCode, flagDZ) else f.round m.rnd m.sat m.ftz (recipDyad d)

def fRsq (f : Fmt) (m : FMode) (a : Nat) : Nat × FFlags :=
  match f.operand m.ftz a with
  | .nan s => (f.nanCode, flagIf s flagNV)
  | .inf n => if n then (f.nanCode, flagNV) else (0, 0)
  | .fin d =>
    if d.m = 0 then (f.withSign d.neg f.infCode, flagDZ)
    else if d.neg then (f.nanCode, flagNV)
    else f.round m.rnd m.sat m.ftz (rsqrtDyad d)

def fSqrt (f : Fmt) (m : FMode) (a : Nat) : Nat × FFlags :=
  match f.operand m.ftz a with
  | .nan s => (f.nanCode, flagIf s flagNV)
  | .inf n => if n then (f.nanCode, flagNV) else (f.infCode, 0)
  | .fin d =>
    if d.m = 0 then (f.withSign d.neg 0, 0)
    else if d.neg then (f.nanCode, flagNV)
    else f.round m.rnd m.sat m.ftz (sqrtDyad d)

/-! ## Conversions (R50, R162) -/

/-- The range of an integer type of width `w` (R42). -/
def intMin (signed : Bool) (w : Nat) : Int := if signed then -(2 ^ (w - 1) : Nat) else 0
def intMax (signed : Bool) (w : Nat) : Int := if signed then ((2 ^ (w - 1) : Nat) : Int) - 1 else ((2 ^ w : Nat) : Int) - 1

/-- A floating value to an integer type (R50): the integer and its flags. -/
def floatToInt (rnd : Rnd) (signed : Bool) (w : Nat) (v : FVal) : Int × FFlags :=
  match v with
  | .nan _ => (0, flagNV)
  | .inf n => (if n then intMin signed w else intMax signed w, flagNV)
  | .fin d =>
    let (n, ix) := d.roundInt rnd
    let i : Int := if d.neg then -(n : Int) else n
    if i < intMin signed w then (intMin signed w, flagNV)
    else if i > intMax signed w then (intMax signed w, flagNV)
    else (i, flagIf ix flagNX)

/-- RND is ignored by the 8-bit and 4-bit destinations (R47). -/
def Fmt.convRnd (f : Fmt) (rnd : Rnd) : Rnd := if f.wide then rnd else .rn

/-- A value converted into a format by R50, with NV for a NaN where R50 gives it. -/
def convertTo (f : Fmt) (m : FMode) (v : FVal) : Nat × FFlags :=
  let (c, fl) := f.write (f.convRnd m.rnd) m.sat m.ftz v
  (c, fl ||| flagIf (v.isSig || (v.isNan && f.style == .e2m1)) flagNV)

/-! ## The formats of types and pages -/

/-- The format of a float type (R86). -/
def tyFmt : Ty → Option Fmt
  | .f16 => some fmtF16 | .bf16 => some fmtBf16 | .f32 => some fmtF32 | .f64 => some fmtF64
  | .e4m3 => some fmtE4m3 | .e5m2 => some fmtE5m2 | .e2m1 => some fmtE2m1
  | _ => none

/-- The width in bits of a type (R42, R44). -/
def tyWidth : Ty → Nat
  | .i8 | .z8 | .e4m3 | .e5m2 => 8
  | .i16 | .z16 | .f16 | .bf16 => 16
  | .i32 | .z32 | .f32 => 32
  | .i64 | .z64 | .f64 => 64
  | .e2m1 => 4
  | .b128 => 128

def tySigned (t : Ty) : Bool := t ∈ [.i8, .i16, .i32, .i64]

/-! ## Block-scaled elements (R55, R56, R58) -/

/-- The value of a block-scaled element: its code, the scale code and the extra code of its block (R58). -/
def blockValue (c scale extra : Nat) : FVal :=
  if scale = 0xFF then .nan false
  else
    match (if c = 8 then fmtE4m3.decode extra else fmtE2m1.decode c) with
    | .fin d => .fin (if c = 8 && d.m == 0 then Dyad.zero d.neg else d.scale ((scale : Int) - 127))
    | v => v

def nthByte (bs : List Byte) (i : Nat) : Nat := (bs.getD i 0).toNat

/-- The e2m1 code of element j (R55). -/
def segCode (bs : List Byte) (j : Nat) : Nat := nthByte bs (j / 2) / 2 ^ (4 * (j % 2)) % 16

/-- BITMAP of an SVB segment. -/
def svbBitmap (bs : List Byte) : Nat :=
  nthByte bs 128 + nthByte bs 129 * 2 ^ 8 + nthByte bs 130 * 2 ^ 16 + nthByte bs 131 * 2 ^ 24

/-- The set bits of `n` among bits 0 to k − 1. -/
def countBits (n : Nat) : Nat → Nat
  | 0 => 0
  | k + 1 => countBits n k + n / 2 ^ k % 2

/-- A malformed SVB segment (R56). -/
def svbMalformed (bs : List Byte) : Bool := svbBitmap bs % 2 == 0 || decide (countBits (svbBitmap bs) 32 > 14)

/-- The scale and extra of element j, by GEOM (R55, R56, R63). -/
def segScale (geom : Nat) (bs : List Byte) (j : Nat) : Nat × Nat :=
  match geom with
  | 1 => (nthByte bs (128 + j / 32), nthByte bs (136 + j / 32))
  | 2 => (nthByte bs (128 + j / 16), nthByte bs (144 + j / 16))
  | _ =>
    let h := countBits (svbBitmap bs) (j / 8 + 1) - 1
    (nthByte bs (132 + 2 * h), nthByte bs (133 + 2 * h))

/-- Element j of a segment (R58). -/
def segValue (geom : Nat) (bs : List Byte) (j : Nat) : FVal :=
  let (sc, ex) := segScale geom bs j
  blockValue (segCode bs j) sc ex

/-! ## The quantisation rule (R60) -/

/-- |x|, with NaN and ±∞ as 0. -/
def absOrZero : FVal → Dyad
  | .fin d => d.abs
  | _ => Dyad.zero false

/-- The largest and the second largest of a list, equal values counted separately. -/
def topTwo : List Dyad → Dyad × Dyad
  | [] => (Dyad.zero false, Dyad.zero false)
  | d :: ds =>
    let (a, b) := topTwo ds
    if a.lt d then (d, a) else if b.lt d then (a, d) else (a, b)

structure SegScan where
  starts : List Nat
  big : Dyad

/-- The granules that start blocks, in rising order reversed. -/
def scanGranules (xs : List FVal) (thr : Nat) : Nat → SegScan
  | 0 => { starts := [0], big := (topTwo ((xs.take 8).map absOrZero)).2 }
  | g + 1 =>
    let s := scanGranules xs thr g
    let m := (topTwo (((xs.drop (8 * (g + 1))).take 8).map absOrZero)).2
    let diff := (m.exponent - s.big.exponent).natAbs
    if thr > 0 && s.starts.length < 14 && m.m != 0 && s.big.m != 0 && diff ≥ thr then
      { starts := (g + 1) :: s.starts, big := m }
    else { s with big := if s.big.lt m then m else s.big }

/-- The least integer sc, from `lo` up, with S ≤ 6 × 2^sc. -/
def leastScale (s : Dyad) (lo : Int) : Nat → Int
  | 0 => lo
  | n + 1 => if ({ neg := false, m := 6, e := lo } : Dyad).lt s then leastScale s (lo + 1) n else lo

def clampInt (lo hi x : Int) : Int := max lo (min hi x)

structure QBlock where
  codes : List Nat
  scale : Nat
  extra : Nat
  flags : FFlags
  deriving DecidableEq, Repr

/-- The index in the list of the first element whose magnitude is `m`. -/
def firstAt (m : Dyad) : List FVal → Nat → Option Nat
  | [], _ => none
  | x :: xs, i => if (absOrZero x).eqv m then some i else firstAt m xs (i + 1)

def qMode : FMode := { rnd := .rn, sat := false, ftz := false }

/-- A value times 2^k. -/
def FVal.scale (v : FVal) (k : Int) : FVal :=
  match v with
  | .fin d => .fin (d.scale k)
  | v => v

/-- The codes of a block's elements from index i on. -/
def blockCodes (sc : Int) (out : Option Nat) : List FVal → Nat → List Nat × FFlags
  | [], _ => ([], 0)
  | x :: xs, i =>
    let (cs, fl) := blockCodes sc out xs (i + 1)
    if out = some i then (8 :: cs, fl)
    else let (c, f) := convertTo fmtE2m1 qMode (x.scale (-sc)); (c :: cs, fl ||| f)

/-- One block of R60. -/
def quantBlock (xs : List FVal) : QBlock :=
  let (m1, m2) := topTwo (xs.map absOrZero)
  let out := if m2.m != 0 && !(m1.lt (m2.scale 2)) then firstAt m1 xs 0 else none
  let s := if out.isSome then m2 else m1
  let sc := if s.m == 0 then 0 else clampInt (-127) 127 (leastScale s (s.exponent - 3) 4)
  let (cs, fl) := blockCodes sc out xs 0
  let (ex, fe) := match out with
    | none => (0, 0)
    | some i => convertTo fmtE4m3 qMode ((xs.getD i (.nan false)).scale (-sc))
  { codes := cs, scale := (sc + 127).toNat, extra := ex, flags := fl ||| fe }

/-- The blocks between the starts, given in rising order. -/
def quantBlocks (xs : List FVal) : List Nat → List QBlock
  | [] => []
  | [g] => [quantBlock (xs.drop (8 * g))]
  | g :: g' :: gs => quantBlock ((xs.drop (8 * g)).take (8 * (g' - g))) :: quantBlocks xs (g' :: gs)

def pairCodes : List Nat → List Byte
  | a :: b :: cs => BitVec.ofNat 8 (a + 16 * b) :: pairCodes cs
  | _ => []

def bitmapOf : List Nat → Nat
  | [] => 0
  | g :: gs => 2 ^ g + bitmapOf gs

def natBytes : Nat → Nat → List Byte
  | 0, _ => []
  | k + 1, n => BitVec.ofNat 8 n :: natBytes k (n / 256)

def headerBytes : List QBlock → List Byte
  | [] => []
  | b :: bs => BitVec.ofNat 8 b.scale :: BitVec.ofNat 8 b.extra :: headerBytes bs

def orFlags : List FFlags → FFlags
  | [] => 0
  | f :: fs => f ||| orFlags fs

/-- The 160-byte SVB segment of 256 values with threshold T, and its flags (R60, R62). -/
def quantise (xs : List FVal) (thr : Nat) : List Byte × FFlags :=
  let starts := (scanGranules xs thr 31).starts.reverse
  let blocks := quantBlocks xs starts
  let hdr := headerBytes blocks
  (pairCodes (blocks.flatMap (·.codes)) ++ natBytes 4 (bitmapOf starts) ++ hdr ++ List.replicate (28 - hdr.length) 0,
   orFlags (blocks.map (·.flags)))

end Sys2Proof.Machine
end

