-- ==== Sys2Proof/Machine/IntAlu.lean ====
section
/-! DEFINITION. Integer operations on bit patterns (05 R153 to R156, 02 R42). A pattern is a natural below
2^width of its type. -/

namespace Sys2Proof.Machine

/-- The integer that a pattern means in a type. -/
def intVal (t : Ty) (a : Nat) : Int :=
  let w := tyWidth t
  let a := a % 2 ^ w
  if tySigned t && a ≥ 2 ^ (w - 1) then (a : Int) - ((2 ^ w : Nat) : Int) else (a : Int)

/-- An integer modulo 2^w. -/
def wrapInt (w : Nat) (x : Int) : Nat := (x % ((2 ^ w : Nat) : Int)).toNat

/-- Fit of R153, with the SX flag of SAT. -/
def fit (t : Ty) (sat : Bool) (x : Int) : Nat × FFlags :=
  let w := tyWidth t
  let y := clampInt (intMin (tySigned t) w) (intMax (tySigned t) w) x
  if sat then (wrapInt w y, flagIf (x != y) flagSX) else (wrapInt w x, 0)

abbrev IntOp := Ty → Bool → Nat → Nat → Nat → Nat × FFlags

def opAdd : IntOp := fun t sat a b _ => fit t sat (intVal t a + intVal t b)
def opSub : IntOp := fun t sat a b _ => fit t sat (intVal t a - intVal t b)
def opMul : IntOp := fun t sat a b _ => fit t sat (intVal t a * intVal t b)
def opMulh : IntOp := fun t _ a b _ =>
  (wrapInt (tyWidth t) (intVal t a * intVal t b / ((2 ^ tyWidth t : Nat) : Int)), 0)
def opMad : IntOp := fun t sat a b c => fit t sat (intVal t a * intVal t b + intVal t c)
def opMin : IntOp := fun t _ a b _ => (if intVal t b < intVal t a then b else a, 0)
def opMax : IntOp := fun t _ a b _ => (if intVal t a < intVal t b then b else a, 0)
def opAbs : IntOp := fun t sat a _ _ => fit t sat ((intVal t a).natAbs : Int)
def opNeg : IntOp := fun t sat a _ _ => fit t sat (-(intVal t a))
def opAnd : IntOp := fun _ _ a b _ => (a &&& b, 0)
def opOr : IntOp := fun _ _ a b _ => (a ||| b, 0)
def opXor : IntOp := fun _ _ a b _ => (a ^^^ b, 0)
def notBits (w a : Nat) : Nat := 2 ^ w - 1 - a % 2 ^ w
def opNot : IntOp := fun t _ a _ _ => (notBits (tyWidth t) a, 0)
def opAndn : IntOp := fun t _ a b _ => (a &&& notBits (tyWidth t) b, 0)
def opOrn : IntOp := fun t _ a b _ => (a ||| notBits (tyWidth t) b, 0)

/-- Shifts (R154); the count is unsigned. -/
def opShl : IntOp := fun t _ a b _ => let w := tyWidth t; (if b ≥ w then 0 else a * 2 ^ b % 2 ^ w, 0)
def opShr : IntOp := fun t _ a b _ => let w := tyWidth t; (if b ≥ w then 0 else a % 2 ^ w / 2 ^ b, 0)

/-- A pattern as signed, whatever the type says. -/
def signedVal (w a : Nat) : Int :=
  if a % 2 ^ w ≥ 2 ^ (w - 1) then ((a % 2 ^ w : Nat) : Int) - ((2 ^ w : Nat) : Int) else ((a % 2 ^ w : Nat) : Int)

def opSar : IntOp := fun t _ a b _ =>
  let w := tyWidth t
  (wrapInt w (signedVal w a / ((2 ^ (min b w) : Nat) : Int)), 0)

def opRol : IntOp := fun t _ a b _ =>
  let w := tyWidth t
  let k := b % w
  let a := a % 2 ^ w
  (a * 2 ^ k % 2 ^ w + a / 2 ^ (w - k), 0)

def opShf : IntOp := fun t _ a b c =>
  let w := tyWidth t
  ((a % 2 ^ w + c % 2 ^ w * 2 ^ w) / 2 ^ (min b w) % 2 ^ w, 0)

def clz (w a : Nat) : Nat := if a % 2 ^ w = 0 then w else w - 1 - Nat.log2 (a % 2 ^ w)

/-- Trailing zeros among the low k bits. -/
def ctz : Nat → Nat → Nat
  | 0, _ => 0
  | k + 1, a => if a % 2 = 1 then 0 else 1 + ctz k (a / 2)

/-- The low k bits in reverse order. -/
def brev : Nat → Nat → Nat
  | 0, _ => 0
  | k + 1, a => a % 2 * 2 ^ k + brev k (a / 2)

/-- The count or the bits of R154, in the 32 or 64 bits of the type's registers. -/
def opClz : IntOp := fun t _ a _ _ => (clz (tyWidth t) a, 0)
def opCtz : IntOp := fun t _ a _ _ => (ctz (tyWidth t) a, 0)
def opPopc : IntOp := fun t _ a _ _ => (countBits a (tyWidth t), 0)
def opBrev : IntOp := fun t _ a _ _ => (brev (tyWidth t) a, 0)

def opBfx : IntOp := fun t _ a b _ =>
  let w := tyWidth t
  let pos := b % 256
  let len := b / 256 % 256
  if len = 0 ∨ pos ≥ w then (0, 0)
  else
    let len := min len (w - pos)
    let f := a / 2 ^ pos % 2 ^ len
    (if tySigned t then wrapInt w (signedVal len f) else f, 0)

def opBfi : IntOp := fun t _ a b c =>
  let w := tyWidth t
  let pos := b % 256
  let len := b / 256 % 256
  let c := c % 2 ^ w
  if len = 0 ∨ pos ≥ w then (c, 0)
  else
    let len := min len (w - pos)
    (c - c / 2 ^ pos % 2 ^ len * 2 ^ pos + a % 2 ^ len * 2 ^ pos, 0)

def bpermByte (ca b k : Nat) : Nat :=
  let n := b / 2 ^ (4 * k) % 16
  if n < 8 then ca / 2 ^ (8 * n) % 256 else 0

def opBperm : IntOp := fun _ _ a b c =>
  let ca := a % 2 ^ 32 + c % 2 ^ 32 * 2 ^ 32
  (bpermByte ca b 0 + bpermByte ca b 1 * 2 ^ 8 + bpermByte ca b 2 * 2 ^ 16 + bpermByte ca b 3 * 2 ^ 24, 0)

def opMov : IntOp := fun _ _ _ b _ => (b, 0)

/-- ISET (R152, R153). -/
def intCompare (t : Ty) (cc : Nat) (a b : Nat) : Bool :=
  let x := intVal t a
  let y := intVal t b
  match cc with
  | 0 => decide (x = y)
  | 1 => decide (x ≠ y)
  | 2 => decide (x < y)
  | 3 => decide (x ≤ y)
  | 4 => decide (x > y)
  | _ => decide (x ≥ y)

/-- ADDC and SUBB (R155): the result and the carry out. -/
def addCarry (w a b cin : Nat) : Nat × Nat :=
  let t := a % 2 ^ w + b % 2 ^ w + cin
  (t % 2 ^ w, t / 2 ^ w)

def subBorrow (w a b cin : Nat) : Nat × Nat :=
  let a := a % 2 ^ w
  let b := b % 2 ^ w
  (wrapInt w ((a : Int) - b - cin), if a < b + cin then 1 else 0)

/-- LEA (R156): b is extended by its type. -/
def leaAddr (t : Ty) (a b sh : Nat) : Nat := wrapInt 64 ((a : Int) + intVal t b * ((2 ^ sh : Nat) : Int))

/-- A result as the registers it is written to (R42, R145): sign-extended for i types, else zero-extended. -/
def resultWords (t : Ty) (r : Nat) : List Word :=
  match t with
  | .i64 | .z64 | .f64 => [BitVec.ofNat 32 r, BitVec.ofNat 32 (r / 2 ^ 32)]
  | .i8 | .i16 => [BitVec.ofInt 32 (intVal t r)]
  | .b128 => [BitVec.ofNat 32 r, BitVec.ofNat 32 (r / 2 ^ 32), BitVec.ofNat 32 (r / 2 ^ 64), BitVec.ofNat 32 (r / 2 ^ 96)]
  | t => [BitVec.ofNat 32 (r % 2 ^ tyWidth t)]

/-! ## DOT4 and DOT8 (R163) -/

/-- Element k of width n of a register. -/
def element (n k a : Nat) : Nat := a / 2 ^ (n * k) % 2 ^ n

def dotInt (t : Ty) (a b : Nat) : Nat → Int
  | 0 => 0
  | k + 1 => dotInt t a b k + intVal t (element 8 k a) * intVal t (element 8 k b)

/-- The integer accumulator of DOT4. -/
def dotIntTy : Ty → Ty
  | .z8 => .z32
  | _ => .i32

def dotElems (f : Fmt) (n : Nat) (a : Nat) : Nat → List FVal
  | 0 => []
  | k + 1 => dotElems f n a k ++ [f.decode (element n k a)]

/-- A float dot product: the accumulator and all products summed exactly, with one rounding (R163). Infinities of both signs among the
terms give NaN with NV, as they would in a sum (R46, R67 name only inf * 0; DESIGN CHOICE, log entry 110). -/
def dotFloat (f : Fmt) (n count : Nat) (m : FMode) (a b c : Nat) : Nat × FFlags :=
  let acc := fmtF32.decode c
  let (ps, fl) := mulVals (dotElems f n a count) (dotElems f n b count)
  let (v, fl') := sumVals m.rnd (acc :: ps)
  fmtF32.result m v (fl ||| fl' ||| sigFlag [acc])

/-- DOT4 and DOT8 by element type. -/
def opDot (m : FMode) (t : Ty) (a b c : Nat) : Nat × FFlags :=
  match tyFmt t with
  | some f => dotFloat f (tyWidth t) (32 / tyWidth t) m a b c
  | none => fit (dotIntTy t) m.sat (intVal (dotIntTy t) c + dotInt t a b 4)

/-! ## CVT (R162) and immediates (R145, R157) -/

/-- CVT of one value: the pattern at the destination and its flags. -/
def convert (src dst : Ty) (m : FMode) (a : Nat) : Nat × FFlags :=
  let a := a % 2 ^ tyWidth src
  match tyFmt src, tyFmt dst with
  | none, none => fit dst m.sat (intVal src a)
  | none, some f => convertTo f m (.fin (Dyad.ofInt (intVal src a)))
  | some f, none =>
    let (i, fl) := floatToInt m.rnd (tySigned dst) (tyWidth dst) (f.operand m.ftz a)
    (wrapInt (tyWidth dst) i, fl)
  | some f, some g =>
    let v := f.operand m.ftz a
    if src = dst then
      match v with
      | .nan s => (g.nanCode, flagIf s flagNV)
      | v => (if v.isZero && a % 2 ^ (f.ebits + f.mbits) != 0 then f.withSign v.isNeg 0 else a, 0)
    else convertTo g m v

/-- IMM20 as an operand of the type (R145, R157). -/
def immOperand (t : Ty) (imm : BitVec 20) : Nat :=
  match tyFmt t with
  | some f => (f.round .rn false false (Dyad.ofInt imm.toInt)).1
  | none => wrapInt (tyWidth t) imm.toInt

end Sys2Proof.Machine
end

