-- ==== Sys2Proof/Config.lean ====
section
/-! DEFINITION. What the device fixes, and the values that the spec leaves open (free values: opaque, with no
value that a proof could use). -/

namespace Sys2Proof.Config

/-- A 256-bit random key that Glomel draws (14 R429), by the counter of free values (log entry 5). -/
opaque freeKey : Nat → BitVec 256

/-- The fused security version, below which a firmware image is refused (14 R432; log entry 14). -/
opaque fusedVersion : Nat

/-- A byte of a context image that cannot be read back, by the counter of free values and its address (11 R363; log
entries 5 and 69). -/
opaque freeByte : Nat → Nat → Byte

/-- Up, width and IDE state of host ports 0 and 1 and CXL ports 0 to 7 as RESYNC reports them (14 R439): the link layers are
outside the model (log entries 14 and 85). -/
opaque linkStatus : Nat → Quad

/-- The L2 slice of a line on its compute die (06 R186), its home slice on its Sill die (01 R23), and its set in a Sill
(06 R187), by its line number: hashes that the spec does not give (log entry 99). -/
opaque l2Slice : Nat → Fin 24
opaque homeSlice : Nat → Fin 32
opaque sillSet : Nat → Fin 262144

/-- The capacity of each CXL expander in bytes, at most the 512 GiB of its window (01 R23, R29): installed, not given (DESIGN
CHOICE, log entry 117). -/
opaque expanderBytes : Nat → Nat

/-- Clusters on a compute die, compute dies and Sill dies (01 R12, R13). -/
def clustersPerDie : Nat := 24
def clusters : Nat := 192
def computeDies : Nat := 8
def sillDies : Nat := 4
def partitionsPerCluster : Nat := 4

/-- A byte of memory that nothing has written (log entry 3, DESIGN CHOICE, unsafe). -/
def unwrittenByte : Byte := 0

/-- Ticks of 1/1638 ns in an issue clock period at steps P0 to P5 (01 R16): 1.4, 1.3, 1.2, 1.05, 0.9 and 0.7
GHz divide 1,638,000 evenly. -/
def ticksPerNs : Nat := 1638

def periodTicks (step : Nat) : Nat :=
  match step with
  | 0 => 1170
  | 1 => 1260
  | 2 => 1365
  | 3 => 1560
  | 4 => 1820
  | _ => 2340

end Sys2Proof.Config
end

