-- ==== Sys2Proof/Machine/Bits.lean ====
section
/-! DEFINITION. Sparse numbered stores, byte order (00 R3) and the CRC-64 of 07 R231. -/

namespace Sys2Proof.Machine

/-! ## Stores numbered by naturals -/

/-- The value at a key, or the default. -/
def smGet {α : Type} (d : α) (k : Nat) : SMap α → α
  | [] => d
  | (j, x) :: m => if j = k then x else smGet d k m

/-- The value at a key, if there is one. -/
def smFind {α : Type} (k : Nat) : SMap α → Option α
  | [] => none
  | (j, x) :: m => if j = k then some x else smFind k m

/-- The store without a key. -/
def smDel {α : Type} (k : Nat) : SMap α → SMap α
  | [] => []
  | (j, x) :: m => if j = k then smDel k m else (j, x) :: smDel k m

/-- The store with a value at a key. -/
def smSet {α : Type} (k : Nat) (x : α) : SMap α → SMap α
  | [] => [(k, x)]
  | (j, y) :: m => if j = k then (k, x) :: m else if k < j then (k, x) :: (j, y) :: m else (j, y) :: smSet k x m

/-- The store with a value at a key, where an absent key reads as `d`. -/
def smPut {α : Type} [DecidableEq α] (d : α) (k : Nat) (x : α) (m : SMap α) : SMap α :=
  if x = d then smDel k m else smSet k x m

/-- Keys rise strictly. -/
def smSorted {α : Type} : SMap α → Bool
  | [] => true
  | [_] => true
  | (j, _) :: (k, y) :: m => decide (j < k) && smSorted ((k, y) :: m)

/-- No value equals the default. -/
def smNoDefault {α : Type} [DecidableEq α] (d : α) (m : SMap α) : Bool := m.all fun p => decide (p.2 ≠ d)

/-- The store is in its one form. -/
def smWf {α : Type} [DecidableEq α] (d : α) (m : SMap α) : Bool := smSorted m && smNoDefault d m

/-- The least of lo, …, lo + n − 1 that satisfies a test. -/
def firstFrom (p : Nat → Bool) : Nat → Nat → Option Nat
  | 0, _ => none
  | n + 1, lo => if p lo then some lo else firstFrom p n (lo + 1)

/-! ## Bits and bytes -/

/-- Bits hi:lo of a number. -/
def bitsOf (n hi lo : Nat) : Nat := n / 2 ^ lo % 2 ^ (hi + 1 - lo)

def bitOf (n i : Nat) : Bool := n / 2 ^ i % 2 == 1

/-- A number with bits hi:lo replaced. -/
def setBits (n hi lo v : Nat) : Nat := n - bitsOf n hi lo * 2 ^ lo + v % 2 ^ (hi + 1 - lo) * 2 ^ lo

/-- Bytes, lowest address first, as a number. -/
def natOfBytes : List Byte → Nat
  | [] => 0
  | b :: bs => b.toNat + 256 * natOfBytes bs

/-- The k lowest bytes of a number, lowest first. -/
def bytesOfNat : Nat → Nat → List Byte
  | 0, _ => []
  | k + 1, n => BitVec.ofNat 8 n :: bytesOfNat k (n / 256)

/-- Bytes off, …, off + length − 1 of a list replaced. -/
def spliceBytes (bs : List Byte) (off : Nat) (new : List Byte) : List Byte :=
  bs.take off ++ new ++ bs.drop (off + new.length)

def alignDown (n a : Nat) : Nat := n / a * a

/-- The 128-byte line and the 32-byte sector of an address. -/
def lineOf (pa : Nat) : Nat := pa / 128
def sectorOf (pa : Nat) : Nat := pa / 32

/-- The lowest k keys of a mask that are set, as a list. -/
def maskList (m : Nat) : Nat → List Nat
  | 0 => []
  | k + 1 => maskList m k ++ (if bitOf m k then [k] else [])

/-! ## CRC-64 (07 R231): ECMA-182, initial value and final inversion all ones, most significant bit first -/

def crcPoly : Nat := 0x42F0E1EBA9EA3693

def crcStep : Nat → Nat → Nat
  | 0, c => c
  | k + 1, c => crcStep k (if c ≥ 2 ^ 63 then (c * 2) % 2 ^ 64 ^^^ crcPoly else c * 2)

def crcBytes : List Byte → Nat → Nat
  | [], c => c
  | b :: bs, c => crcBytes bs (crcStep 8 (c ^^^ (b.toNat * 2 ^ 56)))

/-- The hash of a transfer's bytes. -/
def crc64 (bs : List Byte) : Quad := BitVec.ofNat 64 (crcBytes bs (2 ^ 64 - 1) ^^^ (2 ^ 64 - 1))

/-- The hash of a line transfer: the line address, the interval, the data. -/
def lineHash (pa : Nat) (interval : Half) (data : List Byte) : Quad :=
  crc64 (bytesOfNat 8 pa ++ bytesOfNat 2 interval.toNat ++ data)

end Sys2Proof.Machine
end

