-- ==== Sys2Proof/Machine/State.lean ====
section
/-! DEFINITION. Everything the spec gives the machine, as plain data, and the machine after reset. Each
structure names the rules its fields come from; a sparse map (`SMap`) reads as the named default at a key it
does not hold. -/

namespace Sys2Proof.Machine

/-! ## Stops -/

/-- Stuck states: safe, since no hardware step is modelled where the machine does not run. -/
inductive Fault where
  /-- No engine but Glomel runs: the device has not left reset (14 R432). Raised by `step`. Safe. -/
  | heldInReset
  /-- Every clock but Glomel's is stopped after a thermal trip (01 R19). Raised by `step`. Safe. -/
  | clocksStopped
  deriving DecidableEq, Repr

/-- Why a meaning gives no outcome. -/
inductive Refusal where
  /-- The model has no meaning for the instruction. Raised by `exec`. Safe. -/
  | notModelled (mnemonic : String)
  /-- An instruction is asked of a machine in which no gang is issuing; a program reaches it only through
  `step`, which always names the gang. Raised by the meanings. Safe. -/
  | noIssuingGang
  deriving DecidableEq, Repr

/-! ## Slices (03 R88 to R96, 04) -/

/-- A register that an instruction names (03 R88). -/
inductive Reg where
  | v (n : Nat)
  | s (n : Nat)
  | p (n : Nat)
  deriving DecidableEq, Repr

/-- One value for one register of one lane; a scalar uses lane 0, a predicate the lowest bit. -/
structure RegWrite where
  reg : Reg
  lane : Nat
  val : Word
  deriving DecidableEq, Repr

/-- What a fault reports (04 R140, R440). -/
structure FaultInfo where
  cause : Nat
  sub : Nat
  lanes : Nat
  addr : Quad
  deriving DecidableEq, Repr

/-- A pending destination (03 R93): the window left, and what its completion will do once that is known. -/
structure Pending where
  pid : Nat
  regs : List Reg
  window : Nat
  pc : Quad
  inst : Word
  result : Option (List RegWrite)
  flags : FFlags
  fault : Option FaultInfo
  /-- A TRD still in its team's queue: a forced save leaves it pending (03 R95). -/
  queued : Bool
  deriving DecidableEq, Repr

/-- What holds a slice out of the ready set, or stalls it (04 R112). -/
inductive Wait where
  | none
  /-- Waits at a REGANG, or at the implicit one of a bent-scope instruction (04 R114, R115). -/
  | regang (explicit : Bool)
  /-- The bent-scope instruction may issue once for the slices released together (R115). -/
  | released
  /-- BARW on a barrier word: half, offset in it, phase operand (08 R265). -/
  | barrier (half off : Nat) (phase : Bool)
  /-- GBARW on a group slot (08 R275). -/
  | group (slot : Nat) (phase : Bool)
  /-- Waits with its gang and contributes no condition (08 R265). -/
  | along
  /-- The wait is satisfied: the gang is ready again at this clock of its partition, and acquires (08 R266). -/
  | wake (clock : Nat) (scope : Scope)
  /-- Past a barrier arrival, waits until its gang's arrivals have been counted or rejected (08 R263). -/
  | arrival (group : Nat)
  /-- The hold of YIELD, until this issue clock of the partition (R119). -/
  | hold (until_ : Nat)
  /-- A recoverable fault: the records waited on, the lanes and the lowest one's address (06 R175, R177). -/
  | fault (fids : List Nat) (lanes : Nat) (addr : Quad)
  /-- Holds issue until an operation ends (FENCE.sc, SEAL, CHKR, ICINV). -/
  | op (id : Nat)
  /-- Past a QUIET (08 R285): scope, phase tag, and the sources that have not reported zero since. -/
  | quiet (scope : Scope) (tag : Bool) (left : List Nat)
  /-- Stalled at a TLWT (09 R308): timeline index and value. -/
  | timeline (index : Nat) (value : Quad)
  /-- Tokens named by WK, WAITK or the instruction itself (03 R96). -/
  | token (mask : BitVec 8)
  /-- A stall of another kind: the gang tries again at each clock. -/
  | retry
  /-- The same, on a pending destination whose window is spent (03 R94). -/
  | pending
  deriving DecidableEq, Repr

/-- A trap that waits for pending destinations (04 R139). -/
structure TrapWait where
  info : FaultInfo
  tpc : Quad
  tfpc : Quad
  inst : Word
  gmask : BitVec 8
  deriving DecidableEq, Repr

/-- The trap state 0x020 to 0x02B (04 R140). -/
structure TrapRegs where
  cause : BitVec 8
  sub : BitVec 8
  lanes : BitVec 4
  tpc : Quad
  tfpc : Quad
  taddr : Quad
  texec : BitVec 4
  tinst : Word
  tgmask : BitVec 8
  tscr : Word
  tcount : Word
  deriving DecidableEq, Repr

/-- The class codes of 07 R241. -/
inductive OpClass where
  | l | s | m | a | r | x | q | none
  deriving DecidableEq, Repr

/-- The offending operation of a violation, as the containment record names it (07 R241). -/
structure Offender where
  id : Nat
  cls : OpClass
  pa : Nat
  interval : Nat
  done : Bool
  deriving DecidableEq, Repr

/-- A violation that taints a slice (07 R234): its code, the checker, and the offending operation. -/
structure Taint where
  viol : Nat
  checker : ScribeId
  off : Option Offender
  deriving DecidableEq, Repr

/-- One slice of a resident team. -/
structure Slice where
  /-- v registers: key 4 × register + lane, default 0. -/
  v : SMap Word
  /-- s registers, default 0. -/
  s : SMap Word
  /-- Predicates: bit 4 × predicate + lane; p7 reads 1. -/
  preds : BitVec 32
  exec : BitVec 4
  pc : Quad
  tokens : BitVec 8
  /-- The scope of the operation that a token tracks or last tracked (03 R96, 07 R215); default: none. -/
  tokenScope : SMap Scope
  fflags : FFlags
  trap : TrapRegs
  tmode : Bool
  pend : List Pending
  wait : Wait
  trapWait : Option TrapWait
  /-- EXIT executed; the slice ends once nothing is pending (R129). -/
  exiting : Bool
  exited : Bool
  /-- Stopped for good by a fatal trap or a kill (04 R141). -/
  stopped : Bool
  /-- Physical slot, and the slot a move is bound for (R108, R122). -/
  slot : Nat
  moveTo : Option Nat
  /-- Current phase tag (08 R283). -/
  tag : Bool
  /-- Drop records: barrier offsets (08 R264). -/
  drops : List Nat
  taint : Option Taint
  /-- The fill epoch of its cluster's L1 that its last acquire at die scope or wider opened (07 R228). -/
  acqEpoch : Nat
  deriving DecidableEq, Repr

/-- A gang (04 R109): its slices by logical index, its waiting count and the clock from which it may issue. -/
structure Gang where
  mask : BitVec 8
  waiting : Nat
  readyAt : Nat
  deriving DecidableEq, Repr

/-- The gang that is issuing. -/
structure GangRef where
  tid : Nat
  bent : Nat
  mask : BitVec 8
  deriving DecidableEq, Repr

/-! ## Teams (03 R104 to R107, 04 R138) -/

structure Role where
  bents : Nat
  vregs : Nat
  deriving DecidableEq, Repr

/-- A kernel descriptor (03 R104). -/
structure Desc where
  code : Quad
  entry : Nat
  /-- 0xFFFF_FFFF for none. -/
  handler : Nat
  bents : Nat
  vregs : Nat
  roles : List Role
  pair : Bool
  isolated : Bool
  composite : Bool
  groups : Nat
  acc : Nat
  scratch : Nat
  plate : Nat
  deriving DecidableEq, Repr

/-- A tile command in its team's queue (10 R322). `kind` 0 TMMA, 1 TZRO, 2 TRD, 3 TWR, 4 TSTO; a TMMA with no token is
a follow-on. `block` is the command block; `imm` the tile and block numbers; `lanes` the lanes of a TRD or TWR, slice and
lane, and `data` the registers that each gives to TWR; `pids` the pending destinations of a TRD. -/
structure TileCmd where
  id : Nat
  kind : Nat
  ref : SliceRef
  token : Option Nat
  block : List Word
  imm : Nat
  ta : Ty
  tc : Ty
  flg : Nat
  lanes : List (Nat × Nat)
  data : List (List Word)
  pids : List (Nat × Nat)
  dreg : Nat
  /-- The barrier word that its completion names, and a mark by BARX or BARI (08 R267, R268). -/
  bar : Option (Nat × Nat)
  marked : Bool
  pc : Quad
  inst : Word
  tag : Bool
  /-- The clock of its partition in which a slice issued it, plus 1; 0 for a follow-on. -/
  clock : Nat
  deriving DecidableEq, Repr

/-- Where the head command stands (10 R329, R332). `phase` 0 not begun, 1 LOAD, 2 STREAM, 3 WB, 4 DONE; `slab` the
columns of the loaded B slab, `rows` the values of the streamed rows of A; `started` while it holds the engine. -/
structure TileSeq where
  chunk : Nat
  group : Nat
  phase : Nat
  started : Bool
  slab : List (List Byte)
  /-- The slab of the next chunk, loaded alongside; none while it is empty. -/
  next : List (List Byte)
  rows : List (List FVal)
  flags : FFlags
  sub : Nat
  failva : Nat
  waits : List Nat
  deriving DecidableEq, Repr

structure Team where
  hp : Nat
  ctx : Nat
  launch : Nat
  /-- Clusters of half 0 and, for a pair team, half 1 (01 R13). -/
  cluster : Nat
  cluster1 : Nat
  desc : Desc
  x : Nat
  y : Nat
  z : Nat
  gx : Nat
  gy : Nat
  gz : Nat
  args : Quad
  /-- g0 to g3: index in the launch's group entries, 0xFFFF for none (08 R273). -/
  groups : List Nat
  counters : SMap Quad
  pmsel : SMap Word
  /-- The next trap log record number (04 R142). -/
  logN : Nat
  /-- Scratchpad: key half × 2^20 + offset, default 0. -/
  scratch : SMap Byte
  /-- Barrier words' shadow bits PAIRED and REMOTE (08 R271): key half × 2^20 + offset. -/
  paired : SMap Bool
  remote : SMap Bool
  /-- Group slots that have arrived and that have dropped (08 R274). -/
  arrived : BitVec 4
  dropped : BitVec 4
  /-- HALFDONE messages on their way: the half that receives, the offset (08 R272). -/
  halfdone : List (Nat × Nat)
  /-- Plate reservation: key half × 2^24 + offset, default 0. -/
  plate : SMap Byte
  /-- Accumulator tiles: key half × 2^24 + tile × 2^16 + offset, default 0. -/
  tiles : SMap Byte
  tileQ : List TileCmd
  tileQ1 : List TileCmd
  seq : TileSeq
  seq1 : TileSeq
  /-- A fatal trap or a kill has stopped the team (04 R141, 11 R365); `cause` as the kill record names it. -/
  stopped : Bool
  killed : Option Nat
  inError : Bool
  ended : Bool
  /-- A forced save has taken the team off the device; the offset of its record in the image (11 R361). -/
  away : Bool
  imageOff : Nat
  /-- A forced save has stopped its slices (11 R359). -/
  held : Bool
  deriving DecidableEq, Repr

/-! ## Memory (01 R28, 06, 07) -/

/-- State of a line that an L2 holds (07 R214); I is a line that it does not hold. -/
inductive Coh where
  | m | o | e | s
  deriving DecidableEq, Repr

/-- A line in the L2 of a compute die (06 R186): its state, the sectors held, the KEYID that filled it (07 R256), and
whether it has the lowest replacement priority (06 R185). -/
structure L2Line where
  line : Nat
  st : Coh
  sectors : BitVec 4
  key : Nat
  low : Bool
  deriving DecidableEq, Repr

/-- A line in the Sill of a Sill die (06 R187). -/
structure SillLine where
  line : Nat
  way : Nat
  sectors : BitVec 4
  key : Nat
  retain : Bool
  dirty : Bool
  deriving DecidableEq, Repr

/-- A line transfer whose receiver has not checked it yet (07 R232). `unit`: 0 to 7 the L2 of a compute die, 8 to 11 the
homes of a Sill die, 12 and 13 a far home, 16 on the atomic units of a stack. -/
structure Xfer where
  line : Nat
  unit : Nat
  interval : Half
  write : Bool
  client : Client
  deriving DecidableEq, Repr

/-- Interval, writer and readers of a line (07 R230), with the narrow holders of R222: cluster and team. -/
structure LineState where
  interval : Half
  writer : Option Nat
  readers : List Nat
  narrow : List (Nat × Nat)
  deriving DecidableEq, Repr

/-- A translation held by a TLB (06 R171). -/
structure TlbEntry where
  hp : Nat
  ctx : Nat
  glob : Bool
  va : Nat
  size : Nat
  pa : Nat
  r : Bool
  w : Bool
  x : Bool
  dirty : Bool
  msa : Bool
  keyid : Nat
  fmt : Nat
  geom : Nat
  deriving DecidableEq, Repr

/-- A recoverable fault that has not been answered (06 R175, R176); its tag once its record has been posted. -/
structure FaultRec where
  fid : Nat
  hp : Nat
  ctx : Nat
  level : Nat
  va : Nat
  mig : Bool
  access : Nat
  source : Nat
  unit_ : Nat
  team : Nat
  bent : Nat
  slice : Nat
  tag : Option Nat
  deriving DecidableEq, Repr

/-- Stores that wait in a cluster's L1 write buffer (06 R184). -/
structure WbEntry where
  op : Nat
  pa : Nat
  key : Nat
  data : List Byte
  /-- Held back by ORDINJ until this operation arrives (07 R246). -/
  heldBy : Option Nat
  deriving DecidableEq, Repr

/-- A sector of an L1 (06 R184): the KEYID that filled it (07 R256) and its 32 bytes. -/
structure L1Sector where
  sec : Nat
  key : Nat
  data : List Byte
  deriving DecidableEq, Repr

/-- A line of an instruction cache (07 R254): the KEYID that filled it and its 128 bytes. -/
structure IcLine where
  key : Nat
  data : List Byte
  deriving DecidableEq, Repr

/-- One cluster's L1 (06 R183, R184): its sectors, oldest first, the write buffer, the instruction cache by line, and the
fill epoch, which each invalidation raises (07 R228). -/
structure L1 where
  sectors : List L1Sector
  wbuf : List WbEntry
  icache : SMap IcLine
  epoch : Nat
  deriving DecidableEq, Repr

/-- A Sill way converts to vault (06 R190). -/
structure Vault where
  vault : BitVec 16
  busy : BitVec 16
  deriving DecidableEq, Repr

/-- Records of an open deferred window (07 R233): (line, interval, writer?, holder), and the slice whose operation caused
the grant. -/
structure WinRec where
  line : Nat
  interval : Half
  write : Bool
  holder : Nat
  cause : Option SliceRef
  deriving DecidableEq, Repr

/-- The deferred records of a home Scribe and of a requester's since a time in ns; `bad` those of a closed window whose
hashes differed, which wait to be exchanged. -/
structure ScribeWin where
  home : ScribeId
  peer : ScribeId
  since : Nat
  homeRecs : List WinRec
  peerRecs : List WinRec
  bad : List WinRec
  deriving DecidableEq, Repr

/-- One lane's part of a memory operation. -/
structure Elem where
  lane : Nat
  va : Quad
  pa : Nat
  key : Nat
  size : Nat
  data : List Byte
  cmp : List Byte
  deriving DecidableEq, Repr

/-- A lane of a DEC load: the format and geometry of its page, the element's index, and its address (06 R194). -/
structure DecLane where
  lane : Nat
  fmt : Nat
  geom : Nat
  idx : Nat
  va : Nat
  deriving DecidableEq, Repr

/-- What an outstanding operation is. -/
inductive OpKind where
  | load (ty : Ty) (sc : Bool) (dst : Nat)
  /-- A DEC load that waits for a memory-side unit or the host: the lanes, each with its page's format and geometry and the
  element's index (06 R194, R203). -/
  | dec (ty : Ty) (dst : Nat) (lanes : List DecLane)
  | store
  | atomic (aop : Nat) (ty : Ty) (dst : Nat)
  | gather (ty : Ty) (dst : Nat)
  | scatter
  | fence (ord : Nat)
  | seal
  | chkr
  | icinv
  /-- BARA 0, BARAD 1, BARI 2, BARX 3 on a word: half and offset, the modifier .bent or .pair, and the value of
  BARI (08 R262, R263, R267). -/
  | barrier (what half off : Nat) (flag : Bool) (v : Quad)
  /-- GBARA, GBARD. -/
  | group (slot : Nat) (drop : Bool)
  /-- QPSH, QPOP, QST: queue, destination group, predicate (08 R279, R280). -/
  | push (q pred : Nat)
  | pop (q dst pred : Nat)
  | stat (q dst : Nat)
  /-- The issue of a copy (09 R303), by its number. -/
  | copyIssue (cid : Nat)
  /-- NODEGO: the graph and the node (11 R357). -/
  | nodego (addr : Quad)
  /-- RLD, RST, RATM, RFNC (12 R373) by their op: the destination, the type, the status predicate. -/
  | remote (op dst : Nat) (ty : Ty) (sp : Option Nat)
  /-- DVT, COLL: the start release of a collective (13 R414), by its number. -/
  | collIssue (oid : Nat)
  /-- A team's end (11 R364). -/
  | teamEnd
  deriving DecidableEq, Repr

/-- An outstanding operation of a slice: what the Square records of it (07 R225), and where it stands. -/
structure Op where
  id : Nat
  ref : SliceRef
  cls : OpClass
  scope : Scope
  kind : OpKind
  elems : List Elem
  /-- The page is MSA, or the line a host line (06 R191, R203). -/
  msa : Bool
  host : Bool
  /-- The widest scope acknowledged for each line, and for all of them. -/
  acks : SMap Scope
  acked : Option Scope
  performed : Bool
  /-- A release held pending-seal at its perform point, with the operations that lacked their
  acknowledgement when it was dispatched (07 R226, R227). -/
  arrived : Bool
  lacking : List Nat
  injected : Bool
  /-- A failed transfer left it without acknowledgement for good (07 R234). -/
  failed : Bool
  pid : Option Nat
  pc : Quad
  inst : Word
  /-- The interval of each line that the operation observed or opened. -/
  ints : SMap Half
  /-- The fill epoch of the L1 sectors that served a load, and the epoch that its slice's acquires ask for (07 R228). -/
  epoch : Option Nat
  need : Nat
  tag : Bool
  /-- Results gathered so far, lanes found poisoned, and the status of each remote lane (12 R377). -/
  got : List (Nat × List Byte)
  poisoned : Nat
  stat : List (Nat × Nat)
  /-- The Square has sealed a remote release, and its requests may be sent (12 R379). -/
  clear : Bool
  /-- The gang issue that a barrier arrival belongs to, or the request of a gather (06 R201): the number of its first
  operation. -/
  grp : Nat
  deriving DecidableEq, Repr

/-- The checker registers of a hard partition (07 R243 to R251). -/
structure HpCheck where
  sqobs : Bool
  scobs : Bool
  lock : Bool
  ordinj : Quad
  ordinjva : Quad
  sdva : Quad
  sdBusy : Bool
  sdErr : Bool
  sdDone : Word
  chkcnt : SMap Quad
  /-- The µs in which each checker last recorded in OBSERVE mode (07 R240): key 1,024 × kind + instance, µs + 1. -/
  obsAt : SMap Nat
  /-- Operations that used a removed translation and must perform before the shoot-down ends (R252). -/
  sdOps : List Nat
  deriving DecidableEq, Repr

/-- A range scoreboard entry (06 R182): the copy, the cluster and team whose SRAM it bounds, scratchpad or Plate,
the half, destination or source, and the byte interval. -/
structure ScoreRange where
  cid : Nat
  tid : Nat
  plate : Bool
  half : Nat
  dest : Bool
  lo : Nat
  hi : Nat
  deriving DecidableEq, Repr

/-- A page migration (06 R205 to R209). `stage` 1 LOCK to 7 FREE. -/
structure Migration where
  mid : Nat
  eid : Nat
  hp : Nat
  ctx : Nat
  va : Nat
  newpa : Nat
  npages : Nat
  newtier : Nat
  newmsa : Bool
  /-- The page being moved, its size code, its old frame and entries as read at the start. -/
  page : Nat
  sz : Nat
  oldpa : Nat
  entries : List (Nat × Nat)
  stage : Nat
  held : List HeldAccess
  heldNew : List HeldAccess
  /-- The far die whose engine moves it (01 R23). -/
  die : Nat
  /-- The operations that used the page's old translation when it was shot down. -/
  uses : List Nat
  /-- A violation that a transfer of the page has shown (07 R236). -/
  lost : Option Nat
  /-- What stood at the new location: lines, their bytes, and their poisoned sectors (R209). -/
  before : List (Nat × List Byte × BitVec 4)
  tag : Bool
  deriving DecidableEq, Repr

/-! ## Context control blocks (11 R340) -/

structure Ccb where
  en : Bool
  ptag : Bool
  migth : BitVec 3
  tlogon : Bool
  /-- 0 idle, 1 running, 2 draining, 3 saved. -/
  state : Nat
  err : Bool
  ptroot : Nat
  fqbase : Quad
  fqlog : Nat
  fqwr : Word
  fqrd : Word
  tlog : Quad
  tltab : Quad
  tlcnt : Nat
  qtab : Quad
  qcnt : Nat
  elog : Quad
  ellog : Nat
  elwr : Word
  drainlim : Word
  imgbase : Quad
  imglen : Quad
  rsvcl : BitVec 192
  deriving DecidableEq, Repr

/-! ## Device registers (14) -/

/-- A key slot (14 R428, R429): 0 EMPTY, 1 LOADED, 2 DESTROYED; `draw` is the free value's number of a drawn
key, `imported` the handle of an imported one. -/
structure KeySlot where
  st : Nat
  part : Nat
  draw : Nat
  imported : Option Nat
  deriving DecidableEq, Repr

/-- A trusted device interface (14 R431): 0 CONFIG_UNLOCKED, 1 CONFIG_LOCKED, 2 RUN, 3 ERROR. -/
structure Tdi where
  st : Nat
  slots : List Nat
  deriving DecidableEq, Repr

/-- A raised interrupt: port, function, MSI-X vector. -/
structure Irq where
  port : Nat
  fn : Nat
  vec : Nat
  deriving DecidableEq, Repr

/-- A pseudo-channel's self-refresh policy (14 R437); `idleFrom` is the tick from which it has been idle. -/
structure Srpol where
  mode : Nat
  insr : Bool
  idle : Nat
  idleFrom : Nat
  /-- MODE 2 has been left by a request since MODE was written. -/
  spent : Bool
  deriving DecidableEq, Repr

structure Dev where
  fnmap : SMap Quad
  irqvec0 : Quad
  irqvec1 : Quad
  plan : Nat
  planBusy : Bool
  planErr : Bool
  cxlown : Half
  lmown : Word
  keys : SMap KeySlot
  keyBusy : Bool
  keyErr : Bool
  /-- Slots whose destruction has not ended (14 R430). -/
  keyDoomed : List Nat
  /-- The SPDM sessions' key handles (14 R429), by session handle. -/
  handles : List Nat
  tdis : SMap Tdi
  /-- Glomel: which instance is active, whether the device has left reset, the BOOTFAIL pin, answers given. -/
  glActive : Nat
  booted : Bool
  bootFail : Bool
  attested : Nat
  glpol : Quad
  /-- PSTEP: commanded steps (key die, default 0), dies that relock, held writes, ERR. -/
  steps : SMap Nat
  relock : SMap Bool
  stepHeld : SMap Nat
  stepErr : Bool
  therm : Quad
  /-- Every clock but Glomel's is stopped. -/
  tripped : Bool
  srpol : SMap Srpol
  errcnt : SMap Quad
  rsbase : Nat
  rsBusy : Bool
  rsErr : Bool
  irqs : List Irq
  /-- A security alarm holds the device in reset (14 R434). -/
  alarmHold : Bool
  /-- Host accesses that wait for a line or a page that is held, or behind one that does, oldest first. -/
  hostq : List HostWrite
  /-- What the host's last read, or the last AtomicOp, returned to it (01 R29, 14 R424). -/
  hostData : List Byte
  deriving DecidableEq, Repr

/-! ## Clocks -/

structure Clock where
  /-- Device time in ticks of 1/1638 ns. -/
  ticks : Nat
  /-- Issue clocks: key 4 × cluster + partition, default 0. -/
  part : SMap Nat
  /-- Issue clocks of a compute die since reset (04 R137), and the device tick they have reached. -/
  die : SMap Nat
  dieTicks : SMap Nat
  /-- The partition whose turn is next when no step is due. -/
  turn : Nat
  deriving DecidableEq, Repr

/-- What the partitions remember of issue: the last-issued gang (04 R117), keyed as `Clock.part`, and the clock at work. -/
structure Issue where
  last : SMap GangRef
  /-- The gangs issuing in this clock: the selected one and those fused with it (R117, R120). -/
  now : List GangRef
  /-- The partition in which they issue, or whose clock is open. -/
  part : Nat
  /-- A clock of the partition is open, and its gang is still to be chosen (R117). -/
  opened : Bool
  /-- Several gangs issue in this clock, as one composite issue (R120). -/
  fused : Bool
  /-- What stalled the gang that tried last (R109). -/
  stalled : Option Wait
  /-- The clock that each partition gives to the second half of an f64 instruction (05 R148): keyed as `Clock.part`. -/
  second : SMap Nat
  deriving DecidableEq, Repr

structure MemSys where
  /-- Physical memory: rising addresses, no byte that an unlisted address reads as. -/
  bytes : List Host.Cell
  /-- Poisoned sectors (06 R188). -/
  poison : SMap Bool
  lines : SMap LineState
  l1 : SMap L1
  /-- The lines of each compute die's L2, oldest first, and of each Sill (06 R186, R187). -/
  l2 : SMap (List L2Line)
  sill : SMap (List SillLine)
  /-- Line transfers still to be checked, oldest first (07 R232). -/
  xfers : List Xfer
  /-- Copies whose interval a Scribe has marked not current (07 R228): line and compute die. -/
  notCurrent : List (Nat × Nat)
  /-- Numbered messages sent and performed (07 R237): key 16 × cluster + home. -/
  seqTx : SMap Half
  seqRx : SMap Half
  /-- The L1 TLB of each cluster and the L2 TLB of each compute die, newest first (06 R171). -/
  l1tlb : SMap (List TlbEntry)
  l2tlb : SMap (List TlbEntry)
  /-- Set within a step that has met a line held pending-seal or a page in motion (06 R207, 07 R226): the step is not made. -/
  blocked : Bool
  faults : List FaultRec
  nextTag : Half
  ops : List Op
  nextOp : Nat
  vaults : SMap Vault
  windows : List ScribeWin
  /-- Interval last known to a unit of a line: key line × 2^8 + unit (07 R232). -/
  known : SMap Half
  migs : List Migration
  /-- Forced publishes that holders have yet to make: cluster and team (07 R223). -/
  publish : List (Nat × Nat)
  ranges : List ScoreRange
  deriving DecidableEq, Repr

/-- A group barrier entry (08 R273, R274): a barrier word counted in teams. -/
structure GroupEntry where
  expected : Nat
  pending : Nat
  next : Nat
  phase : Bool
  deriving DecidableEq, Repr

/-- A hardware task queue (08 R277): its control record, the on-chip ring oldest first, and the spill ring's oldest
index and length. -/
structure Queue where
  valid : Bool
  err : Bool
  ctx : Nat
  splog : Nat
  spbase : Quad
  ring : List (List Byte)
  shead : Nat
  scount : Nat
  deriving DecidableEq, Repr

structure SyncSys where
  queues : SMap Queue
  /-- Live group entries by launch (08 R274). -/
  groups : SMap (List GroupEntry)
  deriving DecidableEq, Repr

/-! ## Copy engines (09) -/

/-- A tile descriptor (09 R295): element size, extents, source and destination strides. -/
structure TileDesc where
  es : Nat
  ext : List Nat
  sstr : List Int
  dstr : List Int
  deriving DecidableEq, Repr

/-- Where a convert stands (09 R294): the next element to write; its place in half bytes from SRC, with the elements of a source
segment that are used, and from DST; and where the last chunk ended. -/
structure CvtPos where
  idx : Nat
  src : Nat
  seg : Nat
  dst : Nat
  mark : Nat
  deriving DecidableEq, Repr

/-- A copy that an engine holds (09 R293, R301 to R306). `op` 0 plain, 1 tile, 2 reduce, 3 convert; spaces 0 global,
1 scratchpad, 2 Plate. -/
structure Copy where
  cid : Nat
  engine : Nat
  hp : Nat
  ctx : Nat
  cls : Nat
  /-- The pool entry of a packet or node; none for an instruction. -/
  eid : Option Nat
  ref : SliceRef
  token : Nat
  op : Nat
  scope : Scope
  dsp : Nat
  ssp : Nat
  dst : Nat
  src : Nat
  len : Nat
  ety : Ty
  rop : Nat
  thresh : Nat
  desc : Option TileDesc
  tlid : Nat
  tlval : Quad
  /-- The barrier word its completion names: half and offset (08 R268). -/
  bar : Option (Nat × Nat)
  /-- Marked by BARX or BARI (08 R267). -/
  marked : Bool
  /-- The matrix command that CPYM captured, and the copy block, as a saved image holds them. -/
  follow : Option (List Word)
  block : List Word
  pc : Quad
  inst : Word
  tag : Bool
  /-- The Square has sealed its issue: it has reached its engine. -/
  started : Bool
  /-- The next chunk to send; for a reduce, the chunks of the segment that are applied, and its first (R314). -/
  next : Nat
  applied : List Nat
  segbase : Nat
  status : Nat
  failva : Nat
  /-- The first address at which poison was met (R312, R314). -/
  bad : Option Nat
  /-- An error stops its unsent chunks (R312). -/
  halted : Bool
  /-- Where a convert stands. -/
  pos : CvtPos
  /-- Fault records waited on, and a replay still to begin (R312, R313). -/
  waits : List Nat
  abandoned : Bool
  /-- Its follow-on has been placed, or waits for room (10 R322). -/
  placing : Bool
  /-- An arrival that a saved image has taken already (08 R287). -/
  arrived : Bool
  /-- A violation that a transfer of one of its chunks has shown, and the line (07 R236, R239). -/
  lost : Option (Nat × Nat)
  deriving DecidableEq, Repr

/-- What an engine remembers of one engine context: the class it visits, whether the visit has credited its quantum,
the deficits, the last copy served in each class (09 R299). -/
structure EngineCtx where
  visit : Nat
  credited : Bool
  deficit : List Nat
  last : List Nat
  deriving DecidableEq, Repr

/-- A SCRUB at work (09 R297). -/
structure Scrub where
  sid : Nat
  eid : Nat
  hp : Nat
  ctx : Nat
  addr : Nat
  nsect : Nat
  map : Nat
  recAddr : Nat
  engine : Nat
  next : Nat
  scanned : Nat
  /-- Sectors that this scrub has poisoned, and those that it has corrected, over all its runs. -/
  bad : List Nat
  fixed : List Nat
  newpoison : Nat
  oldpoison : Nat
  waits : List Nat
  tag : Bool
  deriving DecidableEq, Repr

structure CopySys where
  copies : List Copy
  engines : SMap EngineCtx
  /-- The engine context that each engine served last: key engine, 64 × hard partition + context + 1. -/
  lastCtx : SMap Nat
  scrubs : List Scrub
  deriving DecidableEq, Repr

/-! ## Work distributor (11) -/

/-- A user-mode queue as its context's queue table registered it (09 R290, 11 R341). -/
structure QueueReg where
  hdr : Nat
  rbase : Nat
  log2n : Nat
  bind : Bool
  engine : Nat
  vec : Nat
  fn : Nat
  port : Nat
  /-- The entry of the packet started last: the next one may have to wait for it (01 R37, 11 R350). -/
  prev : Option Nat
  deriving DecidableEq, Repr

/-- A packet or a graph node that has been admitted and has not completed (11 R351). `stage` 0 waits for its time,
1 ready, 2 waits for its prefetch, 3 dispatched, 4 started; `until_` the end of a prefetch or of a WAIT, in ns. -/
structure Entry where
  eid : Nat
  hp : Nat
  ctx : Nat
  /-- Graph and node, for a node. -/
  node : Option (Nat × Nat)
  /-- The queue that held the packet, or its GRAPH packet, and the packet index. -/
  q : Nat
  idx : Nat
  pkt : List Byte
  admitted : Nat
  ready : Nat
  level : Nat
  stage : Nat
  die : Nat
  engine : Nat
  until_ : Nat
  /-- PTAG as it stood at its dispatch (08 R283). -/
  tag : Bool
  deriving DecidableEq, Repr

/-- A KERNEL launch (11 R344). -/
structure Launch where
  lid : Nat
  eid : Nat
  hp : Nat
  ctx : Nat
  descVa : Nat
  desc : Desc
  gtab : Nat
  /-- The groups of each team, as the slot records name them, and the initial words. -/
  slots : List (List Nat)
  words : List Nat
  loaded : Bool
  gx : Nat
  gy : Nat
  gz : Nat
  args : Quad
  die : Nat
  next : Nat
  live : Nat
  killed : Bool
  /-- Offset of its record in a saved image. -/
  imageOff : Nat
  deriving DecidableEq, Repr

/-- A graph that runs (11 R347, R348). Node states: 0 not admitted, 1 admitted, 2 and 3 completed, well or in error,
with successors still to release, 4 and 5 the same with them released, 6 waits for room in the pool. -/
structure Graph where
  gid : Nat
  eid : Nat
  hp : Nat
  ctx : Nat
  q : Nat
  idx : Nat
  gobj : Nat
  nnode : Nat
  stopErr : Bool
  nodes : SMap Nat
  /-- Nodes to be skipped (R348), and the die pair on which a completed node ran, plus 1 (R353). -/
  skip : List Nat
  ran : SMap Nat
  deriving DecidableEq, Repr

structure DistSys where
  /-- Registered queues: key 65,536 × (64 × hard partition + context) + queue. -/
  queues : SMap QueueReg
  entries : List Entry
  launches : List Launch
  graphs : List Graph
  nextTeam : Nat
  /-- Teams of a saved context in the order of its image, and its copies (11 R360). -/
  savedTeams : SMap (List Nat)
  savedCopies : SMap (List Copy)
  /-- Contexts that a forced save has stopped, 1, or whose image is written, 2; and those that drain, with the time limit in ns. -/
  saving : SMap Nat
  drainEnd : SMap Nat
  deriving DecidableEq, Repr
/-! ## Matrix engines (10) -/

structure MatSys where
  /-- The team that each cluster engine served last (10 R323): key cluster, the team's place in the rotation + 1. -/
  last : SMap Nat
  deriving DecidableEq, Repr

/-! ## Fabric engine (12) -/

/-- A partition's fabric block (12 R367), with the route table as the far dies last read it (R368): entry d at key d. -/
structure HpFab where
  peer : Nat
  inc : Nat
  en : Bool
  rtbase : Nat
  evbase : Nat
  evlog : Nat
  evwr : Word
  reqto : Nat
  routes : SMap Nat
  deriving DecidableEq, Repr

/-- A context's fabric block (12 R369). -/
structure CtxFab where
  ptab : Quad
  wtab : Quad
  etab : Quad
  rxen : Bool
  deriving DecidableEq, Repr

/-- The part of a request that belongs to one lane of an operation: its first byte in the message, and how many. -/
structure ReqPart where
  op : Nat
  lane : Nat
  off : Nat
  n : Nat
  deriving DecidableEq, Repr

/-- A request that a far die holds (12 R387): outstanding under its tag, or waiting for an entry or for the operations
before it (07 R216). `sent` is the time at which it was sent, in ns. -/
structure Req where
  die : Nat
  tag : Nat
  hp : Nat
  ctx : Nat
  m : Msg
  parts : List ReqPart
  sent : Nat
  deriving DecidableEq, Repr

/-- A message on its way out of a port; a read response keeps its request, to be read again (12 R394, R396). -/
structure SentMsg where
  m : Msg
  req : Option Msg
  deriving DecidableEq, Repr

/-- A flit in the send window, with the messages that it carries (12 R386, R396). -/
structure WinFlit where
  flit : Flit
  msgs : List SentMsg
  lost : Bool
  deriving DecidableEq, Repr

/-- A Limop port (12 R383 to R393, 14 R436). `part` are the bytes of the flit being filled, `first` its first header,
`rest` what is left of the message begun last, `good` the last flit received good, `rxBytes` a message received in part;
`nak` 0 none, 1 held back, 2 sent, since `nakAt` ns. -/
structure Port where
  state : Nat
  txmap : Half
  rxmap : Half
  /-- What the other end accepts (R392). -/
  peerMap : Half
  txen : Half
  flits : Quad
  replay : Quad
  holes : Quad
  crcerr : Quad
  staledrop : Quad
  seccor : Quad
  queue : List SentMsg
  part : List Byte
  first : Nat
  partMsgs : List SentMsg
  rest : List Byte
  restMsg : List SentMsg
  nextSeq : Nat
  window : List WinFlit
  good : Nat
  rxBytes : List Byte
  nak : Nat
  nakAt : Nat
  peerStop : BitVec 4
  lastSent : Nat
  lastUnit : Nat
  deriving DecidableEq, Repr

/-- A request that waits at its responder (12 R390), since `since` ns. -/
structure HeldReq where
  hp : Nat
  m : Msg
  since : Nat
  deriving DecidableEq, Repr

/-- A response that the response cache keeps (12 R396), until `until_` ns. -/
structure CachedRsp where
  die : Nat
  m : Msg
  until_ : Nat
  deriving DecidableEq, Repr

/-- The fabric engine. Cached table entries are keyed by context and index; sequence numbers by (SPEER, SINC, DPEER, DINC):
the next to send, and the next to perform; `incs` the incarnation last seen of a peer plus 1, `oldIncs` those replaced. -/
structure FabSys where
  hps : SMap HpFab
  ctxs : SMap CtxFab
  peers : SMap Nat
  imports : SMap Nat
  exports : SMap Nat
  reqs : List Req
  waiting : List Req
  txSeq : SMap Nat
  rxSeq : SMap Nat
  held : List HeldReq
  incs : SMap Nat
  oldIncs : SMap (List Nat)
  cache : List CachedRsp
  ports : SMap Port
  /-- Peers whose isolation has been recorded: (partition, peer, incarnation). -/
  isolated : List (Nat × Nat × Nat)
  /-- STOP as a port set it last: key port. -/
  stop : SMap (BitVec 4)
  /-- Messages that have arrived whole and have not been taken, oldest first. -/
  inbox : List Msg
  deriving DecidableEq, Repr

/-! ## Collective engine (13) -/

/-- One member's part of a collective at a half (13 R400, R407 to R411). `stage` 0 not yet judged, 1 handshake, 2 data,
3 it may complete. `rec_` is the record or packet as a number. -/
structure CollOp where
  oid : Nat
  half : Nat
  hp : Nat
  ctx : Nat
  eid : Option Nat
  ref : SliceRef
  token : Nat
  nt : Bool
  pc : Quad
  inst : Word
  tag : Bool
  dove : Bool
  rec_ : Nat
  stage : Nat
  /-- Device time at posting, in ns (R401). -/
  posted : Nat
  fab : Bool
  members : List (Nat × Nat)
  /-- The incarnation of each member as the peer table gave it. -/
  incs : List Nat
  timeout : Nat
  map : Nat
  hash : Quad
  /-- CSETs held, by rank. -/
  csets : SMap (Option Quad)
  dones : List Nat
  /-- Bytes performed from each rank, and contributions combined into each segment (R418). -/
  got : SMap Nat
  segs : SMap Nat
  /-- CDATs that came before the data phase; finished segments still to be sent. -/
  early : List Msg
  toSend : List Nat
  /-- Own share performed, everything sent. -/
  sent : Bool
  /-- The switch has refused, or committed. -/
  nosw : Bool
  commit : Bool
  status : Nat
  missing : List Nat
  poison : Bool
  waits : List Nat
  deriving DecidableEq, Repr

/-- A CSET or an ABORT that no operation has claimed yet (13 R407), at `half` since `since` ns. -/
structure HeldColl where
  half : Nat
  m : Msg
  since : Nat
  deriving DecidableEq, Repr

structure CollSys where
  ops : List CollOp
  held : List HeldColl
  deriving DecidableEq, Repr


/-- The Stavnak S9. -/
structure State where
  /-- Steps of engines, host and wire that come next, in order (log entry 1). -/
  agenda : List Instr
  clk : Clock
  iss : Issue
  slices : SMap Slice
  gangs : SMap (List Gang)
  teams : SMap Team
  mem : MemSys
  sync : SyncSys
  copy : CopySys
  mat : MatSys
  dist : DistSys
  fab : FabSys
  coll : CollSys
  checks : SMap HpCheck
  /-- Context control blocks: key 64 × hard partition + context. -/
  ccbs : SMap Ccb
  dev : Dev
  /-- Counter of free values (log entry 5). -/
  free : Nat
  deriving DecidableEq, Repr

/-! ## After reset -/

def TrapRegs.zero : TrapRegs :=
  { cause := 0, sub := 0, lanes := 0, tpc := 0, tfpc := 0, taddr := 0, texec := 0, tinst := 0, tgmask := 0,
    tscr := 0, tcount := 0 }

/-- What a slice that no team has started reads as: it does not run. -/
def Slice.absent : Slice :=
  { v := [], s := [], preds := 0, exec := 0, pc := 0, tokens := 0, tokenScope := [], fflags := 0, trap := TrapRegs.zero,
    tmode := false, pend := [], wait := .none, trapWait := none, exiting := false, exited := true, stopped := false,
    slot := 0, moveTo := none, tag := false, drops := [], taint := none, acqEpoch := 0 }

def Desc.zero : Desc :=
  { code := 0, entry := 0, handler := 0, bents := 0, vregs := 0, roles := [], pair := false, isolated := false,
    composite := false, groups := 0, acc := 0, scratch := 0, plate := 0 }

def TileSeq.zero : TileSeq :=
  { chunk := 0, group := 0, phase := 0, started := false, slab := [], next := [], rows := [], flags := 0, sub := 0, failva := 0,
    waits := [] }

/-- What a team number reads as that no launch has used. -/
def Team.absent : Team :=
  { hp := 0, ctx := 0, launch := 0, cluster := 0, cluster1 := 0, desc := Desc.zero, x := 0, y := 0, z := 0, gx := 0,
    gy := 0, gz := 0, args := 0, groups := [], counters := [], pmsel := [], logN := 0, scratch := [], paired := [],
    remote := [], arrived := 0, dropped := 0, halfdone := [], plate := [], tiles := [], tileQ := [], tileQ1 := [], seq := TileSeq.zero, seq1 := TileSeq.zero,
    stopped := false, killed := none, inError := false, ended := true, away := false, imageOff := 0, held := false }

def LineState.fresh : LineState := { interval := 0, writer := none, readers := [], narrow := [] }

def L1.empty : L1 := { sectors := [], wbuf := [], icache := [], epoch := 0 }

def Vault.reset : Vault := { vault := 0, busy := 0 }

def HpCheck.reset : HpCheck :=
  { sqobs := false, scobs := false, lock := false, ordinj := 0, ordinjva := 0, sdva := 0, sdBusy := false,
    sdErr := false, sdDone := 0, chkcnt := [], obsAt := [], sdOps := [] }

def Clock.reset : Clock := { ticks := 0, part := [], die := [], dieTicks := [], turn := 0 }

def Issue.reset : Issue :=
  { last := [], now := [], part := 0, opened := false, fused := false, stalled := none, second := [] }

def MemSys.reset : MemSys :=
  { bytes := [], poison := [], lines := [], l1 := [], l2 := [], sill := [], xfers := [], notCurrent := [], seqTx := [],
    seqRx := [], l1tlb := [], l2tlb := [], blocked := false, faults := [], nextTag := 0, ops := [], nextOp := 1,
    vaults := [], windows := [], known := [], migs := [], publish := [], ranges := [] }

/-- DRAINLIM is 200 at reset (11 R340). -/
def Ccb.reset : Ccb :=
  { en := false, ptag := false, migth := 0, tlogon := false, state := 0, err := false, ptroot := 0, fqbase := 0,
    fqlog := 0, fqwr := 0, fqrd := 0, tlog := 0, tltab := 0, tlcnt := 0, qtab := 0, qcnt := 0, elog := 0, ellog := 0,
    elwr := 0, drainlim := 200, imgbase := 0, imglen := 0, rsvcl := 0 }

def KeySlot.empty : KeySlot := { st := 0, part := 0, draw := 0, imported := none }

def Tdi.reset : Tdi := { st := 0, slots := [] }

/-- IDLE is 1,000 at reset (14 R437). -/
def Srpol.reset : Srpol := { mode := 0, insr := false, idle := 1000, idleFrom := 0, spent := false }

/-- Reset values of 14: IRQVEC, PLAN 4, GLPOL (TAMPER 2, GLITCH 2, MISUSE 1, HASH 1); the others 0. -/
def Dev.reset : Dev :=
  { fnmap := [], irqvec0 := 0x0007000200010000, irqvec1 := 0x0000000200010000, plan := 4, planBusy := false,
    planErr := false, cxlown := 0, lmown := 0, keys := [], keyBusy := false, keyErr := false, keyDoomed := [],
    handles := [], tdis := [], glActive := 0, booted := false, bootFail := false, attested := 0,
    glpol := 0x5A, steps := [], relock := [], stepHeld := [], stepErr := false, therm := 0, tripped := false,
    srpol := [], errcnt := [], rsbase := 0, rsBusy := false, rsErr := false, irqs := [],
    alarmHold := false, hostq := [], hostData := [] }

def Queue.reset : Queue :=
  { valid := false, err := false, ctx := 0, splog := 0, spbase := 0, ring := [], shead := 0, scount := 0 }

def SyncSys.reset : SyncSys := { queues := [], groups := [] }

def CvtPos.zero : CvtPos := { idx := 0, src := 0, seg := 0, dst := 0, mark := 0 }

def EngineCtx.reset : EngineCtx := { visit := 0, credited := false, deficit := [0, 0, 0, 0], last := [0, 0, 0, 0] }

def CopySys.reset : CopySys := { copies := [], engines := [], lastCtx := [], scrubs := [] }

def MatSys.reset : MatSys := { last := [] }

def DistSys.reset : DistSys :=
  { queues := [], entries := [], launches := [], graphs := [], nextTeam := 1, savedTeams := [], savedCopies := [],
    saving := [], drainEnd := [] }

/-- REQTO is 1,000 at reset (12 R367). -/
def HpFab.reset : HpFab :=
  { peer := 0, inc := 0, en := false, rtbase := 0, evbase := 0, evlog := 0, evwr := 0, reqto := 1000, routes := [] }

def CtxFab.reset : CtxFab := { ptab := 0, wtab := 0, etab := 0, rxen := false }

/-- TXEN is 0xFFFF at reset (14 R436); no flit has been sent or received. -/
def Port.reset : Port :=
  { state := 0, txmap := 0, rxmap := 0, peerMap := 0, txen := 0xFFFF, flits := 0, replay := 0, holes := 0, crcerr := 0, staledrop := 0,
    seccor := 0, queue := [], part := [], first := 15, partMsgs := [], rest := [], restMsg := [], nextSeq := 0, window := [],
    good := 4095, rxBytes := [], nak := 0, nakAt := 0, peerStop := 0, lastSent := 0, lastUnit := 0 }

def FabSys.reset : FabSys :=
  { hps := [], ctxs := [], peers := [], imports := [], exports := [], reqs := [], waiting := [], txSeq := [], rxSeq := [],
    held := [], incs := [], oldIncs := [], cache := [], ports := [], isolated := [], stop := [], inbox := [] }

def CollSys.reset : CollSys := { ops := [], held := [] }

/-- The machine right after power-on reset. -/
def State.reset : State :=
  { agenda := [], clk := Clock.reset, iss := Issue.reset, slices := [], gangs := [], teams := [], mem := MemSys.reset,
    sync := SyncSys.reset, copy := CopySys.reset, mat := MatSys.reset, dist := DistSys.reset,
    fab := FabSys.reset, coll := CollSys.reset, checks := [], ccbs := [], dev := Dev.reset, free := 0 }

end Sys2Proof.Machine
end

