-- ==== Sys2Proof/Machine/Memory.lean ====
section
/-! DEFINITION. Physical memory as a list of cells, the physical map (01 R28 to R31), key slots (14 R428), line
intervals (07 R230), poison (06 R188), and the counters of 14 R438. -/

namespace Sys2Proof.Machine

/-! ## Bytes -/

abbrev Memory := List Host.Cell

/-- One byte; an address that is not listed reads `Config.unwrittenByte`. -/
def memRead (m : Memory) (a : Nat) : Byte := smGet Config.unwrittenByte a m

/-- One byte written; the form stays canonical. -/
def memWrite (m : Memory) (a : Nat) (b : Byte) : Memory := smPut Config.unwrittenByte a b m

/-- The form of memory: addresses rise strictly, and no listed byte is what an unlisted one reads as. -/
def Memory.wf (m : Memory) : Bool := smWf Config.unwrittenByte m

def memReadN (m : Memory) (a : Nat) : Nat → List Byte
  | 0 => []
  | n + 1 => memRead m a :: memReadN m (a + 1) n

def memWriteN (m : Memory) (a : Nat) : List Byte → Memory
  | [] => m
  | b :: bs => memWriteN (memWrite m a b) (a + 1) bs

/-- A sparse store of bytes, such as a scratchpad. -/
def bytesGet (m : SMap Byte) (a : Nat) : Nat → List Byte
  | 0 => []
  | n + 1 => smGet 0 a m :: bytesGet m (a + 1) n

def bytesPut (m : SMap Byte) (a : Nat) : List Byte → SMap Byte
  | [] => m
  | b :: bs => bytesPut (smPut 0 a b m) (a + 1) bs

def State.withBytes (s : State) (m : Memory) : State := { s with mem := { s.mem with bytes := m } }

/-- The memory of a state at an address. -/
def State.byteAt (s : State) (a : Nat) : Byte := memRead s.mem.bytes a

/-! ## Counters and time -/

/-- ERRCNT n saturates at 2^64 − 1 (14 R438). -/
def State.bumpErr (s : State) (n : Nat) (k : Nat := 1) : State :=
  let c := (smGet 0 n s.dev.errcnt).toNat
  { s with dev := { s.dev with errcnt := smPut 0 n (BitVec.ofNat 64 (min (c + k) (2 ^ 64 - 1))) s.dev.errcnt } }

/-- Device time in ns (04 R137). -/
def State.ns (s : State) : Nat := s.clk.ticks / Config.ticksPerNs

/-- Device time is at least `t` ticks: what a timed step that the agenda names says of the time. -/
def State.reach (s : State) (t : Nat) : State := { s with clk := { s.clk with ticks := max s.clk.ticks t } }

def usTicks (us : Nat) : Nat := us * 1000 * Config.ticksPerNs
def nsTicks (ns : Nat) : Nat := ns * Config.ticksPerNs

/-! ## Hard partitions (14 R427) -/

/-- The number of Sill dies of hard partition m0, or 0 where the plan has none of that number. -/
def planDies (plan m0 : Nat) : Nat :=
  match plan, m0 with
  | 0, _ => if m0 < 4 then 1 else 0
  | 1, 0 => 2
  | 1, 2 => 1
  | 1, 3 => 1
  | 2, 0 => 1
  | 2, 1 => 1
  | 2, 2 => 2
  | 3, 0 => 2
  | 3, 2 => 2
  | 4, 0 => 4
  | _, _ => 0

/-- The hard partition that holds a Sill die. -/
def hpOfDie (plan die : Nat) : Nat :=
  match plan with
  | 0 => die
  | 1 => if die < 2 then 0 else die
  | 2 => if die < 2 then die else 2
  | 3 => if die < 2 then 0 else 2
  | _ => 0

/-- The Sill die under a cluster (01 R13), and its compute die. -/
def dieOfCluster (cl : Nat) : Nat := cl / Config.clustersPerDie
def sillOfCluster (cl : Nat) : Nat := dieOfCluster cl / 2

def State.hpOfCluster (s : State) (cl : Nat) : Nat := hpOfDie s.dev.plan (sillOfCluster cl)

/-- The checker registers of a hard partition. -/
def State.check (s : State) (hp : Nat) : HpCheck := smGet HpCheck.reset hp s.checks
def State.setCheck (s : State) (hp : Nat) (c : HpCheck) : State := { s with checks := smPut HpCheck.reset hp c s.checks }

/-! ## The physical map (01 R28, R30) -/

/-- Where an address lies. -/
inductive Region where
  | near (die stack chan : Nat)
  | vault (die way : Nat)
  | registers
  | far (expander : Nat)
  | host (port : Nat)
  | unmapped
  deriving DecidableEq, Repr

def gib : Nat := 2 ^ 30

/-- Near memory of a hard partition of k Sill dies from m0 on (R30). -/
def nearRegion (m0 k pa : Nat) : Region :=
  let base := m0 * 0x2000000000
  if pa < base ∨ k = 0 then .unmapped
  else
    let off := pa - base
    if off ≥ k * 108 * gib then .unmapped
    else
      let q := off / 2 ^ 16
      let die := m0 + q % k
      let g := q / k * 8 + off / 2 ^ 13 % 8
      .near die (3 * die + g % 3) (off / 256 % 32)

/-- The windows of R28. -/
def windowOf (pa : Nat) : Nat :=
  if pa < 0x8000000000 then 0
  else if pa < 0x8080000000 then 1
  else if 0xF000000000 ≤ pa ∧ pa < 0x10000000000 then 3
  else if 0x100000000000 ≤ pa ∧ pa < 0x140000000000 then 2
  else if 0x8000000000000 ≤ pa ∧ pa < 0xC000000000000 then 4
  else if 0xC000000000000 ≤ pa ∧ pa < 0x10000000000000 then 5
  else 6

def State.vault (s : State) (die : Nat) : Vault := smGet Vault.reset die s.mem.vaults

/-- The region of an address as a hard partition reaches it; `unmapped` is a decode error (R29). -/
def State.region (s : State) (hp pa : Nat) : Region :=
  match windowOf pa with
  | 0 => nearRegion hp (planDies s.dev.plan hp) pa
  | 1 =>
    let die := (pa - 0x8000000000) / 0x20000000
    let way := (pa - 0x8000000000) % 0x20000000 / 0x2000000
    if (s.vault die).vault.getLsbD way && !(s.vault die).busy.getLsbD way && hpOfDie s.dev.plan die == hp
    then .vault die way else .unmapped
  | 2 =>
    let e := (pa - 0x100000000000) / 0x8000000000
    if s.dev.cxlown.toNat / 4 ^ e % 4 ≠ hp then .unmapped
    else if pa % 0x8000000000 < Config.expanderBytes e then .far e else .unmapped
  | 3 => .registers
  | 4 => .host 0
  | 5 => .host 1
  | _ => .unmapped

/-- A program or an engine reaches the address (R29). -/
def Region.backed : Region → Bool
  | .registers => false
  | .unmapped => false
  | _ => true

def Region.isHost : Region → Bool
  | .host _ => true
  | _ => false

def Region.isNear : Region → Bool
  | .near _ _ _ => true
  | _ => false

/-- The Sill die or far die (as 4, 5) that is home of a line (R31). -/
def Region.home : Region → Nat
  | .near die _ _ => die
  | .vault die _ => die
  | .far e => 4 + e / 4
  | .host p => 6 + p
  | _ => 0

/-! ## Key slots (14 R428 to R430) -/

def State.keySlot (s : State) (k : Nat) : KeySlot := smGet KeySlot.empty k s.dev.keys

/-- A slot of another hard partition; slot 0 belongs to every one. -/
def State.keyForeign (s : State) (hp k : Nat) : Bool :=
  k != 0 && (s.keySlot k).st != 0 && (s.keySlot k).part != hp

/-- An access under the slot reaches memory: the region is backed and the slot LOADED (R429). -/
def State.reachable (s : State) (hp keyid pa : Nat) : Bool :=
  (s.region hp pa).backed && (s.keySlot keyid).st == 1

/-- Counts a decode error that an access met: ERRCNT 19 as well under a destroyed key (R430). -/
def State.countKey (s : State) (keyid : Nat) : State := if (s.keySlot keyid).st == 2 then s.bumpErr 19 else s

/-! ## Poison (06 R188) -/

def State.poisoned (s : State) (pa n : Nat) : Bool :=
  (List.range (sectorOf (pa + n - 1) + 1 - sectorOf pa)).any fun k => smGet false (sectorOf pa + k) s.mem.poison

def setPoison (p : SMap Bool) (sector : Nat) (b : Bool) : SMap Bool := smPut false sector b p

/-- The poison after a write: a sector that is wholly written is clean. -/
def poisonAfter (p : SMap Bool) (pa n : Nat) : Nat → SMap Bool
  | 0 => p
  | k + 1 =>
    let sec := sectorOf pa + k
    poisonAfter (if pa ≤ sec * 32 ∧ sec * 32 + 32 ≤ pa + n then setPoison p sec false else p) pa n k

/-- Poisons the sectors of a line. -/
def poisonLine (p : SMap Bool) (line : Nat) : SMap Bool :=
  setPoison (setPoison (setPoison (setPoison p (4 * line) true) (4 * line + 1) true) (4 * line + 2) true) (4 * line + 3) true

end Sys2Proof.Machine
end

