-- ==== Sys2Proof/Machine/Caches.lean ====
section
/-! DEFINITION. The caches and what keeps them coherent: the lines of the L2s and the Sills (06 R184 to R187, R190, 07 R214,
R256), intervals (R230), the transfers that the Scribes check (R232), the L1 (06 R183, R184), and the routes around a page in
motion (R207). The bytes of every line stand once, in `MemSys.bytes`: an L2 and a Sill hold a line's tag, which is all that
coherence leaves to tell apart; an L1 and an instruction cache, which are not coherent, hold bytes of their own. -/

namespace Sys2Proof.Machine

def overlap (a n b m : Nat) : Bool := decide (a < b + m ∧ b < a + n)

/-! ## Intervals (07 R230) -/

def State.line (s : State) (l : Nat) : LineState := smGet LineState.fresh l s.mem.lines
def State.setLine (s : State) (l : Nat) (x : LineState) : State :=
  { s with mem := { s.mem with lines := smPut LineState.fresh l x s.mem.lines } }

/-- The line once `who` has written it: the interval ends at a change of writer and at a move from readers. -/
def LineState.written (x : LineState) (who : Nat) : LineState :=
  if x.writer = some who ∧ x.readers = [] then x
  else { x with interval := x.interval + 1, writer := some who, readers := [] }

/-- The line once `who` has read it: a move from a writer to readers ends no interval. -/
def LineState.read (x : LineState) (who : Nat) : LineState :=
  if x.writer = some who ∨ who ∈ x.readers then x else { x with readers := who :: x.readers }

/-- The writer number of a home, a memory-side unit or an engine; compute dies are 0 to 7. -/
def homeWriter (home : Nat) : Nat := 100 + home

/-- A read by `who` seen by the directory. -/
def State.noteRead (s : State) (who pa : Nat) : State :=
  let l := lineOf pa
  s.setLine l ((s.line l).read who)

/-! ## Holds (06 R207, 07 R226) -/

/-- A line whose release is held pending-seal: other requesters stall (07 R226). -/
def State.lineHeld (s : State) (line : Nat) (except : Nat) : Bool :=
  s.mem.ops.any fun o => o.arrived && !o.performed && o.id != except && o.elems.any fun e => lineOf e.pa == line

/-- The lines from one address on hold a release of some slice. -/
def State.rangeHeld (s : State) (pa n : Nat) : Bool :=
  s.mem.ops.any fun o => o.arrived && !o.performed
    && o.elems.any fun e => decide (lineOf pa ≤ lineOf e.pa ∧ lineOf e.pa ≤ lineOf (pa + n - 1))

/-- The step has met something it must wait for: it is not made (`Sys2Proof.Machine.unlessBlocked`). -/
def State.block (s : State) : State := { s with mem := { s.mem with blocked := true } }

/-- What a step does, or what is done instead where it has to wait (06 R207, 07 R226). -/
def unlessBlocked (instead : Host.Outcome State Fault Refusal) : Host.Outcome State Fault Refusal → Host.Outcome State Fault Refusal
  | .next t => if t.mem.blocked then instead else .next t
  | .fault f => .fault f
  | .refused r => .refused r

/-! ## Routes around a migration (R207, R208) -/

/-- Address bits that a page of a size code covers (R166). -/
def pageBits (sz : Nat) : Nat :=
  match sz with
  | 0 => 12 | 1 => 14 | 2 => 16 | 3 => 21 | 4 => 25 | 5 => 29 | 6 => 30 | _ => 34

def pageHas (base bytes pa : Nat) : Bool := decide (base ≤ pa ∧ pa < base + bytes)

/-- Where an access to a physical address is served: there, nowhere yet, or at the new location. -/
inductive Route where
  | at_ (pa : Nat)
  | held (mid : Nat)

def Migration.bytes (m : Migration) : Nat := 2 ^ pageBits m.sz

/-- Where the page goes. -/
def Migration.dest (m : Migration) : Nat := m.newpa + m.page * m.bytes

/-- The route of a read by `source`, and of a write. -/
def routeOne (m : Migration) (write : Bool) (source pa : Nat) : Route :=
  let n := m.bytes
  let inPlace := m.dest == m.oldpa
  if m.stage = 0 then .at_ pa
  else if pageHas m.oldpa n pa then
    if m.stage ≤ 4 then
      if write || m.held.any (fun a => a.source == source && lineOf a.pa == lineOf pa) then .held m.mid else .at_ pa
    else .at_ (m.dest + (pa - m.oldpa))
  else if !inPlace && pageHas m.dest n pa && 2 ≤ m.stage && m.stage ≤ 4 then .held m.mid
  else .at_ pa

def route (write : Bool) (source pa : Nat) : List Migration → Route
  | [] => .at_ pa
  | m :: ms =>
    match routeOne m write source pa with
    | .held mid => .held mid
    | .at_ pa' => if pa' = pa then route write source pa ms else .at_ pa'

def State.readRoute (s : State) (source pa : Nat) : Route := route false source pa s.mem.migs
def State.writeRoute (s : State) (source pa : Nat) : Route := route true source pa s.mem.migs

def Route.isHeld : Route → Bool
  | .held _ => true
  | _ => false

def Route.addr : Route → Nat → Nat
  | .at_ p, _ => p
  | .held _, pa => pa

/-- Where engines, walkers and hosts reach a place. -/
def State.engineRoute (s : State) (write : Bool) (pa : Nat) : Route := if write then s.writeRoute 1000 pa else s.readRoute 1000 pa
def State.engineAt (s : State) (write : Bool) (pa : Nat) : Nat := (s.engineRoute write pa).addr pa

/-- An access to `n` bytes from a place has to wait: its page is in motion, or a line held pending-seal. -/
def State.mustHold (s : State) (write : Bool) (pa n : Nat) : Bool := (s.engineRoute write pa).isHeld || s.rangeHeld (s.engineAt write pa) n

/-- The access is made, or marks its step as one that has to wait. -/
def State.orBlock (s : State) (write : Bool) (pa n : Nat) : State := if s.mustHold write pa n then s.block else s

/-! ## The Sills (06 R187, R190) -/

def State.sillOf (s : State) (m : Nat) : List SillLine := smGet [] m s.mem.sill
def State.setSill (s : State) (m : Nat) (xs : List SillLine) : State := { s with mem := { s.mem with sill := smPut [] m xs s.mem.sill } }

/-- The Sill die at which a near line is homed. -/
def State.nearHome (s : State) (line : Nat) : Option Nat :=
  (List.range Config.sillDies).findSome? fun hp =>
    match s.region hp (line * 128) with
    | .near die _ _ => some die
    | _ => none

/-- The line as a Sill holds it. -/
def State.sillLine (s : State) (line : Nat) : Option SillLine :=
  (List.range Config.sillDies).findSome? fun m => (s.sillOf m).find? fun x => x.line == line

/-- The ways that cache: neither vault nor on their way to it. -/
def Vault.cacheWays (v : Vault) : List Nat := (List.range 16).filter fun w => !(v.vault.getLsbD w)

/-- The lines that share a line's set. Where the Sill holds fewer lines than make a set full, all of them stand for it. -/
def setOf (xs : List SillLine) (line : Nat) : List SillLine :=
  if xs.length < 12 then xs else xs.filter fun (x : SillLine) => Config.sillSet x.line == Config.sillSet line

/-- How many of the lines are retained. -/
def retained (xs : List SillLine) : Nat := (xs.filter (·.retain)).length

/-- The line that makes room: the oldest that is not retained, else the oldest (log entry 100). -/
def sillVictim (set : List SillLine) : Option SillLine :=
  match set.find? fun x => !x.retain with
  | some x => some x
  | none => set.head?

/-- A line comes into its Sill, or more of it. At most 12 ways of a set hold retained lines; a line under another KEYID makes
way for it. -/
def State.fillSill (s : State) (m : Nat) (x : SillLine) : State :=
  let xs := s.sillOf m
  let others : List SillLine := xs.filter fun y => y.line != x.line
  let set : List SillLine := setOf others x.line
  let x := { x with retain := x.retain && decide (retained set < 12) }
  match xs.find? fun y => y.line == x.line with
  | some y =>
    let x := if y.key = x.key then { x with way := y.way, sectors := y.sectors ||| x.sectors, retain := y.retain || x.retain, dirty := y.dirty || x.dirty }
      else { x with way := y.way }
    s.setSill m (xs.map fun z => if z.line = x.line then x else z)
  | none =>
    match (s.vault m).cacheWays.find? fun w => !(set.any fun y => y.way == w) with
    | some w => s.setSill m (xs ++ [{ x with way := w }])
    | none =>
      match sillVictim (set.filter fun y => (s.vault m).cacheWays.contains y.way) with
      | some v => s.setSill m (xs.filter (fun y => y.line != v.line) ++ [{ x with way := v.way }])
      | none => s

/-- A way is emptied: its lines are written back and invalidated. -/
def State.emptyWay (s : State) (m way : Nat) : State := s.setSill m ((s.sillOf m).filter fun x => x.way != way)

/-! ## The L2s (06 R186, 07 R214) -/

def State.l2Of (s : State) (die : Nat) : List L2Line := smGet [] die s.mem.l2
def State.setL2 (s : State) (die : Nat) (xs : List L2Line) : State := { s with mem := { s.mem with l2 := smPut [] die xs s.mem.l2 } }
def State.l2Line (s : State) (die line : Nat) : Option L2Line := (s.l2Of die).find? fun x => x.line == line

/-- The line as its L2 now has it. -/
def State.setL2Line (s : State) (die : Nat) (x : L2Line) : State := s.setL2 die ((s.l2Of die).map fun y => if y.line = x.line then x else y)

/-- The owner of a line supplies its data: its copy is the newest. -/
def Coh.owns : Coh → Bool
  | .m => true
  | .o => true
  | _ => false

/-- One L2 alone holds the line, and may write it. -/
def Coh.alone : Coh → Bool
  | .m => true
  | .e => true
  | _ => false

/-- What the home directory records of a line cached above it (07 R214). -/
structure DirEntry where
  owner : Option Nat
  holders : List Nat
  alone : Bool
  deriving DecidableEq, Repr

def State.holds (s : State) (line die : Nat) (test : Coh → Bool) : Bool :=
  match s.l2Line die line with
  | some x => test x.st
  | none => false

def State.directory (s : State) (line : Nat) : DirEntry :=
  let ds := List.range Config.computeDies
  { owner := ds.find? fun d => s.holds line d Coh.owns
    holders := ds.filter fun d => s.holds line d fun _ => true
    alone := ds.any fun d => s.holds line d Coh.alone }

/-- Each line has one writer or any number of readers (07 R214). -/
def DirEntry.coherent (e : DirEntry) : Bool := !e.alone || decide (e.holders.length ≤ 1)

/-- The line is held in some L2 or Sill (06 R204). -/
def State.cached (s : State) (line : Nat) : Bool := !(s.directory line).holders.isEmpty || (s.sillLine line).isSome

/-- A transfer waits for its check (07 R232). -/
def State.addXfer (s : State) (x : Xfer) : State := { s with mem := { s.mem with xfers := s.mem.xfers ++ [x] } }

/-- A dirty line leaves an L2: a near one comes into its Sill (06 R187). -/
def State.writeBack (s : State) (x : L2Line) : State :=
  if x.st.owns then
    match s.nearHome x.line with
    | some m =>
      (s.fillSill m { line := x.line, way := 0, sectors := x.sectors, key := x.key, retain := false, dirty := true }).addXfer
        { line := x.line, unit := 8 + m, interval := (s.line x.line).interval, write := true, client := .none }
    | none => s
  else s

/-- Lines that an L2 slice of 2 MiB holds. -/
def l2SliceLines : Nat := 16384

/-- The line that makes room in a full slice: the oldest of the lowest priority, else the oldest (log entry 100). -/
def l2Victim (slice : List L2Line) : Option L2Line :=
  match slice.find? (·.low) with
  | some x => some x
  | none => slice.head?

/-- A line comes into an L2 that does not hold it. -/
def State.fillL2 (s : State) (die : Nat) (x : L2Line) : State :=
  let xs := s.l2Of die
  let slice := if xs.length < l2SliceLines then [] else xs.filter fun y => Config.l2Slice y.line == Config.l2Slice x.line
  if slice.length < l2SliceLines then s.setL2 die (xs ++ [x])
  else
    match l2Victim slice with
    | some v => (s.writeBack v).setL2 die (xs.filter (fun y => y.line != v.line) ++ [x])
    | none => s.setL2 die (xs ++ [x])

/-- An L2 gives a line up, writing it back where it is dirty. -/
def State.leaveL2 (s : State) (die line : Nat) : State :=
  match s.l2Line die line with
  | some x => (s.writeBack x).setL2 die ((s.l2Of die).filter fun y => y.line != line)
  | none => s

/-- Copies of a line are invalidated; a dirty one gives its data to whoever takes the line. -/
def State.invalL2 (s : State) (line : Nat) : List Nat → State
  | [] => s
  | d :: ds => State.invalL2 (s.setL2 d ((s.l2Of d).filter fun y => y.line != line)) line ds

def State.otherHolders (s : State) (die line : Nat) : List Nat := (s.directory line).holders.filter (· != die)

/-- A line is granted for reading elsewhere: its writer becomes its owner, a sole clean copy a shared one. -/
def Coh.shared : Coh → Coh
  | .m => .o
  | .e => .s
  | c => c

def State.shareL2 (s : State) (line : Nat) : List Nat → State
  | [] => s
  | d :: ds =>
    State.shareL2 (match s.l2Line d line with | some x => s.setL2Line d { x with st := x.st.shared } | none => s) line ds

/-- The sectors of a line that `n` bytes from an address touch. -/
def sectorMask (pa n : Nat) : BitVec 4 :=
  BitVec.ofNat 4 ((List.range 4).map fun k => if overlap pa n (lineOf pa * 128 + 32 * k) 32 then 2 ^ k else 0).sum

/-- Where a read of a near line is served below the L2s: by the Sill that holds it, else by the HBM4E, which fills the Sill
except under .stream (06 R185, R187). -/
def State.readHome (s : State) (line key : Nat) (hint : Nat) (sectors : BitVec 4) : State :=
  match s.nearHome line with
  | none => s
  | some m => if hint = 1 then s else s.fillSill m { line := line, way := 0, sectors := sectors, key := key, retain := hint == 2, dirty := false }

/-- A read of one line by the L2 of a compute die: a hit, or a grant by the home, with the data of the owner, the Sill or the
memory. A copy under another KEYID is dropped first (07 R256). -/
def State.readL2 (s : State) (die pa n key hint : Nat) (client : Client) : State :=
  let line := lineOf pa
  let want := sectorMask pa n
  let hit := match s.l2Line die line with | some x => x.key == key && x.sectors &&& want == want | none => false
  if hit then s
  else
    let s := match s.l2Line die line with | some x => if x.key = key then s else s.leaveL2 die line | none => s
    let s := if (s.directory line).owner.isSome then s else s.readHome line key hint want
    let grant : Xfer := { line := line, unit := die, interval := (s.line line).interval, write := false, client := client }
    match s.l2Line die line with
    | some x => (s.setL2Line die { x with sectors := x.sectors ||| want }).addXfer grant
    | none =>
      let others := s.otherHolders die line
      let s := s.shareL2 line others
      ((s.fillL2 die { line := line, st := if others.isEmpty then .e else .s, sectors := want, key := key, low := hint == 1 }).addXfer grant).noteRead die pa

/-- An L2 takes a line to write it: every other copy is invalidated, and the line's interval is the writer's. -/
def State.ownL2 (s : State) (die pa n key : Nat) (client : Client) : State :=
  let line := lineOf pa
  let want := sectorMask pa n
  let s := match s.l2Line die line with | some x => if x.key = key then s else s.leaveL2 die line | none => s
  let had := s.holds line die Coh.alone
  let s := s.invalL2 line (s.otherHolders die line)
  let s := match s.l2Line die line with
    | some x => s.setL2Line die { x with st := .m, sectors := x.sectors ||| want }
    | none => s.fillL2 die { line := line, st := .m, sectors := want, key := key, low := false }
  let s := s.setLine line ((s.line line).written die)
  if had then s else s.addXfer { line := line, unit := die, interval := (s.line line).interval, write := true, client := client }

/-- A write that an engine sends to a line's home, for its receipt (07 R236). -/
def State.receiptXfer (s : State) (who line : Nat) (client : Client) : State :=
  let x : Xfer := { line := line, unit := 8 + (who - 100), interval := (s.line line).interval, write := true, client := client }
  if client = .none ∨ who < 100 ∨ s.mem.xfers.contains x then s else s.addXfer x

/-- A line is written at its home: every L2 copy is invalidated, its dirty data merged first, and the data stand in the Sill
where the Sill holds the line (06 R202). -/
def State.ownHome (s : State) (who line : Nat) (sectors : BitVec 4) : State :=
  let s := s.invalL2 line (s.directory line).holders
  let s := match s.nearHome line, s.sillLine line with
    | some m, some x => s.fillSill m { x with sectors := sectors, dirty := true }
    | _, _ => s
  s.setLine line ((s.line line).written who)

/-! ## Performing stores -/

/-- Bytes performed in coherent memory by `who`, wholly within one line: in the L2 of a compute die, else at the home. -/
def State.commit (s : State) (who pa : Nat) (bs : List Byte) (key : Nat := 0) (client : Client := .none) : State :=
  let n := bs.length
  let s := if who < Config.computeDies then s.ownL2 who pa n key client
    else (s.ownHome who (lineOf pa) (sectorMask pa n)).receiptXfer who (lineOf pa) client
  { s with mem := { s.mem with
      bytes := memWriteN s.mem.bytes pa bs
      poison := poisonAfter s.mem.poison pa n (n / 32 + 2) } }

/-- Bytes performed over any number of lines. -/
def State.commitN (s : State) (who pa : Nat) (bs : List Byte) (key : Nat) (client : Client) : Nat → State
  | 0 => s
  | k + 1 =>
    let n := min bs.length (128 - pa % 128)
    if bs.isEmpty then s else State.commitN (s.commit who pa (bs.take n) key client) who (pa + n) (bs.drop n) key client k

def State.commitAll (s : State) (who pa : Nat) (bs : List Byte) (key : Nat := 0) (client : Client := .none) : State :=
  s.commitN who pa bs key client (bs.length / 128 + 2)

/-! ## The cluster's L1 (06 R183, R184, 07 R213) -/

def State.l1 (s : State) (cl : Nat) : L1 := smGet L1.empty cl s.mem.l1
def State.setL1 (s : State) (cl : Nat) (x : L1) : State := { s with mem := { s.mem with l1 := smPut L1.empty cl x s.mem.l1 } }

/-- An acquire at die scope or wider drops the sectors (07 R213). -/
def State.dropL1 (s : State) (cl : Nat) : State := s.setL1 cl { s.l1 cl with sectors := [], epoch := (s.l1 cl).epoch + 1 }

/-- The SRAM that the scratchpads of a cluster's resident teams take (06 R183). -/
def State.scratchUsed (s : State) (cl : Nat) : Nat :=
  (s.teams.map fun p => if p.2.ended || p.2.away then 0
    else (if p.2.cluster = cl then p.2.desc.scratch else 0) + (if p.2.desc.pair ∧ p.2.cluster1 = cl then p.2.desc.scratch else 0)).sum

/-- Lines that the L1 has room for: 768 KiB less the scratchpad. -/
def State.l1Lines (s : State) (cl : Nat) : Nat := (768 * 1024 - s.scratchUsed cl) / 128

/-- The lines of an L1's sectors, oldest first. -/
def l1LinesOf (xs : List L1Sector) : List Nat := (xs.map fun x => x.sec / 4).eraseDups

/-- As many of the newest lines as fit (log entry 100). -/
def l1Keep (room : Nat) (xs : List L1Sector) : List L1Sector :=
  if xs.length ≤ room then xs
  else
    let out := (l1LinesOf xs).take ((l1LinesOf xs).length - room)
    xs.filter fun x => !(out.contains (x.sec / 4))

/-- The lines that a cluster's SRAM no longer has room for are dropped. -/
def State.trimL1 (s : State) (cl : Nat) : State := s.setL1 cl { s.l1 cl with sectors := l1Keep (s.l1Lines cl) (s.l1 cl).sectors }

/-- The newest byte that the write buffer holds for an address. -/
def wbufByte (pa : Nat) : List WbEntry → Option Byte
  | [] => none
  | e :: es =>
    match wbufByte pa es with
    | some b => some b
    | none => if e.pa ≤ pa ∧ pa < e.pa + e.data.length then e.data[pa - e.pa]? else none

def L1.sector (c : L1) (sec : Nat) : Option L1Sector := c.sectors.find? fun x => x.sec == sec

/-- A sector that a load under a KEYID may be served from (07 R256). -/
def L1.hit (c : L1) (sec key : Nat) : Bool :=
  match c.sector sec with
  | some x => x.key == key
  | none => false

/-- One byte as a load of the cluster sees it: write buffer, L1 unless bypassed, memory. -/
def State.clusterByte (s : State) (cl : Nat) (bypass : Bool) (pa : Nat) : Byte :=
  match wbufByte pa (s.l1 cl).wbuf with
  | some b => b
  | none =>
    match if bypass then none else (s.l1 cl).sector (sectorOf pa) with
    | some x => x.data.getD (pa % 32) 0
    | none => s.byteAt pa

def State.clusterBytes (s : State) (cl : Nat) (bypass : Bool) (pa : Nat) : Nat → List Byte
  | 0 => []
  | n + 1 => s.clusterByte cl bypass pa :: s.clusterBytes cl bypass (pa + 1) n

/-- The sectors of a read: its first, and how many. -/
def sectorsOf (pa n : Nat) : List Nat := (List.range (sectorOf (pa + n - 1) + 1 - sectorOf pa)).map fun k => sectorOf pa + k

/-- A read miss fills a sector, with what the write buffer holds of it (06 R184). -/
def State.fillSector (s : State) (cl key sec : Nat) : State :=
  let c := s.l1 cl
  if c.hit sec key then s
  else
    let x : L1Sector := { sec := sec, key := key, data := s.clusterBytes cl true (sec * 32) 32 }
    (s.setL1 cl { c with sectors := (c.sectors.filter fun y => y.sec != sec) ++ [x] }).trimL1 cl

def State.fillSectors (s : State) (cl key : Nat) : List Nat → State
  | [] => s
  | sec :: secs => State.fillSectors (s.fillSector cl key sec) cl key secs

/-- A store updates a present sector (06 R184). -/
def State.updateL1 (s : State) (cl pa : Nat) (bs : List Byte) : State :=
  let c := s.l1 cl
  s.setL1 cl { c with sectors := c.sectors.map fun x => if x.sec = sectorOf pa then { x with data := spliceBytes x.data (pa % 32) bs } else x }

/-- Sectors of an address range leave the L1: ATOM and SCT invalidate those they touch (06 R184), and so does a load that goes
past the L1, so that no later load returns what is older (07 R218; log entry 101). -/
def State.invalL1 (s : State) (cl pa n : Nat) : State :=
  let c := s.l1 cl
  s.setL1 cl { c with sectors := c.sectors.filter fun x => !(sectorsOf pa n).contains x.sec }

/-- How a load reaches memory: through its L1, past it at the L2 of its compute die, or at the home, past every cache. -/
inductive Via where
  | l1 | l2 | home
  deriving DecidableEq, Repr

/-- What a load of one line by a cluster does to the caches on its way. -/
def State.readVia (s : State) (cl key hint : Nat) (via : Via) (client : Client) (pa n : Nat) : State :=
  match via with
  | .l1 =>
    if (sectorsOf pa n).all fun sec => (s.l1 cl).hit sec key then s
    else (s.readL2 (dieOfCluster cl) pa n key hint client).fillSectors cl key (sectorsOf pa n)
  | .l2 => (s.invalL1 cl pa n).readL2 (dieOfCluster cl) pa n key hint client
  | .home => s.invalL1 cl pa n

end Sys2Proof.Machine
end

