-- ==== Sys2Proof/Machine/Xlate.lean ====
section
/-! DEFINITION. Page tables, walks and the TLB (06 R166 to R175), and writes through a context's translation
(11 R340). -/

namespace Sys2Proof.Machine

/-! ## Context control blocks -/

def ccbKey (hp ctx : Nat) : Nat := 64 * hp + ctx
def State.ccb (s : State) (hp ctx : Nat) : Ccb := smGet Ccb.reset (ccbKey hp ctx) s.ccbs
def State.setCcb (s : State) (hp ctx : Nat) (c : Ccb) : State := { s with ccbs := smPut Ccb.reset (ccbKey hp ctx) c s.ccbs }

/-! ## Entries (06 R167 to R169) -/

/-- A virtual address is canonical (01 R27). -/
def canonical (va : Nat) : Bool := va / 2 ^ 56 % 256 == 0 || va / 2 ^ 56 % 256 == 255

/-- The low bit of the index of a level (R166). -/
def levelLow (level : Nat) : Nat := 12 + 9 * level

/-- The size codes of a leaf by level. -/
def leafLevelOk (level sz : Nat) : Bool :=
  match level with
  | 0 => sz ≤ 2
  | 1 => 3 ≤ sz && sz ≤ 5
  | 2 => 6 ≤ sz && sz ≤ 7
  | _ => false

def pteFrame (e : Nat) : Nat := bitsOf e 51 12 * 4096
def pteIsLeaf (e : Nat) : Bool := bitsOf e 3 1 != 0

/-- FMT and GEOM by R63. -/
def formatOk (fmt geom : Nat) : Bool := fmt ≤ 8 && (geom == 0 || fmt == 1)

/-- TIER names the range of the frame (R169); a frame in a range that 01 R28 reserves matches any TIER but 0b11 (DESIGN CHOICE,
log entry 102). -/
def tierOk (tier pa : Nat) : Bool :=
  match windowOf pa with
  | 0 => tier == 0
  | 1 => tier == 1
  | 2 => tier == 2
  | 4 => tier == 2
  | 5 => tier == 2
  | _ => tier != 3

/-- A V = 1 entry that a walk finds malformed (R169, 14 R428). -/
def State.pteMalformed (s : State) (hp level e : Nat) : Bool :=
  bitOf e 11 || bitOf e 63 || bitsOf e 127 86 != 0 || (bitOf e 2 && !bitOf e 1)
  || (if pteIsLeaf e then
        !leafLevelOk level (bitsOf e 10 8)
        || pteFrame e % 2 ^ pageBits (bitsOf e 10 8) != 0
        || !formatOk (bitsOf e 80 77) (bitsOf e 82 81)
        || bitsOf e 84 83 == 3 || !tierOk (bitsOf e 84 83) (pteFrame e)
        || (bitOf e 7 && bitsOf e 84 83 != 0)
        || s.keyForeign hp (bitsOf e 76 64)
      else
        bitsOf e 10 4 != 0 || e / 2 ^ 64 != 0 || bitOf e 12 || level == 0)

/-! ## Walks -/

inductive Walk where
  | leaf (level pteAddr entry : Nat)
  | malformed
  /-- A table read met a decode error or poison (R169). -/
  | unreadable
  | absent (level : Nat) (mig : Bool)
  deriving DecidableEq, Repr

/-- The walk of a level's table, at fuel level + 1. -/
def State.walkFrom (s : State) (hp va : Nat) : Nat → Nat → Walk
  | 0, _ => .malformed
  | level + 1, table =>
    let at_ := s.engineAt false (table + 16 * (va / 2 ^ levelLow level % 512))
    if !(s.region hp at_).backed || s.poisoned at_ 16 then .unreadable
    else
      let e := natOfBytes (memReadN s.mem.bytes at_ 16)
      if !bitOf e 0 then .absent level (bitOf e 85)
      else if s.pteMalformed hp level e then .malformed
      else if pteIsLeaf e then .leaf level at_ e
      else s.walkFrom hp va level (pteFrame e)

/-- A walk meets an entry that it has to wait for (07 R226). -/
def State.walkHeld (s : State) (hp va : Nat) : Nat → Nat → Bool
  | 0, _ => false
  | level + 1, table =>
    let pa := table + 16 * (va / 2 ^ levelLow level % 512)
    let at_ := s.engineAt false pa
    if s.mustHold false pa 16 then true
    else if !(s.region hp at_).backed || s.poisoned at_ 16 then false
    else
      let e := natOfBytes (memReadN s.mem.bytes at_ 16)
      if !bitOf e 0 || s.pteMalformed hp level e || pteIsLeaf e then false else s.walkHeld hp va level (pteFrame e)

def State.walk (s : State) (hp ctx va : Nat) : Walk := s.walkFrom hp va 5 (s.ccb hp ctx).ptroot

/-! ## The TLB (R170 to R173) -/

def TlbEntry.covers (e : TlbEntry) (hp ctx va : Nat) : Bool :=
  e.hp == hp && (e.glob || e.ctx == ctx) && va / 2 ^ e.size == e.va / 2 ^ e.size

def TlbEntry.allows (e : TlbEntry) (a : Access) : Bool :=
  match a with
  | .fetch => e.x
  | .read => e.r
  | .write => e.w
  | .atomic => e.w
  | .probe => true

def isWrite : Access → Bool
  | .write => true
  | .atomic => true
  | _ => false

def tlbFind (hp ctx va : Nat) : List TlbEntry → Option TlbEntry
  | [] => none
  | e :: es => if e.covers hp ctx va then some e else tlbFind hp ctx va es

def tlbOf (hp ctx va e : Nat) (dirty : Bool) : TlbEntry :=
  let size := pageBits (bitsOf e 10 8)
  { hp := hp, ctx := ctx, glob := bitOf e 4, va := va / 2 ^ size * 2 ^ size, size := size, pa := pteFrame e,
    r := bitOf e 1, w := bitOf e 2, x := bitOf e 3, dirty := dirty, msa := bitOf e 7, keyid := bitsOf e 76 64,
    fmt := bitsOf e 80 77, geom := bitsOf e 82 81 }

/-- A translation, or why there is none. -/
inductive Xlat where
  | ok (e : TlbEntry) (pa : Nat)
  | xlate
  | perm
  | absent (level : Nat) (mig : Bool)
  deriving DecidableEq, Repr

/-- The L1 TLB of a cluster and the L2 TLB of a compute die (R171). -/
def State.l1Tlb (s : State) (cl : Nat) : List TlbEntry := smGet [] cl s.mem.l1tlb
def State.l2Tlb (s : State) (die : Nat) : List TlbEntry := smGet [] die s.mem.l2tlb

/-- A translation in a TLB of `n` entries: in place of what it covers, and of the oldest where there is no room (log entry 8). -/
def tlbFill (n hp ctx va : Nat) (e : TlbEntry) (es : List TlbEntry) : List TlbEntry :=
  (e :: es.filter fun x => !(x.covers hp ctx va)).take n

def State.fillL1Tlb (s : State) (cl hp ctx va : Nat) (e : TlbEntry) : State :=
  { s with mem := { s.mem with l1tlb := smPut [] cl (tlbFill 64 hp ctx va e (s.l1Tlb cl)) s.mem.l1tlb } }

def State.fillL2Tlb (s : State) (die hp ctx va : Nat) (e : TlbEntry) : State :=
  { s with mem := { s.mem with l2tlb := smPut [] die (tlbFill 4096 hp ctx va e (s.l2Tlb die)) s.mem.l2tlb } }

/-- Translations leave every TLB. -/
def State.dropTlb (s : State) (out : TlbEntry → Bool) : State :=
  let keep := fun (m : SMap (List TlbEntry)) => (m.map fun p => (p.1, p.2.filter fun e => !(out e))).filter fun p => !p.2.isEmpty
  { s with mem := { s.mem with l1tlb := keep s.mem.l1tlb, l2tlb := keep s.mem.l2tlb } }

/-- The result of a walk, as the walker leaves memory and the TLBs of the cluster that asked (R170): A and D are set in the
entry read. -/
def State.takeWalk (s : State) (hp ctx va : Nat) (acc : Access) (cl : Option Nat) : Xlat × State :=
  let s := if s.walkHeld hp va 5 (s.ccb hp ctx).ptroot then s.block else s
  match s.walk hp ctx va with
  | .malformed => (.xlate, s)
  | .unreadable => (.xlate, s.bumpErr 13)
  | .absent level mig => (.absent level mig, s)
  | .leaf _ at_ e =>
    let t := tlbOf hp ctx va e (isWrite acc || bitOf e 6)
    if !t.allows acc then (.perm, s)
    else
      let e' := if acc == .probe then e else setBits (if isWrite acc then setBits e 6 6 1 else e) 5 5 1
      let s := if e' = e then s
        else (s.orBlock true at_ 16).commit (homeWriter (s.region hp at_).home) at_ (bytesOfNat 16 e')
      let s := match cl with
        | some cl => (s.fillL2Tlb (dieOfCluster cl) hp ctx va t).fillL1Tlb cl hp ctx va t
        | none => s
      (.ok t (t.pa + va % 2 ^ t.size), s)

/-- The translation of an access (R170 to R174): of a cluster by its TLBs or a walk, of an engine without a TLB by a walk. A
write through an entry with D = 0 walks again. -/
def State.xlate (s : State) (hp ctx va : Nat) (acc : Access) (cl : Option Nat := none) : Xlat × State :=
  if !canonical va then (.xlate, s)
  else
    let found := match cl with
      | none => none
      | some c =>
        match tlbFind hp ctx va (s.l1Tlb c) with
        | some e => some (e, s)
        | none => (tlbFind hp ctx va (s.l2Tlb (dieOfCluster c))).map fun e => (e, s.fillL1Tlb c hp ctx va e)
    match found with
    | some (e, t) =>
      if !e.allows acc then (.perm, t)
      else if isWrite acc && !e.dirty then s.takeWalk hp ctx va acc cl
      else (.ok e (e.pa + va % 2 ^ e.size), t)
    | none => s.takeWalk hp ctx va acc cl

/-! ## Writes of engines through a context's translation -/

/-- Bytes wholly in one page written at dev scope, and whether they were: not where the write meets a fault of any kind. -/
def State.writeVirt (s : State) (hp ctx va : Nat) (bs : List Byte) : Bool × State :=
  match s.xlate hp ctx va .write with
  | (.ok e pa, s) =>
    let s := s.orBlock true pa bs.length
    let pa := s.engineAt true pa
    if s.reachable hp e.keyid pa then (true, s.commitAll (homeWriter (s.region hp pa).home) pa bs e.keyid) else (false, s)
  | (_, s) => (false, s)

/-! ## The context error log (11 R340) -/

/-- A 64-byte record; a ring of unusable size or a failed write loses it, and ERRCNT 23 counts. -/
def State.logError (s : State) (hp ctx : Nat) (rec : List Byte) : State :=
  let c := s.ccb hp ctx
  if c.ellog < 4 ∨ c.ellog > 16 then s.bumpErr 23
  else
    match s.writeVirt hp ctx (c.elog.toNat + 64 * (c.elwr.toNat % 2 ^ c.ellog)) rec with
    | (false, s') => s'.bumpErr 23
    | (true, s') => s'.setCcb hp ctx { s'.ccb hp ctx with elwr := c.elwr + 1 }

/-- The access error record of 01 R441. -/
def accessRecord (cause kind sub source va pa where_ time : Nat) : List Byte :=
  bytesOfNat 4 (5 + cause * 2 ^ 8 + kind * 2 ^ 16 + sub * 2 ^ 24) ++ bytesOfNat 4 source ++ bytesOfNat 8 va
    ++ bytesOfNat 8 pa ++ bytesOfNat 8 where_ ++ List.replicate 24 0 ++ bytesOfNat 8 time

/-- The work distributor's record of 11 R342. -/
def wdRecord (rtype cause source where_ : Nat) (pkt : List Byte) (time : Nat) : List Byte :=
  bytesOfNat 4 (rtype + cause * 2 ^ 8) ++ bytesOfNat 4 source ++ bytesOfNat 8 where_
    ++ (pkt.take 16 ++ List.replicate (16 - pkt.length) 0) ++ List.replicate 24 0 ++ bytesOfNat 8 time

/-! ## Fault records (06 R175, R176) -/

def accessBit : Access → Nat
  | .read => 1
  | .write => 2
  | .fetch => 4
  | .atomic => 8
  | .probe => 0

/-- The key's address: the bits below the level's index are cleared. -/
def faultKey (level va : Nat) : Nat := va / 2 ^ levelLow level * 2 ^ levelLow level

/-- Attaches a fault to the record of its key that is not answered, or opens one; its number is the answer. -/
def State.openFault (s : State) (f : FaultRec) : Nat × State :=
  match s.mem.faults.find? fun x => x.hp == f.hp && x.ctx == f.ctx && x.level == f.level && x.va == f.va with
  | some x =>
    let upd := s.mem.faults.map fun y => if y.fid = x.fid then { y with access := y.access ||| f.access } else y
    (x.fid, { s with mem := { s.mem with faults := upd } })
  | none =>
    let f := { f with fid := s.mem.nextOp }
    (f.fid, { s with mem := { s.mem with faults := s.mem.faults ++ [f], nextOp := s.mem.nextOp + 1 } })

end Sys2Proof.Machine
end

