-- ==== Sys2Proof/Machine/Ops.lean ====
section
/-! DEFINITION. Slices, gangs and teams; registers; taking a trap and returning from one (04 R108 to R112, R139
to R143); outstanding operations and what orders them (07 R215 to R219). -/

namespace Sys2Proof

/-- Scopes by width (07 R210). -/
def Scope.rank : Scope → Nat
  | .team => 0
  | .die => 1
  | .dev => 2
  | .sys => 3

def Scope.wider (a b : Scope) : Scope := if a.rank < b.rank then b else a
def Scope.narrower (a b : Scope) : Scope := if a.rank < b.rank then a else b

end Sys2Proof

namespace Sys2Proof.Machine

/-! ## Slices, gangs, teams -/

def sliceKey (r : SliceRef) : Nat := r.tid * 512 + r.bent * 8 + r.sl
def gangKey (tid bent : Nat) : Nat := tid * 64 + bent

def State.slice (s : State) (r : SliceRef) : Slice := smGet Slice.absent (sliceKey r) s.slices
def State.setSlice (s : State) (r : SliceRef) (x : Slice) : State := { s with slices := smSet (sliceKey r) x s.slices }
def State.modSlice (s : State) (r : SliceRef) (f : Slice → Slice) : State := s.setSlice r (f (s.slice r))

def State.team (s : State) (tid : Nat) : Team := smGet Team.absent tid s.teams
def State.setTeam (s : State) (tid : Nat) (t : Team) : State := { s with teams := smSet tid t s.teams }
def State.modTeam (s : State) (tid : Nat) (f : Team → Team) : State := s.setTeam tid (f (s.team tid))

def State.gangsOf (s : State) (tid bent : Nat) : List Gang := smGet [] (gangKey tid bent) s.gangs
def State.setGangs (s : State) (tid bent : Nat) (gs : List Gang) : State :=
  { s with gangs := smPut [] (gangKey tid bent) gs s.gangs }

/-- The clock of a partition. -/
def State.partClock (s : State) (part : Nat) : Nat := smGet 0 part s.clk.part

/-- The slices of a mask, by rising logical index. -/
def maskRefs (tid bent : Nat) (mask : BitVec 8) : List SliceRef :=
  (maskList mask.toNat 8).map fun i => { tid := tid, bent := bent, sl := i }

def GangRef.refs (g : GangRef) : List SliceRef := maskRefs g.tid g.bent g.mask

def refsMask : List SliceRef → BitVec 8
  | [] => 0
  | r :: rs => (1#8 <<< r.sl) ||| refsMask rs

/-- Slices by rising physical slot (04 R142). -/
def insertBySlot (s : State) (r : SliceRef) : List SliceRef → List SliceRef
  | [] => [r]
  | q :: qs => if (s.slice r).slot ≤ (s.slice q).slot then r :: q :: qs else q :: insertBySlot s r qs

def slotOrder (s : State) : List SliceRef → List SliceRef
  | [] => []
  | r :: rs => insertBySlot s r (slotOrder s rs)

/-- The half of a pair team that a bent lies in (03 R106). -/
def Team.halfOf (t : Team) (bent : Nat) : Nat := if t.desc.pair && t.desc.bents ≤ 2 * bent then 1 else 0

def Team.clusterOf (t : Team) (bent : Nat) : Nat := if t.halfOf bent = 1 then t.cluster1 else t.cluster

/-- The cluster partition of a bent (03 R106). -/
def Team.partOf (t : Team) (bent : Nat) : Nat :=
  if t.desc.pair then bent % (t.desc.bents / 2) % 4 else bent % 4

def State.clusterOf (s : State) (r : SliceRef) : Nat := (s.team r.tid).clusterOf r.bent

/-- The partition of a slice, keyed as `Clock.part`. -/
def State.partOfSlice (s : State) (r : SliceRef) : Nat :=
  4 * (s.team r.tid).clusterOf r.bent + (s.team r.tid).partOf r.bent

/-- The team's linear index L (04 R142). -/
def Team.linear (t : Team) : Nat := t.x + t.gx * (t.y + t.gy * t.z)

/-- The role of a bent and its first bent (03 R106). -/
def roleOf (bent : Nat) : List Role → Nat → Nat → Nat × Nat
  | [], i, first => (i - 1, first)
  | r :: rs, i, first => if bent < first + r.bents then (i, first) else roleOf bent rs (i + 1) (first + r.bents)

def Team.role (t : Team) (bent : Nat) : Nat × Nat :=
  if t.desc.roles.isEmpty then (0, 0) else roleOf bent t.desc.roles 0 0

/-- The vector budget of a bent (03 R89). -/
def Team.budget (t : Team) (bent : Nat) : Nat :=
  if t.desc.roles.isEmpty then t.desc.vregs else (t.desc.roles.getD (t.role bent).1 { bents := 0, vregs := 0 }).vregs

/-! ## Registers (03 R88, R89) -/

def Slice.getS (x : Slice) (n : Nat) : Word := smGet 0 n x.s
def Slice.setS (x : Slice) (n : Nat) (w : Word) : Slice := { x with s := smPut 0 n w x.s }
def Slice.getV (x : Slice) (n lane : Nat) : Word := smGet 0 (4 * n + lane) x.v
def Slice.setV (x : Slice) (n lane : Nat) (w : Word) : Slice := { x with v := smPut 0 (4 * n + lane) w x.v }

/-- p7 reads 1 (R88). -/
def Slice.getP (x : Slice) (n lane : Nat) : Bool := n == 7 || x.preds.getLsbD (4 * n + lane)

/-- Writes to p7 are discarded (R89). -/
def Slice.setP (x : Slice) (n lane : Nat) (b : Bool) : Slice :=
  if n = 7 then x
  else
    let m : BitVec 32 := 1#32 <<< (4 * n + lane)
    { x with preds := if b then x.preds ||| m else x.preds &&& ~~~m }

def Slice.getPair (x : Slice) (n : Nat) : Quad := (x.getS (n + 1)) ++ (x.getS n)

def Slice.setPair (x : Slice) (n : Nat) (q : Quad) : Slice :=
  (x.setS n (q.setWidth 32)).setS (n + 1) ((q >>> 32).setWidth 32)

def Slice.put (x : Slice) (w : RegWrite) : Slice :=
  match w.reg with
  | .v n => x.setV n w.lane w.val
  | .s n => x.setS n w.val
  | .p n => x.setP n w.lane (w.val.getLsbD 0)

def Slice.putAll (x : Slice) : List RegWrite → Slice
  | [] => x
  | w :: ws => (x.put w).putAll ws

def Slice.raise (x : Slice) (f : FFlags) : Slice := { x with fflags := x.fflags ||| f }

/-- Lane j executes a lane-wise instruction (03 R91), for a slice of the issuing gang. -/
def Slice.laneOn (x : Slice) (gp : BitVec 3) (gn : Bool) (j : Nat) : Bool :=
  x.exec.getLsbD j && (x.getP gp.toNat j != gn)

/-- The slice executes an instruction that acts once per slice (R91). -/
def Slice.sliceOn (x : Slice) (gp : BitVec 3) (gn : Bool) : Bool :=
  gp == 7 || (List.range 4).any (x.laneOn gp gn)

def Slice.lanesOn (x : Slice) (gp : BitVec 3) (gn : Bool) : List Nat := (List.range 4).filter (x.laneOn gp gn)

/-- The first scalar or vector register of a group of n. -/
def regGroup (sc : Bool) (n r : Nat) : List Reg := (List.range n).map fun i => if sc then .s (r + i) else .v (r + i)

/-! ## Counters of a team (04 R138) -/

def countInto (t : Team) (ev k : Nat) : Nat → SMap Quad
  | 0 => t.counters
  | n + 1 =>
    let m := countInto t ev k n
    if (smGet 0 n t.pmsel).toNat = ev then smPut 0 n (smGet 0 n m + BitVec.ofNat 64 k) m else m

/-- Adds to each counter that PMSELn points at the event. -/
def State.count (s : State) (tid ev : Nat) (k : Nat := 1) : State :=
  s.modTeam tid fun t => { t with counters := countInto t ev k 16 }

/-! ## Gangs -/

/-- The gang that holds a slice. -/
def State.gangOf (s : State) (r : SliceRef) : Option Gang :=
  (s.gangsOf r.tid r.bent).find? fun g => g.mask.getLsbD r.sl

/-- The mask of the gang that holds a slice. -/
def State.gangMask (s : State) (r : SliceRef) : BitVec 8 :=
  match s.gangOf r with
  | some g => g.mask
  | none => 1#8 <<< r.sl

/-- A slice leaves its gang and becomes a gang of one, which keeps the waiting count of its parent (04 R111). -/
def State.leaveGang (s : State) (r : SliceRef) : State :=
  let me : BitVec 8 := 1#8 <<< r.sl
  let gs := s.gangsOf r.tid r.bent
  match s.gangOf r with
  | none => s.setGangs r.tid r.bent (gs ++ [{ mask := me, waiting := 0, readyAt := 0 }])
  | some old =>
    if old.mask = me then s
    else
      (s.setGangs r.tid r.bent (gs.map (fun g => { g with mask := g.mask &&& ~~~me }) ++ [{ mask := me, waiting := old.waiting, readyAt := 0 }])).count
        r.tid 4

/-- The gang of a slice issues no earlier than a clock of its partition. -/
def State.delayGang (s : State) (r : SliceRef) (clock : Nat) : State :=
  s.setGangs r.tid r.bent ((s.gangsOf r.tid r.bent).map fun g => if g.mask.getLsbD r.sl then { g with readyAt := clock } else g)

/-! ## Traps -/

/-- The trap log record of 04 R142. -/
def trapRecord (s : State) (r : SliceRef) (w : TrapWait) (double fatal : Bool) : List Byte :=
  let t := s.team r.tid
  let x := s.slice r
  bytesOfNat 4 (w.info.cause + w.info.sub * 2 ^ 8 + w.info.lanes * 2 ^ 16 + r.sl * 2 ^ 20 + x.slot * 2 ^ 24
      + (if double then 2 ^ 27 else 0) + (if fatal then 2 ^ 28 else 0))
    ++ bytesOfNat 4 (r.bent + t.partOf r.bent * 2 ^ 8 + t.halfOf r.bent * 2 ^ 10 + t.logN % 2 ^ 16 * 2 ^ 16)
    ++ bytesOfNat 8 w.tfpc.toNat ++ bytesOfNat 8 w.info.addr.toNat ++ bytesOfNat 8 s.ns

/-- Writes the record while TLOGON is 1; a write that fails is counted, and the number is used all the same. -/
def State.logTrap (s : State) (r : SliceRef) (w : TrapWait) (double fatal : Bool) : State :=
  let t := s.team r.tid
  let c := s.ccb t.hp t.ctx
  if c.tlogon then
    let at_ := c.tlog.toNat + 2048 * t.linear + 32 * (t.logN % 64)
    let s' := match s.writeVirt t.hp t.ctx at_ (trapRecord s r w double fatal) with
      | (true, s') => s'
      | (false, s') => s'.bumpErr 23
    s'.modTeam r.tid fun t => { t with logN := t.logN + 1 }
  else s

/-- TCOUNT saturates (04 R140). -/
def satSucc (w : Word) : Word := if w = BitVec.allOnes 32 then w else w + 1

def causeContain : Nat := 9

/-- The trap state that entry writes (04 R140). -/
def TrapRegs.enter (t : TrapRegs) (w : TrapWait) (exec : BitVec 4) : TrapRegs :=
  { t with cause := BitVec.ofNat 8 w.info.cause, sub := BitVec.ofNat 8 w.info.sub, lanes := BitVec.ofNat 4 w.info.lanes,
           tpc := w.tpc, tfpc := w.tfpc, taddr := w.info.addr, texec := exec, tinst := w.inst, tgmask := w.gmask,
           tcount := satSucc t.tcount }

/-- Stops every slice of a team at its next instruction boundary and marks the team for its kill (04 R141,
11 R365). The kill itself is the step TEAM_KILL. -/
def State.stopTeam (s : State) (tid cause : Nat) : State :=
  s.modTeam tid fun t => if t.stopped then t else { t with stopped := true, killed := some cause }

/-- A wait that holds the next instruction whatever it is (FENCE.sc, SEAL, CHKR, ICINV) holds the handler's
first as well; every other wait ends with the instruction that made it. -/
def Wait.inTrap : Wait → Wait
  | .op id => .op id
  | _ => .none

/-- Steps 3 to 6 of trap entry (04 R139), the pending destinations written: the trap state, TMODE, the log
record, the handler, whose first instruction issues no earlier than eight clocks on. A fault in trap mode, a CONTAIN and a
trap with no handler are fatal (R141). -/
def State.enterTrap (s : State) (r : SliceRef) (w : TrapWait) : State :=
  let x := s.slice r
  let t := s.team r.tid
  let double := x.tmode
  let fatal := double || w.info.cause == causeContain || t.desc.handler == 0xFFFFFFFF
  let s := s.logTrap r w double fatal
  let s := s.count r.tid 0x0B
  let s := s.modSlice r fun x =>
    { x with trap := x.trap.enter w x.exec, tmode := true, trapWait := none, pend := [], wait := x.wait.inTrap,
             stopped := fatal || x.stopped,
             pc := if fatal then x.pc else t.desc.code + BitVec.ofNat 64 t.desc.handler }
  if fatal then s.stopTeam r.tid w.info.cause else s.delayGang r (s.partClock (s.partOfSlice r) + 8)

/-- The trap is entered, or waits while its record's line is held (07 R226). -/
def State.takeTrap (s : State) (r : SliceRef) (w : TrapWait) : State :=
  let t := s.enterTrap r w
  if t.mem.blocked then s.modSlice r fun x => { x with trapWait := some w, wait := x.wait.inTrap } else t

/-- A slice faults: it has left its gang, and takes the trap once nothing of it is pending and no move is under way (04 R123,
R139). Faults in one composite issue wait for its end, which orders them (R142). -/
def State.raiseTrap (s : State) (r : SliceRef) (w : TrapWait) : State :=
  if (s.slice r).pend.isEmpty && (s.slice r).moveTo.isNone && !s.iss.fused then s.takeTrap r w
  else s.modSlice r fun x => { x with trapWait := some w, wait := x.wait.inTrap }

/-- No lookahead window is open (03 R95). -/
def Slice.closeWindows (x : Slice) : Slice := { x with pend := x.pend.map fun p => { p with window := 0 } }

/-- The return from a trap (04 R143): EXEC, TMODE and PC, and no window open (03 R95). -/
def Slice.returnTrap (x : Slice) : Slice :=
  { x.closeWindows with exec := x.trap.texec, tmode := false, pc := x.trap.tpc, wait := .none }

/-! ## Outstanding operations (07 R215 to R219) -/

def State.op? (s : State) (id : Nat) : Option Op := s.mem.ops.find? fun o => o.id == id

def State.setOp (s : State) (o : Op) : State :=
  { s with mem := { s.mem with ops := s.mem.ops.map fun p => if p.id = o.id then o else p } }

def State.dropOp (s : State) (id : Nat) : State :=
  { s with mem := { s.mem with ops := s.mem.ops.filter fun p => p.id != id } }

/-- The interval that an operation observed or opened on a line. -/
def Op.interval (o : Op) (line : Nat) : Half := smGet 0 line o.ints

/-- The rank an operation must be acknowledged at to count as performed at a scope: a line that no host or
peer holds is performed at sys where it is at dev (07 R210, R225). -/
def Op.rankFor (o : Op) (sc : Scope) : Nat := if o.host then sc.rank else min sc.rank 2

/-- Acknowledged at the scope or wider (07 R227). -/
def Op.ackedAt (o : Op) (sc : Scope) : Bool :=
  match o.acked with
  | none => false
  | some a => decide (o.rankFor sc ≤ a.rank)

def elemsOverlap (es fs : List Elem) : Bool :=
  es.any fun e => fs.any fun f => overlap e.pa e.size f.pa f.size

/-- An earlier class that orders everything after it (07 R216). -/
def OpClass.leads : OpClass → Bool
  | .a => true
  | .x => true
  | .q => true
  | _ => false

/-- A later class that everything before it is ordered before. -/
def OpClass.trails : OpClass → Bool
  | .r => true
  | .x => true
  | .q => true
  | _ => false

def OpKind.isLoad : OpKind → Bool
  | .load _ _ _ => true
  | .dec _ _ _ => true
  | _ => false

/-- A relaxed store that waits in the write buffer, and a load or store of the same slice that reads or enters
the buffer behind it: the buffer keeps their order (07 R213, R218). -/
def buffered (e later : Op) : Bool :=
  e.cls == .s && e.kind == .store && !e.msa && !later.msa
    && (later.kind.isLoad || (later.kind == .store && later.cls == .s))

/-- The table of 07 R216 with R217 and R219: the earlier operation must be performed before the later one
performs. `later` has class, scope and elements. -/
def ordersBefore (e later : Op) : Bool :=
  e.ref == later.ref && decide (e.id < later.id) && e.cls != .none &&
    (later.cls.trails || e.cls.leads || (elemsOverlap e.elems later.elems && !buffered e later))

/-- The scope at which the earlier of an ordered pair must be performed (07 R217). -/
def pairScope (e later : Op) : Scope :=
  if later.cls.trails then (if e.cls.leads then Scope.wider e.scope later.scope else later.scope) else e.scope

/-- A pending earlier operation that keeps the later one from performing. -/
def blocks (e later : Op) : Bool :=
  ordersBefore e later && !(e.ackedAt (pairScope e later)) && !(e.performed && !later.cls.trails)

/-- FENCE.rel (07 R219): no later store or atomic performs before the fence does. -/
def fenceBlocks (e later : Op) : Bool :=
  e.ref == later.ref && decide (e.id < later.id) && !e.performed &&
    (match e.kind, later.cls with
     | .fence 2, .s => true
     | .fence 2, .m => true
     | _, _ => false)

/-- Every earlier operation that orders before this one is performed as far as it must be. -/
def State.mayPerform (s : State) (later : Op) : Bool := s.mem.ops.all fun e => !(blocks e later) && !(fenceBlocks e later)

/-- The earlier operations that a release waits for and that lack their acknowledgement (07 R227). -/
def State.owed (s : State) (rel : Op) : List Nat :=
  (s.mem.ops.filter fun e => ordersBefore e rel && !(e.ackedAt (pairScope e rel))).map (·.id)

/-- Kinds whose own unit acts after the seal. -/
def OpKind.actsLater : OpKind → Bool
  | .load _ _ _ => false
  | .dec _ _ _ => false
  | .store => false
  | .atomic _ _ _ => false
  | .gather _ _ => false
  | .scatter => false
  | .fence _ => false
  | _ => true

/-- Kinds whose record their unit's own step drops; a remote operation is acknowledged by its answers. -/
def OpKind.endsItself : OpKind → Bool
  | .remote _ _ _ _ => false
  | k => k.actsLater

/-- The record of an operation may go (07 R225): a load's once its value is bound and checked, another's once it has
performed at dev, or at sys for host lines. One whose own unit acts ends with that unit's step. -/
def Op.retired (o : Op) : Bool :=
  o.performed && !o.failed && !o.kind.endsItself &&
    (match o.acked with
     | none => false
     | some a => o.kind.isLoad || decide ((if o.host then 3 else 2) ≤ a.rank))

/-- FENCE.acq performs once every earlier load and atomic of its slice has (07 R219). -/
def acqFenceDone (ops : List Op) (f : Op) : Bool :=
  f.kind == .fence 1 && ops.all fun e =>
    !(e.ref == f.ref && decide (e.id < f.id) && (e.cls == .l || e.cls == .m || e.cls == .a || e.cls == .x)) || e.performed

/-! ## Pending destinations (03 R93) -/

/-- The result of an operation reaches the pending destination it was issued for. -/
def settle (pid : Nat) (ws : Option (List RegWrite)) (fl : FFlags) (flt : Option FaultInfo) : List Pending → List Pending
  | [] => []
  | p :: ps => if p.pid = pid then { p with result := ws, flags := fl, fault := flt, queued := false } :: ps else p :: settle pid ws fl flt ps

def State.settle (s : State) (r : SliceRef) (pid : Nat) (ws : List RegWrite) (fl : FFlags) (flt : Option FaultInfo) : State :=
  s.modSlice r fun x => { x with pend := Machine.settle pid (some ws) fl flt x.pend }

/-- Slices that a stall made wait try again. -/
def Wait.again : Wait → Wait
  | .retry => .none
  | .pending => .none
  | w => w

/-! ## Acquires (07 R213) -/

/-- An acquire by a slice: at die scope or wider, and at team scope for a pair team, its cluster's L1 is
dropped before any later operation reads it, and its later loads ask for sectors filled since (07 R228). -/
def State.acquire (s : State) (r : SliceRef) (sc : Scope) : State :=
  if sc == .team && !(s.team r.tid).desc.pair then s
  else
    let s := s.dropL1 (s.clusterOf r)
    s.modSlice r fun x => { x with acqEpoch := (s.l1 (s.clusterOf r)).epoch }

/-- The acquires of fences that are done. -/
def acquireFences (s : State) : List Op → State
  | [] => s
  | f :: fs => acquireFences (s.acquire f.ref f.scope) fs

/-- A pending release of the slice still needs the record (07 R225): it lacked the operation's acknowledgement when it was
dispatched, or is ordered after it. -/
def neededBy (o rel : Op) : Bool :=
  rel.lacking.contains o.id || (rel.cls.trails && !rel.performed && rel.ref == o.ref && decide (o.id < rel.id))

/-- Records that nothing needs any more are dropped; a FENCE.acq that is done acquires. -/
def State.retire (s : State) : State :=
  let s' := acquireFences s (s.mem.ops.filter (acqFenceDone s.mem.ops))
  { s' with mem := { s'.mem with ops := s'.mem.ops.filter fun o =>
      (!o.retired || s.mem.ops.any (neededBy o)) && !(acqFenceDone s.mem.ops o) } }

/-- The acquires of the tokens of a mask (03 R96, 07 R215). -/
def State.acquireTokens (s : State) (r : SliceRef) (mask : BitVec 8) : Nat → State
  | 0 => s
  | k + 1 =>
    let s := s.acquireTokens r mask k
    if mask.getLsbD k then
      match smFind k (s.slice r).tokenScope with
      | some sc => (s.acquire r sc).modSlice r fun x => { x with tokenScope := smDel k x.tokenScope }
      | none => s
    else s

def Slice.setToken (x : Slice) (k : Nat) (sc : Scope) : Slice :=
  { x with tokens := x.tokens ||| (1#8 <<< k), tokenScope := smSet k sc x.tokenScope }

def Slice.clearToken (x : Slice) (k : Nat) : Slice := { x with tokens := x.tokens &&& ~~~(1#8 <<< k) }

end Sys2Proof.Machine
end

