-- ==== Sys2Proof/Machine/Operands.lean ====
section
/-! DEFINITION. How an instruction issues for a gang: the checks of 03 R98, token waits, lookahead, guards, what
becomes of each slice, and the split of the gang (04 R111); and the operand forms of the arithmetic classes
(03 R73 to R82, 05 R145, R146). -/

namespace Sys2Proof.Machine

/-! ## Issue -/

/-- What the issue of an instruction checks before its own effect. -/
structure Info where
  gp : BitVec 3 := 7
  gn : Bool := false
  wk : BitVec 8 := 0
  /-- Every register that it names (03 R89, R94). -/
  regs : List Reg := []
  bentScope : Bool := false
  /-- Its own completion token (R96). -/
  token : Option Nat := none
  /-- It reads FFLAGS (02 R53). -/
  waitFlags : Bool := false
  /-- A branch: its gangs issue no earlier than two clocks on (04 R113). -/
  branch : Bool := false

/-- What becomes of one slice: it goes on at an address, traps (with the resume address, where that is not the
instruction), leaves the ready set at the instruction, or ends. -/
inductive SliceRes where
  | go (next : Quad)
  | trap (f : FaultInfo) (resume : Option Quad)
  | park (w : Wait)
  | exit

def SliceRes.isTrap : SliceRes → Bool
  | .trap _ _ => true
  | _ => false

/-- An instruction of a gang: done for its slices, or the gang stalls as a unit. -/
inductive Attempt where
  | done (s : State) (res : List (SliceRef × SliceRes))
  | stall (w : Wait)
  /-- The gang stalls as a unit, and each slice waits for its own part of the condition. -/
  | stallEach (ws : List (SliceRef × Wait))
  /-- The gang tries again once these holders, cluster and team, have published (07 R223). -/
  | publish (cls : List (Nat × Nat))

/-- The same for one slice. -/
inductive SliceStep where
  | ok (s : State) (r : SliceRes)
  | stall (w : Wait)
  | publish (cls : List (Nat × Nat))

def faultAll (cause : Nat) (sub : Nat := 0) (addr : Quad := 0) : FaultInfo :=
  { cause := cause, sub := sub, lanes := 15, addr := addr }

def causeIll : Nat := 1
def causeXlate : Nat := 2
def causePerm : Nat := 3
def causeAlign : Nat := 4
def causeScratch : Nat := 5
def causePoison : Nat := 6
def causeBarrier : Nat := 7
def causeRemote : Nat := 8
def causeLookahead : Nat := 10
def causeMatrix : Nat := 11
def causeCopy : Nat := 12
def causeTrapi : Nat := 13
def causeBreak : Nat := 14
def causeScope : Nat := 15

inductive Pre where
  | go
  | fault (f : FaultInfo)
  | stall (w : Wait)

def overBudget (budget : Nat) : Reg → Bool
  | .v n => decide (budget ≤ n)
  | _ => false

def tokenMask (info : Info) : BitVec 8 :=
  info.wk ||| (match info.token with | some k => 1#8 <<< k | none => 0)

/-- The checks of 03 R98 steps 2 to 4 and the token waits of R96, for one slice. R91 lets an instruction that does not
execute raise only what steps 1 to 3 find, and R94 raises LOOKAHEAD whether or not the guard passes: the model follows R94
(DESIGN CHOICE, log entry 93). -/
def precheck (i : Instr) (info : Info) (s : State) (r : SliceRef) : Pre :=
  let x := s.slice r
  if !i.wellFormed || info.regs.any (overBudget ((s.team r.tid).budget r.bent)) then .fault (faultAll causeIll)
  else if info.bentScope && x.tmode then .fault (faultAll causeScope)
  else if x.tokens &&& tokenMask info != 0 then .stall (.token (tokenMask info))
  else
    let touched := x.pend.filter fun p => p.regs.any fun q => q ∈ info.regs
    if touched.any fun p => p.window > 0 then .fault (faultAll causeLookahead)
    else if !touched.isEmpty || (info.waitFlags && !x.pend.isEmpty) then .stall .pending
    else .go

/-- The slices of a gang that pass, those that fault, and the first stall. -/
def precheckAll (i : Instr) (info : Info) (s : State) :
    List SliceRef → List SliceRef × List (SliceRef × SliceRes) × Option Wait
  | [] => ([], [], none)
  | r :: rs =>
    let (ok, bad, w) := precheckAll i info s rs
    match precheck i info s r with
    | .go => (r :: ok, bad, w)
    | .fault f => (ok, (r, .trap f none) :: bad, w)
    | .stall w' => (ok, bad, some w')

/-- A forced publish is sent to each holder (07 R223). -/
def State.askPublish (s : State) (cls : List (Nat × Nat)) : State :=
  { s with mem := { s.mem with publish := s.mem.publish ++ cls.filter fun c => !(s.mem.publish.contains c) } }

def setWaits (s : State) (w : Wait) : List SliceRef → State
  | [] => s
  | r :: rs => (setWaits s w rs).modSlice r fun x => { x with wait := w }

/-- The gang stalls as a unit. A slice released from its implicit REGANG stays released (04 R115). -/
def State.stallEach (s : State) : List (SliceRef × Wait) → State
  | [] => s
  | (r, w) :: rs =>
    let s := s.stallEach rs
    { s.modSlice r (fun x => if x.wait = .released then x else { x with wait := w }) with iss := { s.iss with stalled := some w } }

def State.stallGang (s : State) (w : Wait) (rs : List SliceRef) : State := s.stallEach (rs.map fun r => (r, w))

/-- Each slice acquires through the tokens it waited for, its own busy token among them (R96). -/
def acquireAll (s : State) (mask : BitVec 8) : List SliceRef → State
  | [] => s
  | r :: rs => (acquireAll s mask rs).acquireTokens r mask 8

/-- Runs a slice's part for each slice in turn. -/
def runSlices (f : State → SliceRef → SliceStep) (s : State) : List SliceRef → Attempt
  | [] => .done s []
  | r :: rs =>
    match f s r with
    | .stall w => .stall w
    | .publish cls => .publish cls
    | .ok s x =>
      match runSlices f s rs with
      | .stall w => .stall w
      | .stallEach ws => .stallEach ws
      | .publish cls => .publish cls
      | .done s xs => .done s ((r, x) :: xs)

/-- One instruction issued by the slice: the windows open before it are one shorter (R93). -/
def Slice.passed (x : Slice) (pid0 : Nat) : Slice :=
  { x with pend := x.pend.map fun p => if p.pid < pid0 then { p with window := p.window - 1 } else p }

def Slice.exit (x : Slice) : Slice :=
  if x.pend.isEmpty then { x with exiting := true, exited := true, wait := .none } else { x with exiting := true, wait := .none }

/-- The slice's own part of the end of an issue. -/
def settleSlice (s : State) (pid0 : Nat) (r : SliceRef) : SliceRes → State
  | .go next => s.modSlice r fun x => { x.passed pid0 with pc := next }
  | .park w => s.modSlice r fun x => { x with wait := w }
  | .exit => s.modSlice r fun x => (x.passed pid0).exit
  | .trap _ _ => s

def settleAll (s : State) (pid0 : Nat) : List (SliceRef × SliceRes) → State
  | [] => s
  | (r, x) :: rs => settleSlice (settleAll s pid0 rs) pid0 r x

/-- Adds a slice to the group at its next PC. -/
def addGroup (next : Quad) (m : BitVec 8) : List (Quad × BitVec 8) → List (Quad × BitVec 8)
  | [] => [(next, m)]
  | (q, n) :: gs => if q = next then (q, n ||| m) :: gs else (q, n) :: addGroup next m gs

def Wait.isFault : Wait → Bool
  | .fault _ _ _ => true
  | _ => false

/-- The gangs that an instruction at `pc` leaves: one per distinct next PC, those that wait at the instruction among them, and one
for each slice that traps or parks on a recoverable fault (04 R111). -/
def newMasks (pc : Quad) : List (SliceRef × SliceRes) → List (Quad × BitVec 8) × List (BitVec 8)
  | [] => ([], [])
  | (r, x) :: rs =>
    let (gs, alone) := newMasks pc rs
    match x with
    | .go next => (addGroup next (1#8 <<< r.sl) gs, alone)
    | .exit => (gs, alone)
    | .trap _ _ => (gs, (1#8 <<< r.sl) :: alone)
    | .park w => if w.isFault then (gs, (1#8 <<< r.sl) :: alone) else (addGroup pc (1#8 <<< r.sl) gs, alone)

def raiseAll (s : State) (pc : Quad) (inst : Word) (gmask : BitVec 8) : List (SliceRef × SliceRes) → State
  | [] => s
  | (r, .trap f resume) :: rs =>
    raiseAll (s.raiseTrap r { info := f, tpc := resume.getD pc, tfpc := pc, inst := inst, gmask := gmask }) pc inst gmask rs
  | _ :: rs => raiseAll s pc inst gmask rs

/-- GMASK of a slice (04 R110, R136): in trap mode the slice alone. -/
def gmaskOf (s : State) (g : GangRef) (r : SliceRef) : BitVec 8 := if (s.slice r).tmode then 1#8 <<< r.sl else g.mask

/-- Replaces a gang by those it became; a split into n gangs counts n - 1 in event 4 (DESIGN CHOICE, log entry 94). -/
def State.splitGang (s : State) (g : GangRef) (readyAt : Nat) (groups : List (Quad × BitVec 8)) (alone : List (BitVec 8)) : State :=
  let rest := (s.gangsOf g.tid g.bent).filter fun x => x.mask != g.mask
  let made := groups.map (fun p => ({ mask := p.2, waiting := 0, readyAt := readyAt } : Gang))
    ++ alone.map fun m => ({ mask := m, waiting := 0, readyAt := 0 } : Gang)
  let s := s.setGangs g.tid g.bent (rest ++ made)
  s.count g.tid 4 (made.length - 1)

/-- The gang's instruction has been done for these slices. -/
def State.finishGang (s : State) (g : GangRef) (pid0 : Nat) (branch : Bool) (pc : Quad) (inst : Word)
    (res : List (SliceRef × SliceRes)) : State :=
  let s := settleAll s pid0 res
  let (groups, alone) := newMasks pc res
  let s := s.splitGang g (if branch then s.partClock s.iss.part + 2 else 0) groups alone
  let traps := res.filter fun p => p.2.isTrap
  let order := slotOrder s (traps.map (·.1))
  let sorted := order.flatMap fun r => traps.filter fun p => p.1 == r
  raiseAll s pc inst g.mask sorted

/-- First word and length of an instruction. -/
def instrWords (i : Instr) : List Nat := (encode i).getD []
def instrWord (i : Instr) : Word := BitVec.ofNat 32 ((instrWords i).headD 0)

/-- The address after an instruction (03 R71). -/
def nextPc (i : Instr) (pc : Quad) : Quad := pc + BitVec.ofNat 64 (4 * (instrWords i).length)

def gangPc (s : State) (g : GangRef) : Quad :=
  match g.refs with
  | [] => 0
  | r :: _ => (s.slice r).pc

/-- The issuing gang and the state without it at the head of those that issue. -/
def State.popIssue (s : State) : State := { s with iss := { s.iss with now := s.iss.now.tail, stalled := none } }

/-- An instruction issues for the gang at the head (03 R91, R98): `body` acts on the slices that pass. -/
def issueFor (g : GangRef) (i : Instr) (info : Info) (body : State → List SliceRef → Attempt) (s : State) : State :=
  let s0 := s.popIssue
  let pc := gangPc s0 g
  let (ok, bad, w) := precheckAll i info s0 g.refs
  match w with
  | some w => s0.stallGang w g.refs
  | none =>
    let s1 := acquireAll (setWaits s0 .none ok) (tokenMask info) ok
    match body s1 ok with
    | .stall w => s0.stallGang w g.refs
    | .stallEach ws => s0.stallEach ws
    | .publish cls => (s0.stallGang .retry g.refs).askPublish cls
    | .done s2 res => (s2.count g.tid 2).finishGang g s0.mem.nextOp info.branch pc (instrWord i) (res ++ bad)

/-- The meaning of an instruction, given what it checks and what it does with the slices of its gang. -/
def issueGang (i : Instr) (info : Info) (body : State → List SliceRef → Attempt) (s : State) :
    Host.Outcome State Fault Refusal :=
  match s.iss.now with
  | [] => .refused .noIssuingGang
  | g :: _ => .next (issueFor g i info body s)

/-- The meaning of an instruction that acts on each slice by itself. -/
def issueSlices (i : Instr) (info : Info) (f : State → SliceRef → SliceStep) (s : State) :
    Host.Outcome State Fault Refusal :=
  issueGang i info (fun s rs => runSlices f s rs) s

/-- A slice whose registers alone change, and that goes on at the next instruction. -/
def onSlice (i : Instr) (f : Slice → Slice) (s : State) (r : SliceRef) : SliceStep :=
  let x := s.slice r
  .ok (s.setSlice r (f x)) (.go (nextPc i x.pc))

/-- An instruction that only reads and writes registers of its own slice. -/
def issueRegs (i : Instr) (info : Info) (f : Slice → Slice) (s : State) : Host.Outcome State Fault Refusal :=
  issueSlices i info (onSlice i f) s

/-- An instruction that acts once per slice, if it executes (R91). -/
def issueScalar (i : Instr) (info : Info) (f : Slice → Slice) (s : State) : Host.Outcome State Fault Refusal :=
  issueRegs i info (fun x => if x.sliceOn info.gp info.gn then f x else x) s

def Head.info (h : Head) (regs : List Reg) : Info := { gp := h.gp, gn := h.gn, wk := h.wk, regs := regs }

/-! ## Values in registers (05 R145) -/

/-- The pattern of a type at a register of a lane. -/
def Slice.value (x : Slice) (t : Ty) (sc : Bool) (r lane : Nat) : Nat :=
  let get := fun n => if sc then (x.getS n).toNat else (x.getV n lane).toNat
  match t.regs with
  | 1 => get r % 2 ^ tyWidth t
  | 2 => get r + get (r + 1) * 2 ^ 32
  | _ => get r + get (r + 1) * 2 ^ 32 + get (r + 2) * 2 ^ 64 + get (r + 3) * 2 ^ 96

/-- Words written to a group from a register on. -/
def writesFrom (sc : Bool) (lane : Nat) : Nat → List Word → List RegWrite
  | _, [] => []
  | r, w :: ws => { reg := if sc then .s r else .v r, lane := if sc then 0 else lane, val := w } :: writesFrom sc lane (r + 1) ws

/-- A result of a type written to its register or group. -/
def resultWrites (t : Ty) (sc : Bool) (lane r : Nat) (v : Nat) : List RegWrite := writesFrom sc lane r (resultWords t v)

def boolWord (b : Bool) : Word := if b then 1 else 0

/-- The lanes, or the one unit, that execute (R80, R91). -/
def unitsOf (x : Slice) (gp : BitVec 3) (gn : Bool) (perSlice : Bool) : List Nat :=
  if perSlice then (if x.sliceOn gp gn then [0] else []) else x.lanesOn gp gn

/-- A lane-wise or per-slice computation: every unit reads the registers as they were. -/
def computeUnits (x0 : Slice) (f : Slice → Nat → List RegWrite × FFlags) : Slice → List Nat → Slice
  | x, [] => x
  | x, u :: us => let (ws, fl) := f x0 u; computeUnits x0 f ((x.putAll ws).raise fl) us

def computeSlice (gp : BitVec 3) (gn perSlice : Bool) (f : Slice → Nat → List RegWrite × FFlags) (x : Slice) : Slice :=
  computeUnits x f x (unitsOf x gp gn perSlice)

/-! ## Arithmetic layout (03 R80, R82) -/

def litBits (lit : Option Quad) : Nat := (lit.getD 0).toNat

/-- Operand B: the literal, the immediate or a register. -/
def Arith.opB (h : Head) (w : Arith) (t : Ty) (x : Slice) (lane : Nat) : Nat :=
  if w.bi then (if h.lit.isSome then litBits h.lit % 2 ^ tyWidth t else immOperand t w.imm)
  else x.value t w.kb h.b.toNat lane

def Arith.opA (h : Head) (w : Arith) (t : Ty) (x : Slice) (lane : Nat) : Nat := x.value t w.ka h.a.toNat lane

/-- Operand C: the literal with LEN 0b11 and BI = 0, or a register. -/
def Arith.opC (h : Head) (w : Arith) (t : Ty) (x : Slice) (lane : Nat) : Nat :=
  if litC h w then litBits h.lit % 2 ^ tyWidth t else x.value t w.kc h.c.toNat lane

/-- The registers of an arithmetic instruction, by the rule of its entry. -/
def arithRegs (r : ArithRule) (h : Head) (w : Arith) : List Reg :=
  (if r.predD && !w.dk then [.p h.d.toNat] else regGroup w.dk (r.nD w.ty) h.d.toNat)
  ++ (if r.readsA then regGroup w.ka (r.nA w.ty) h.a.toNat else [])
  ++ (if r.readsB && !w.bi then regGroup w.kb (r.nB w.ty) h.b.toNat else [])
  ++ (match r.c with | .reg n => if litC h w then [] else regGroup w.kc n h.c.toNat | .pred => [.p h.c.toNat] | _ => [])

def guardRegs (h : Head) : List Reg := if h.gp == 7 then [] else [.p h.gp.toNat]

/-- The issue of an arithmetic instruction: `f` gives the writes of one unit from its operands a, b and c. -/
def issueArith (i : Instr) (rule : ArithRule) (tA tB tC : Ty) (h : Head) (w : Arith)
    (f : Slice → Nat → Nat → Nat → Nat → List RegWrite × FFlags) (s : State) : Host.Outcome State Fault Refusal :=
  issueRegs i (Head.info h (arithRegs rule h w ++ guardRegs h))
    (computeSlice h.gp h.gn w.dk fun x u =>
      f x u (Arith.opA h w tA x u) (Arith.opB h w tB x u) (Arith.opC h w tC x u)) s

/-- An integer operation whose result has the instruction's type. -/
def issueInt (i : Instr) (rule : ArithRule) (op : IntOp) (h : Head) (w : Arith) (s : State) : Host.Outcome State Fault Refusal :=
  issueArith i rule w.ty w.ty w.ty h w
    (fun _ u a b c => let (r, fl) := op w.ty w.sat a b c; (resultWrites w.ty w.dk u h.d.toNat r, fl)) s

/-! ## Base formats (03 R73 to R75) -/

/-- Operand B of a B3 form: the literal, a scalar or vector register, or in scalar classes the 6-bit immediate. -/
def B3.opB (o : B3) (scalar : Bool) (x : Slice) (lane : Nat) : Nat :=
  match o.lit with
  | some l => l.toNat % 2 ^ 32
  | none =>
    if scalar then (if o.bk then o.b.toNat else (x.getS o.b.toNat).toNat)
    else if o.bk then (x.getS o.b.toNat).toNat else (x.getV o.b.toNat lane).toNat

def B3.bRegs (o : B3) (scalar : Bool) : List Reg :=
  if o.lit.isSome then []
  else if scalar then (if o.bk then [] else [.s o.b.toNat])
  else if o.bk then [.s o.b.toNat] else [.v o.b.toNat]

def baseReg (scalar : Bool) (n : Nat) : Reg := if scalar then .s n else .v n
def Slice.baseGet (x : Slice) (scalar : Bool) (n lane : Nat) : Nat := if scalar then (x.getS n).toNat else (x.getV n lane).toNat

/-- The issue of a B3 instruction: `f` gives the 32-bit result and flags from a, b and the old d. -/
def issueB3 (i : Instr) (scalar readsA readsB readsD : Bool) (o : B3) (f : Nat → Nat → Nat → Nat × FFlags) (s : State) :
    Host.Outcome State Fault Refusal :=
  let regs := [baseReg scalar o.d.toNat] ++ (if readsA then [baseReg scalar o.a.toNat] else [])
    ++ (if readsB then B3.bRegs o scalar else [])
  issueRegs i { regs := regs }
    (computeSlice 7 false scalar fun x u =>
      let a := x.baseGet scalar o.a.toNat u
      let (r, fl) := f a (B3.opB o scalar x u) (if readsD then x.baseGet scalar o.d.toNat u else 0)
      (writesFrom scalar u o.d.toNat [BitVec.ofNat 32 r], fl)) s

/-- The issue of a compare that writes a predicate, or a scalar 1 or 0 (R76). -/
def issueCmp (i : Instr) (scalar : Bool) (o : B3) (f : Nat → Nat → Bool × FFlags) (s : State) :
    Host.Outcome State Fault Refusal :=
  let dst : Reg := if scalar then .s o.d.toNat else .p o.d.toNat
  issueRegs i { regs := [dst, baseReg scalar o.a.toNat] ++ B3.bRegs o scalar }
    (computeSlice 7 false scalar fun x u =>
      let (r, fl) := f (x.baseGet scalar o.a.toNat u) (B3.opB o scalar x u)
      ([{ reg := dst, lane := u, val := boolWord r }], fl)) s

/-- The immediate of a BI form: sign-extended, or the literal's low word (R75). -/
def BI.value (o : BI) : Nat :=
  match o.lit with
  | some l => l.toNat % 2 ^ 32
  | none => (o.imm.signExtend 32).toNat

def issueBI (i : Instr) (scalar readsA : Bool) (o : BI) (f : Nat → Nat → Nat × FFlags) (s : State) :
    Host.Outcome State Fault Refusal :=
  issueRegs i { regs := [baseReg scalar o.d.toNat] ++ (if readsA then [baseReg scalar o.a.toNat] else []) }
    (computeSlice 7 false scalar fun x u =>
      let (r, fl) := f (x.baseGet scalar o.a.toNat u) (BI.value o)
      (writesFrom scalar u o.d.toNat [BitVec.ofNat 32 r], fl)) s

end Sys2Proof.Machine
end

