-- ==== Sys2Proof/Machine/IntArith.lean ====
section
/-! DEFINITION. The XI instructions (05 R152 to R156). -/

namespace Sys2Proof.Machine

def movRule : ArithRule := { tys := fun t => t.isInt || t == .b128, readsA := false }
def isetRule : ArithRule := { tys := Ty.isInt, c := .code 5, nD := fun _ => 1, predD := true }
def leaRule : ArithRule := { tys := fun t => t ∈ [.i32, .z32, .i64], c := .code 7, nD := fun _ => 2, nA := fun _ => 2 }
def carryRule : ArithRule := { tys := Ty.isWideInt, c := .reg 1 }

/-- The destination of ISET and FSET: a predicate, or a scalar 1 or 0 (R152). -/
def setWrite (w : Arith) (lane d : Nat) (b : Bool) : RegWrite :=
  { reg := if w.dk then .s d else .p d, lane := lane, val := boolWord b }

/-- ADDC and SUBB (R155): C is read as the carry in, bit 0, and written with the carry out. -/
def issueCarry (i : Instr) (op : Nat → Nat → Nat → Nat → Nat × Nat) (h : Head) (w : Arith) (s : State) :
    Host.Outcome State Fault Refusal :=
  issueArith i carryRule w.ty w.ty .z32 h w
    (fun _ u a b c =>
      let (r, cout) := op (tyWidth w.ty) a b (c % 2)
      (resultWrites w.ty w.dk u h.d.toNat r ++ writesFrom w.kc u h.c.toNat [BitVec.ofNat 32 cout], 0)) s

/-- XI_ADD (R153): Extended integer add with optional saturation. -/
def execXiAdd (h : Head) (w : Arith) (s : State) : Host.Outcome State Fault Refusal :=
  issueInt (.xiAdd h w) (xi2 true) opAdd h w s

/-- XI_SUB (R153): Extended integer subtract. -/
def execXiSub (h : Head) (w : Arith) (s : State) : Host.Outcome State Fault Refusal :=
  issueInt (.xiSub h w) (xi2 true) opSub h w s

/-- XI_ADDC (R155): Add with carry in and carry out through register C. -/
def execXiAddc (h : Head) (w : Arith) (s : State) : Host.Outcome State Fault Refusal :=
  issueCarry (.xiAddc h w) addCarry h w s

/-- XI_SUBB (R155): Subtract with borrow through register C. -/
def execXiSubb (h : Head) (w : Arith) (s : State) : Host.Outcome State Fault Refusal :=
  issueCarry (.xiSubb h w) subBorrow h w s

/-- XI_MUL (R153): Extended integer multiply. -/
def execXiMul (h : Head) (w : Arith) (s : State) : Host.Outcome State Fault Refusal :=
  issueInt (.xiMul h w) (xi2 true) opMul h w s

/-- XI_MULH (R153): High half of the exact product. -/
def execXiMulh (h : Head) (w : Arith) (s : State) : Host.Outcome State Fault Refusal :=
  issueInt (.xiMulh h w) xiWide opMulh h w s

/-- XI_MAD (R153): Multiply-add, exact before the fit. -/
def execXiMad (h : Head) (w : Arith) (s : State) : Host.Outcome State Fault Refusal :=
  issueInt (.xiMad h w) (xi3 Ty.isInt true w.ty) opMad h w s

/-- XI_MIN (R153): Integer minimum. -/
def execXiMin (h : Head) (w : Arith) (s : State) : Host.Outcome State Fault Refusal :=
  issueInt (.xiMin h w) (xi2 false) opMin h w s

/-- XI_MAX (R153): Integer maximum. -/
def execXiMax (h : Head) (w : Arith) (s : State) : Host.Outcome State Fault Refusal :=
  issueInt (.xiMax h w) (xi2 false) opMax h w s

/-- XI_ABS (R153): Integer absolute value. -/
def execXiAbs (h : Head) (w : Arith) (s : State) : Host.Outcome State Fault Refusal :=
  issueInt (.xiAbs h w) (xi1 Ty.isInt true) opAbs h w s

/-- XI_NEG (R153): Integer negation. -/
def execXiNeg (h : Head) (w : Arith) (s : State) : Host.Outcome State Fault Refusal :=
  issueInt (.xiNeg h w) (xi1 Ty.isInt true) opNeg h w s

/-- XI_AND (R153): Bitwise AND. -/
def execXiAnd (h : Head) (w : Arith) (s : State) : Host.Outcome State Fault Refusal :=
  issueInt (.xiAnd h w) xiWide opAnd h w s

/-- XI_OR (R153): Bitwise OR. -/
def execXiOr (h : Head) (w : Arith) (s : State) : Host.Outcome State Fault Refusal :=
  issueInt (.xiOr h w) xiWide opOr h w s

/-- XI_XOR (R153): Bitwise XOR. -/
def execXiXor (h : Head) (w : Arith) (s : State) : Host.Outcome State Fault Refusal :=
  issueInt (.xiXor h w) xiWide opXor h w s

/-- XI_ANDN (R153): a AND NOT b. -/
def execXiAndn (h : Head) (w : Arith) (s : State) : Host.Outcome State Fault Refusal :=
  issueInt (.xiAndn h w) xiWide opAndn h w s

/-- XI_ORN (R153): a OR NOT b. -/
def execXiOrn (h : Head) (w : Arith) (s : State) : Host.Outcome State Fault Refusal :=
  issueInt (.xiOrn h w) xiWide opOrn h w s

/-- XI_NOT (R153): Bitwise NOT. -/
def execXiNot (h : Head) (w : Arith) (s : State) : Host.Outcome State Fault Refusal :=
  issueInt (.xiNot h w) (xi1 Ty.isWideInt) opNot h w s

/-- XI_SHL (R154): Shift left. -/
def execXiShl (h : Head) (w : Arith) (s : State) : Host.Outcome State Fault Refusal :=
  issueInt (.xiShl h w) (xi2 false) opShl h w s

/-- XI_SHR (R154): Logical shift right. -/
def execXiShr (h : Head) (w : Arith) (s : State) : Host.Outcome State Fault Refusal :=
  issueInt (.xiShr h w) (xi2 false) opShr h w s

/-- XI_SAR (R154): Arithmetic shift right. -/
def execXiSar (h : Head) (w : Arith) (s : State) : Host.Outcome State Fault Refusal :=
  issueInt (.xiSar h w) (xi2 false) opSar h w s

/-- XI_ROL (R154): Rotate left. -/
def execXiRol (h : Head) (w : Arith) (s : State) : Host.Outcome State Fault Refusal :=
  issueInt (.xiRol h w) (xi2 false) opRol h w s

/-- XI_SHF (R154): Funnel shift right of the pair c:a. -/
def execXiShf (h : Head) (w : Arith) (s : State) : Host.Outcome State Fault Refusal :=
  issueInt (.xiShf h w) (xi3 Ty.isWideInt false w.ty) opShf h w s

/-- XI_CLZ (R154): Count leading zeros. -/
def execXiClz (h : Head) (w : Arith) (s : State) : Host.Outcome State Fault Refusal :=
  issueInt (.xiClz h w) (xi1 Ty.isInt) opClz h w s

/-- XI_CTZ (R154): Count trailing zeros. -/
def execXiCtz (h : Head) (w : Arith) (s : State) : Host.Outcome State Fault Refusal :=
  issueInt (.xiCtz h w) (xi1 Ty.isInt) opCtz h w s

/-- XI_POPC (R154): Population count. -/
def execXiPopc (h : Head) (w : Arith) (s : State) : Host.Outcome State Fault Refusal :=
  issueInt (.xiPopc h w) (xi1 Ty.isInt) opPopc h w s

/-- XI_BREV (R154): Bit reverse. -/
def execXiBrev (h : Head) (w : Arith) (s : State) : Host.Outcome State Fault Refusal :=
  issueInt (.xiBrev h w) (xi1 Ty.isInt) opBrev h w s

/-- XI_BFX (R154): Bit-field extract. -/
def execXiBfx (h : Head) (w : Arith) (s : State) : Host.Outcome State Fault Refusal :=
  issueInt (.xiBfx h w) xiWide opBfx h w s

/-- XI_BFI (R154): Bit-field insert. -/
def execXiBfi (h : Head) (w : Arith) (s : State) : Host.Outcome State Fault Refusal :=
  issueInt (.xiBfi h w) (xi3 Ty.isWideInt false w.ty) opBfi h w s

/-- XI_BPERM (R154): Byte permute from the pair c:a. -/
def execXiBperm (h : Head) (w : Arith) (s : State) : Host.Outcome State Fault Refusal :=
  issueInt (.xiBperm h w) (xi3 Ty.isWideInt false w.ty) opBperm h w s

/-- XI_SEL (R153): Selects a or b by a predicate. -/
def execXiSel (h : Head) (w : Arith) (s : State) : Host.Outcome State Fault Refusal :=
  issueArith (.xiSel h w) selRule w.ty w.ty w.ty h w
    (fun x u a b _ => (resultWrites w.ty w.dk u h.d.toNat (if x.getP h.c.toNat u then a else b), 0)) s

/-- XI_MOV (R153): Extended move, including b128. -/
def execXiMov (h : Head) (w : Arith) (s : State) : Host.Outcome State Fault Refusal :=
  issueArith (.xiMov h w) movRule w.ty w.ty w.ty h w
    (fun _ u _ b _ => (resultWrites w.ty w.dk u h.d.toNat b, 0)) s

/-- XI_ISET (R153): Extended integer compare into a predicate or a scalar. -/
def execXiIset (h : Head) (w : Arith) (s : State) : Host.Outcome State Fault Refusal :=
  issueArith (.xiIset h w) isetRule w.ty w.ty w.ty h w
    (fun _ u a b _ => ([setWrite w u h.d.toNat (intCompare w.ty h.c.toNat a b)], 0)) s

/-- XI_LEA (R156): Computes a 64-bit address a + (b << shift). -/
def execXiLea (h : Head) (w : Arith) (s : State) : Host.Outcome State Fault Refusal :=
  issueArith (.xiLea h w) leaRule .i64 w.ty w.ty h w
    (fun _ u a b _ => (resultWrites .i64 w.dk u h.d.toNat (leaAddr w.ty a b h.c.toNat), 0)) s

end Sys2Proof.Machine
end

