-- ==== Sys2Proof/Machine/Long.lean ====
section
/-! DEFINITION. Class L instructions: pending destinations and the landing of results (03 R93 to R95, 04 R140);
and bent-scope instructions, which begin with an implicit REGANG (04 R115). -/

namespace Sys2Proof.Machine

/-- A fresh number for an operation, a pending destination or a record. -/
def State.fresh (s : State) : Nat × State :=
  (s.mem.nextOp, { s with mem := { s.mem with nextOp := s.mem.nextOp + 1 } })

/-- A slice gains a pending destination. -/
def State.addPending (s : State) (r : SliceRef) (p : Pending) : State := s.modSlice r fun x => { x with pend := x.pend ++ [p] }

/-- A pending destination of an instruction at the slice's PC. -/
def newPending (s : State) (r : SliceRef) (i : Instr) (la : Nat) (regs : List Reg) (result : Option (List RegWrite))
    (fl : FFlags) (flt : Option FaultInfo) : Pending :=
  { pid := s.mem.nextOp, regs := regs, window := la, pc := (s.slice r).pc, inst := instrWord i, result := result,
    flags := fl, fault := flt, queued := false }

/-- The writes and flags of several units. -/
def longResult (units : List Nat) (f : Nat → List RegWrite × FFlags) : List RegWrite × FFlags :=
  match units with
  | [] => ([], 0)
  | u :: us =>
    let (ws, fl) := f u
    let (ws', fl') := longResult us f
    (ws ++ ws', fl ||| fl')

/-- A class L instruction whose result is known at issue and lands later. One that executes in no unit has
no pending destination. -/
def issueLong (i : Instr) (info : Info) (la : Nat) (regs : List Reg) (f : Slice → List RegWrite × FFlags) (s : State) :
    Host.Outcome State Fault Refusal :=
  issueSlices i info (fun s r =>
    let x := s.slice r
    let (ws, fl) := f x
    if ws.isEmpty then .ok s (.go (nextPc i x.pc))
    else
      let p := newPending s r i la regs (some ws) fl none
      .ok (s.fresh.2.addPending r p) (.go (nextPc i x.pc))) s

/-- A completion fault of an instruction at `pc` (04 R140): the slice leaves its gang and traps, with TPC at its first
instruction not yet issued; a slice that waits to exit traps in the same way and meets its EXIT again. One that has
exited takes no trap. -/
def State.completionFault (s : State) (r : SliceRef) (f : FaultInfo) (pc : Quad) (inst : Word) : State :=
  let x := s.slice r
  if x.trapWait.isSome || x.stopped || x.exited then s
  else
    let gm := if x.tmode then 1#8 <<< r.sl else s.gangMask r
    let s := s.modSlice r fun x => { x with wait := x.wait.again, exiting := false }
    (s.leaveGang r).raiseTrap r { info := f, tpc := x.pc, tfpc := pc, inst := inst, gmask := gm }

/-- Lands a result: the registers and flags are written. A completion fault leaves the destination unwritten. -/
def State.land (s : State) (r : SliceRef) (pid : Nat) : State :=
  let x := s.slice r
  match x.pend.find? fun p => p.pid == pid with
  | none => s
  | some p =>
    match p.result with
    | none => s
    | some ws =>
      let rest := x.pend.filter fun q => q.pid != pid
      match p.fault with
      | none => s.modSlice r fun x => { ((x.putAll ws).raise p.flags) with pend := rest, wait := x.wait.again }
      | some f => (s.modSlice r fun x => { x.raise p.flags with pend := rest, wait := x.wait.again }).completionFault r f p.pc p.inst

/-! ## Bent scope (04 R114 to R116) -/

/-- A bent-scope instruction: a slice that reaches it waits there; the slices released together issue it. -/
def issueBent (i : Instr) (info : Info) (body : State → List SliceRef → Attempt) (s : State) :
    Host.Outcome State Fault Refusal :=
  match s.iss.now with
  | [] => .refused .noIssuingGang
  | g :: _ =>
    let go := g.refs.all fun r => (s.slice r).wait == .released
    .next (issueFor g i { info with bentScope := true }
      (fun s rs => if go then body s rs else .done s (rs.map fun r => (r, .park (.regang false)))) s)

/-- Bent position of a lane (04 R131). -/
def bentPos (r : SliceRef) (lane : Nat) : Nat := 4 * r.sl + lane

/-- The lanes of the slices that take part and are present (R131), by rising position. -/
def presentLanes (s : State) (gp : BitVec 3) (gn : Bool) : List SliceRef → List (SliceRef × Nat)
  | [] => []
  | r :: rs => ((s.slice r).lanesOn gp gn).map (fun j => (r, j)) ++ presentLanes s gp gn rs

/-- Every slice goes on at the instruction after this one. -/
def allGo (i : Instr) (s : State) (rs : List SliceRef) : List (SliceRef × SliceRes) :=
  rs.map fun r => (r, .go (nextPc i (s.slice r).pc))

end Sys2Proof.Machine
end

