-- ==== Sys2Proof/Machine/Trans.lean ====
section
/-! DEFINITION. The transcendental functions of XF on f32 (05 R161): fixed-point values with `workBits`
fractional bits, then one rounding. Exact cases stand apart. -/

namespace Sys2Proof.Machine

/-- Fractional bits of the working values: the smallest magnitudes of x³ for an f32 x lie above 2^−450. -/
def workBits : Nat := 800

def fixOne : Nat := 2 ^ workBits

def fixMul (a b : Nat) : Nat := a * b / 2 ^ workBits
def fixDiv (a b : Nat) : Nat := a * 2 ^ workBits / b

/-- A positive value in fixed point, truncated. -/
def Dyad.toFix (d : Dyad) : Nat :=
  let k : Int := d.e + workBits
  if k ≥ 0 then d.m * 2 ^ k.toNat else d.m / 2 ^ (-k).toNat

/-- A fixed-point value that is not exact, as a value that rounds rightly. -/
def fixDyad (neg : Bool) (n : Nat) : Dyad := stickyDyad neg n (-(workBits : Int)) true

/-- atanh z for 0 ≤ z ≤ 1/3: the terms z^(2k+1)/(2k+1). -/
def atanhTerms (z2 : Nat) : Nat → Nat → Nat → Nat
  | 0, _, _ => 0
  | n + 1, k, p => p / (2 * k + 1) + atanhTerms z2 n (k + 1) (fixMul p z2)

def fixAtanh (z : Nat) : Nat := atanhTerms (fixMul z z) 260 0 z

/-- ln 2 = 2 atanh (1/3). -/
def fixLn2 : Nat := 2 * fixAtanh (fixOne / 3)

/-- atan (1/q): alternating terms. -/
def atanTerms (q2 : Nat) : Nat → Nat → Nat → Nat × Nat
  | 0, _, _ => (0, 0)
  | n + 1, k, p =>
    let (a, b) := atanTerms q2 n (k + 1) (p / q2)
    if k % 2 = 0 then (a + p / (2 * k + 1), b) else (a, b + p / (2 * k + 1))

/-- π with 1000 fractional bits (Machin). -/
def piBits : Nat := 1000

def piFix : Nat :=
  let a := atanTerms 25 220 0 (2 ^ piBits / 5)
  let b := atanTerms (239 * 239) 70 0 (2 ^ piBits / 239)
  4 * (4 * (a.1 - a.2) - (b.1 - b.2))

/-- Σ t^n/n!. -/
def expTerms (t : Nat) : Nat → Nat → Nat → Nat
  | 0, _, _ => 0
  | n + 1, k, p => p + expTerms t n (k + 1) (fixMul p t / (k + 1))

/-- 2^f for 0 ≤ f < 1. -/
def fixExp2 (f : Nat) : Nat := expTerms (fixMul f fixLn2) 170 0 fixOne

/-- sin and cos by their series: the sums of the even and the odd terms, positive and negative. -/
def trigTerms (t2 : Nat) : Nat → Nat → Nat → Nat × Nat
  | 0, _, _ => (0, 0)
  | n + 1, k, p =>
    let (a, b) := trigTerms t2 n (k + 2) (fixMul p t2 / ((k + 1) * (k + 2)))
    (p + b, a)

def fixSin (t : Nat) : Nat := let (a, b) := trigTerms (fixMul t t) 90 1 t; a - b
def fixCos (t : Nat) : Nat := let (a, b) := trigTerms (fixMul t t) 90 0 fixOne; a - b

/-- x mod π/2 for x ≥ 0, in working bits, and the quadrant. -/
def reduceArg (d : Dyad) : Nat × Nat :=
  let k : Int := d.e + piBits
  let x := if k ≥ 0 then d.m * 2 ^ k.toNat else d.m / 2 ^ (-k).toNat
  let half := piFix / 2
  (x % half / 2 ^ (piBits - workBits), x / half % 4)

def signedTrig (q : Nat) (t : Nat) : Dyad :=
  match q with
  | 0 => fixDyad false (fixSin t)
  | 1 => fixDyad false (fixCos t)
  | 2 => fixDyad true (fixSin t)
  | _ => fixDyad true (fixCos t)

/-- sin of a nonzero value. -/
def sinDyad (d : Dyad) : Dyad :=
  let (t, q) := reduceArg d
  let v := signedTrig q t
  { v with neg := v.neg != d.neg }

/-- cos of a nonzero value. -/
def cosDyad (d : Dyad) : Dyad :=
  let (t, q) := reduceArg d
  signedTrig ((q + 1) % 4) t

/-- 2^d: the integer part moves the exponent, and an integer d is exact. -/
def exp2Dyad (d : Dyad) : Dyad :=
  let i : Int := if d.e ≥ 0 then d.atExp 0 else (d.atExp d.e) / ((2 ^ (-d.e).toNat : Nat) : Int)
  let fr : Nat := if d.e ≥ 0 then 0 else ((d.atExp d.e) % ((2 ^ (-d.e).toNat : Nat) : Int)).toNat
  if fr = 0 then { neg := false, m := 1, e := i }
  else (fixDyad false (fixExp2 (({ neg := false, m := fr, e := d.e } : Dyad).toFix))).scale i

/-- log₂ of a positive value: a power of two is exact. -/
def log2Dyad (d : Dyad) : Dyad :=
  let l := Nat.log2 d.m
  let i : Int := d.e + l
  if d.m = 2 ^ l then Dyad.ofInt i
  else
    let m := d.m * 2 ^ workBits / 2 ^ l
    let f := fixDiv (2 * fixAtanh (fixDiv (m - fixOne) (m + fixOne))) fixLn2
    let n : Int := i * (fixOne : Int) + (f : Int)
    stickyDyad (decide (n < 0)) (if n < 0 then (-n).toNat - 1 else n.toNat) (-(workBits : Int)) true

/-- tanh of a nonzero value: (1 − e^(−2x)) / (1 + e^(−2x)); from 64 on it is 1 less a little. -/
def tanhDyad (d : Dyad) : Dyad :=
  if !(d.abs.lt { neg := false, m := 64, e := 0 }) then
    stickyDyad d.neg (2 ^ 100 - 1) (-100) true
  else
    let y := fixDiv (2 * d.abs.toFix) fixLn2
    let k := y / fixOne
    let f := y % fixOne
    let w := if f = 0 then fixOne / 2 ^ k else fixExp2 (fixOne - f) / 2 ^ (k + 1)
    fixDyad d.neg (fixDiv (fixOne - w) (fixOne + w))

/-- Large magnitudes of FEX2 leave the format in either direction long before this. -/
def exp2Bound : Dyad := { neg := false, m := 1024, e := 0 }

def fEx2 (f : Fmt) (m : FMode) (a : Nat) : Nat × FFlags :=
  match f.operand m.ftz a with
  | .nan s => (f.nanCode, flagIf s flagNV)
  | .inf n => if n then (0, 0) else (f.infCode, 0)
  | .fin d =>
    let d' := if exp2Bound.lt d.abs then { exp2Bound with neg := d.neg } else d
    f.round m.rnd m.sat m.ftz (if d.m = 0 then { neg := false, m := 1, e := 0 } else exp2Dyad d')

def fLg2 (f : Fmt) (m : FMode) (a : Nat) : Nat × FFlags :=
  match f.operand m.ftz a with
  | .nan s => (f.nanCode, flagIf s flagNV)
  | .inf n => if n then (f.nanCode, flagNV) else (f.infCode, 0)
  | .fin d =>
    if d.m = 0 then (f.withSign true f.infCode, flagDZ)
    else if d.neg then (f.nanCode, flagNV)
    else f.round m.rnd m.sat m.ftz (log2Dyad d)

def fSin (f : Fmt) (m : FMode) (a : Nat) : Nat × FFlags :=
  match f.operand m.ftz a with
  | .nan s => (f.nanCode, flagIf s flagNV)
  | .inf _ => (f.nanCode, flagNV)
  | .fin d => if d.m = 0 then (f.withSign d.neg 0, 0) else f.round m.rnd m.sat m.ftz (sinDyad d)

def fCos (f : Fmt) (m : FMode) (a : Nat) : Nat × FFlags :=
  match f.operand m.ftz a with
  | .nan s => (f.nanCode, flagIf s flagNV)
  | .inf _ => (f.nanCode, flagNV)
  | .fin d => f.round m.rnd m.sat m.ftz (if d.m = 0 then { neg := false, m := 1, e := 0 } else cosDyad d)

def fTanh (f : Fmt) (m : FMode) (a : Nat) : Nat × FFlags :=
  match f.operand m.ftz a with
  | .nan s => (f.nanCode, flagIf s flagNV)
  | .inf n => (f.withSign n (f.round .rn false false { neg := false, m := 1, e := 0 }).1, 0)
  | .fin d => if d.m = 0 then (f.withSign d.neg 0, 0) else f.round m.rnd m.sat m.ftz (tanhDyad d)

end Sys2Proof.Machine
end

