-- ==== Sys2Proof/Machine/FloatArith.lean ====
section
/-! DEFINITION. The XF instructions (05 R157 to R161). -/

namespace Sys2Proof.Machine

def ffmaRule (t : Ty) : ArithRule :=
  { tys := Ty.isFloat, rnd := true, sat := true, ftz := true, c := .reg t.regs }
def fsetRule : ArithRule := { tys := Ty.isFloat, ftz := true, c := .code 7, nD := fun _ => 1, predD := true }
def fclassRule : ArithRule := { tys := Ty.isFloat, readsB := false, nD := fun _ => 1 }

def fmtOf (t : Ty) : Fmt := (tyFmt t).getD fmtF32

def Arith.mode (w : Arith) : FMode := { rnd := w.rnd, sat := w.sat, ftz := w.ftz }

/-- A floating operation whose result has the instruction's type. -/
def issueFloat (i : Instr) (rule : ArithRule) (op : Fmt → FMode → Nat → Nat → Nat → Nat × FFlags) (h : Head) (w : Arith)
    (s : State) : Host.Outcome State Fault Refusal :=
  issueArith i rule w.ty w.ty w.ty h w
    (fun _ u a b c =>
      let (r, fl) := op (fmtOf w.ty) (Arith.mode w) a b c
      (resultWrites w.ty w.dk u h.d.toNat r, fl)) s

/-- FSIN, FCOS and FTANH are class L: the result is pending until it lands. -/
def issueFloatLong (i : Instr) (op : Fmt → FMode → Nat → Nat × FFlags) (h : Head) (w : Arith) (s : State) :
    Host.Outcome State Fault Refusal :=
  issueLong i (Head.info h (arithRegs (xf1 isF32 false false) h w ++ guardRegs h)) h.la.toNat (regGroup w.dk 1 h.d.toNat)
    (fun x =>
      longResult (unitsOf x h.gp h.gn w.dk) fun u =>
        let (r, fl) := op (fmtOf w.ty) (Arith.mode w) (Arith.opA h w w.ty x u)
        (resultWrites w.ty w.dk u h.d.toNat r, fl)) s

/-- XF_FADD (R158): Floating add with RND, SAT and FTZ. -/
def execXfFadd (h : Head) (w : Arith) (s : State) : Host.Outcome State Fault Refusal :=
  issueFloat (.xfFadd h w) (xf2 true true) (fun f m a b _ => fAdd f m a b) h w s

/-- XF_FSUB (R158): Floating subtract. -/
def execXfFsub (h : Head) (w : Arith) (s : State) : Host.Outcome State Fault Refusal :=
  issueFloat (.xfFsub h w) (xf2 true true) (fun f m a b _ => fSub f m a b) h w s

/-- XF_FMUL (R158): Floating multiply. -/
def execXfFmul (h : Head) (w : Arith) (s : State) : Host.Outcome State Fault Refusal :=
  issueFloat (.xfFmul h w) (xf2 true true) (fun f m a b _ => fMul f m a b) h w s

/-- XF_FFMA (R158): Fused multiply-add with one rounding. -/
def execXfFfma (h : Head) (w : Arith) (s : State) : Host.Outcome State Fault Refusal :=
  issueFloat (.xfFfma h w) (ffmaRule w.ty) fFma h w s

/-- XF_FMIN (R158): Floating minimum. -/
def execXfFmin (h : Head) (w : Arith) (s : State) : Host.Outcome State Fault Refusal :=
  issueFloat (.xfFmin h w) (xf2 false false) (fun f m a b _ => fMinMax false f m a b) h w s

/-- XF_FMAX (R158): Floating maximum. -/
def execXfFmax (h : Head) (w : Arith) (s : State) : Host.Outcome State Fault Refusal :=
  issueFloat (.xfFmax h w) (xf2 false false) (fun f m a b _ => fMinMax true f m a b) h w s

/-- XF_FSET (R159): Floating compare into a predicate or a scalar. -/
def execXfFset (h : Head) (w : Arith) (s : State) : Host.Outcome State Fault Refusal :=
  issueArith (.xfFset h w) fsetRule w.ty w.ty w.ty h w
    (fun _ u a b _ =>
      let (r, fl) := fSet (fmtOf w.ty) w.ftz h.c.toNat a b
      ([setWrite w u h.d.toNat r], fl)) s

/-- XF_FCLASS (R159): Writes a one-hot class mask of the operand. -/
def execXfFclass (h : Head) (w : Arith) (s : State) : Host.Outcome State Fault Refusal :=
  issueArith (.xfFclass h w) fclassRule w.ty w.ty w.ty h w
    (fun _ u a _ _ => (writesFrom w.dk u h.d.toNat [BitVec.ofNat 32 (fClass (fmtOf w.ty) a)], 0)) s

/-- XF_FRND (R160): Rounds to an integral value of the same type. -/
def execXfFrnd (h : Head) (w : Arith) (s : State) : Host.Outcome State Fault Refusal :=
  issueFloat (.xfFrnd h w) (xf1 Ty.isFloat true false) (fun f m a _ _ => fRnd f m a) h w s

/-- XF_FRCP (R161): Correctly rounded reciprocal. -/
def execXfFrcp (h : Head) (w : Arith) (s : State) : Host.Outcome State Fault Refusal :=
  issueFloat (.xfFrcp h w) (xf1 isF3264 true true) (fun f m a _ _ => fRcp f m a) h w s

/-- XF_FRSQ (R161): Correctly rounded reciprocal square root. -/
def execXfFrsq (h : Head) (w : Arith) (s : State) : Host.Outcome State Fault Refusal :=
  issueFloat (.xfFrsq h w) (xf1 isF3264 false false) (fun f m a _ _ => fRsq f m a) h w s

/-- XF_FSQRT (R161): Correctly rounded square root. -/
def execXfFsqrt (h : Head) (w : Arith) (s : State) : Host.Outcome State Fault Refusal :=
  issueFloat (.xfFsqrt h w) (xf1 isF3264 true true) (fun f m a _ _ => fSqrt f m a) h w s

/-- XF_FEX2 (R161): Correctly rounded base-2 exponential. -/
def execXfFex2 (h : Head) (w : Arith) (s : State) : Host.Outcome State Fault Refusal :=
  issueFloat (.xfFex2 h w) (xf1 isF32 false false) (fun f m a _ _ => fEx2 f m a) h w s

/-- XF_FLG2 (R161): Correctly rounded base-2 logarithm. -/
def execXfFlg2 (h : Head) (w : Arith) (s : State) : Host.Outcome State Fault Refusal :=
  issueFloat (.xfFlg2 h w) (xf1 isF32 false false) (fun f m a _ _ => fLg2 f m a) h w s

/-- XF_FSIN (R161): Correctly rounded sine, class L. -/
def execXfFsin (h : Head) (w : Arith) (s : State) : Host.Outcome State Fault Refusal :=
  issueFloatLong (.xfFsin h w) (fun f m a => fSin f m a) h w s

/-- XF_FCOS (R161): Correctly rounded cosine, class L. -/
def execXfFcos (h : Head) (w : Arith) (s : State) : Host.Outcome State Fault Refusal :=
  issueFloatLong (.xfFcos h w) (fun f m a => fCos f m a) h w s

/-- XF_FTANH (R161): Correctly rounded hyperbolic tangent, class L. -/
def execXfFtanh (h : Head) (w : Arith) (s : State) : Host.Outcome State Fault Refusal :=
  issueFloatLong (.xfFtanh h w) (fun f m a => fTanh f m a) h w s

end Sys2Proof.Machine
end

