-- ==== Sys2Proof/Machine/Fetch.lean ====
section
/-! DEFINITION. Instruction fetch (03 R71, 07 R254) and recoverable faults of slices (06 R175). -/

namespace Sys2Proof.Machine

/-- What the fetch of an instruction gives. -/
inductive Fetch where
  | words (ws : List Nat)
  /-- XLATE, PERM or POISON at an address, with the first word where it was read. -/
  | fault (cause : Nat) (addr : Nat) (first : Nat)
  | absent (level : Nat) (mig : Bool) (addr : Nat)

/-- The bytes of a line that an instruction cache holds for a KEYID (07 R256). -/
def L1.code (c : L1) (line key : Nat) : Option (List Byte) :=
  match smFind line c.icache with
  | some x => if x.key = key then some x.data else none
  | none => none

/-- A line that is held but is no longer what memory has. -/
def State.staleCode (s : State) (cl line : Nat) : Bool :=
  match smFind line (s.l1 cl).icache with
  | some x => x.data != memReadN s.mem.bytes (line * 128) 128
  | none => false

def dropCode (line : Nat) (stale : Bool) (m : SMap IcLine) : SMap IcLine := if stale then smDel line m else m

/-- A line comes into the instruction cache through the L2. Its neighbours go where they are no longer what memory has, so that
an instruction over two lines is of one time (07 R254; log entry 103). -/
def State.fillIcache (s : State) (cl key line : Nat) : State :=
  let s := s.readL2 (dieOfCluster cl) (line * 128) 128 key 0 .none
  let c := s.l1 cl
  let ic := dropCode (line - 1) (s.staleCode cl (line - 1)) (dropCode (line + 1) (s.staleCode cl (line + 1)) c.icache)
  s.setL1 cl { c with icache := smSet line { key := key, data := memReadN s.mem.bytes (line * 128) 128 } ic }

def codeWord (data : List Byte) (pa : Nat) : Nat := natOfBytes ((data.drop (pa % 128)).take 4)

/-- One word at a virtual address. -/
def State.fetchWord (s : State) (hp ctx cl va : Nat) : Xlat × Nat × State :=
  match s.xlate hp ctx va .fetch (some cl) with
  | (.ok e pa, s) =>
    match (s.l1 cl).code (lineOf pa) e.keyid with
    | some d => (.ok e pa, codeWord d pa, s)
    | none =>
      let s := s.orBlock false pa 4
      let pa := s.engineAt false pa
      if !(s.reachable hp e.keyid pa) then (.ok e 0, 2 ^ 32, ((s.countKey e.keyid).bumpErr 7).bumpErr 6)
      else if s.poisoned pa 4 then (.ok e 0, 2 ^ 32, s.bumpErr 6)
      else (.ok e pa, codeWord (memReadN s.mem.bytes (lineOf pa * 128) 128) pa, s.fillIcache cl e.keyid (lineOf pa))
  | (x, s) => (x, 0, s)

/-- `n` words from an address on; a word of 2^32 stands for a poisoned one. -/
def State.fetchWords (s : State) (hp ctx cl va first : Nat) : Nat → Fetch × State
  | 0 => (.words [], s)
  | n + 1 =>
    match s.fetchWord hp ctx cl (va % 2 ^ 64) with
    | (.ok _ _, w, s) =>
      if w ≥ 2 ^ 32 then (.fault causePoison va first, s)
      else
        match State.fetchWords s hp ctx cl (va + 4) first n with
        | (.words ws, s) => (.words (w :: ws), s)
        | x => x
    | (.xlate, _, s) => (.fault causeXlate va first, s)
    | (.perm, _, s) => (.fault causePerm va first, s)
    | (.absent level mig, _, s) => (.absent level mig va, s)

/-- The words of the instruction at an address: the first gives their number (R71). -/
def State.fetchOnce (s : State) (hp ctx cl va : Nat) : Fetch × State :=
  match s.fetchWords hp ctx cl va 0 1 with
  | (.words (w :: _), s) =>
    match s.fetchWords hp ctx cl (va + 4) w (wordCount w - 1) with
    | (.words ws, s) => (.words (w :: ws), s)
    | x => x
  | x => x

/-- The instruction at an address. One that lies in two lines is read once both are held. -/
def State.fetchInstr (s : State) (hp ctx cl va : Nat) : Fetch × State :=
  match s.fetchOnce hp ctx cl va with
  | (.words ws, t) => if va / 128 = (va + 4 * ws.length - 4) / 128 then (.words ws, t) else t.fetchOnce hp ctx cl va
  | x => x

def State.fetchFor (s : State) (g : GangRef) : Fetch × State :=
  let t := s.team g.tid
  s.fetchInstr t.hp t.ctx (t.clusterOf g.bent) (gangPc s g).toNat

/-- Opens or joins the fault record of a slice's access (06 R176). -/
def State.sliceFault (s : State) (r : SliceRef) (level : Nat) (mig : Bool) (va : Nat) (acc : Access) : Nat × State :=
  let t := s.team r.tid
  s.openFault { fid := 0, hp := t.hp, ctx := t.ctx, level := level, va := faultKey level va, mig := mig,
                access := accessBit acc, source := 0, unit_ := t.clusterOf r.bent, team := t.linear, bent := r.bent,
                slice := r.sl, tag := none }

/-- Every slice of a gang parks on a fetch that found no translation. -/
def parkAll (level : Nat) (mig : Bool) (va : Nat) : State → List SliceRef → State × List (SliceRef × SliceRes)
  | s, [] => (s, [])
  | s, r :: rs =>
    let (fid, s) := s.sliceFault r level mig va .fetch
    let (s, xs) := parkAll level mig va s rs
    (s, (r, .park (.fault [fid] 15 (BitVec.ofNat 64 va))) :: xs)

/-- A fault on the whole instruction before or at its decoding: every slice of the gang takes it. -/
def faultGang (s : State) (g : GangRef) (f : FaultInfo) (inst : Nat) : State :=
  let s := s.popIssue
  s.finishGang g s.mem.nextOp false (gangPc s g) (BitVec.ofNat 32 inst) (g.refs.map fun r => (r, .trap f none))

def parkGang (s : State) (g : GangRef) (level : Nat) (mig : Bool) (va : Nat) : State :=
  let s := s.popIssue
  let (s, xs) := parkAll level mig va s g.refs
  s.finishGang g s.mem.nextOp false (gangPc s g) 0 xs

end Sys2Proof.Machine
end

