-- ==== Sys2Proof/Machine/Access.lean ====
section
/-! DEFINITION. What the memory instructions share: addresses (06 R193), the checks of R174, routes around a
migration (R207), reads of a lane, scratchpad offsets (01 R32), and new operations (07 R215, R225). -/

namespace Sys2Proof.Machine

/-! ## Addresses -/

/-- Base(A, U) of an address pair, or the literal (03 R81, R82). -/
def Slice.basePair (x : Slice) (h : Head) (lane : Nat) : Nat :=
  match h.lit with
  | some l => l.toNat
  | none =>
    let a := h.a.toNat
    if 128 ≤ a then (x.getPair (2 * (a - 128))).toNat
    else (x.getV (2 * a) lane).toNat + (x.getV (2 * a + 1) lane).toNat * 2 ^ 32

def pairRegs (h : Head) : List Reg :=
  let a := h.a.toNat
  if h.lit.isSome then []
  else if 128 ≤ a then [.s (2 * (a - 128)), .s (2 * (a - 128) + 1)] else [.v (2 * a), .v (2 * a + 1)]

/-- A base and a signed offset, modulo 2^64. -/
def addOff (base : Nat) (off : BitVec 24) : Nat := (((base : Int) + off.toInt) % (2 ^ 64 : Int)).toNat

def Slice.memAddr (x : Slice) (h : Head) (off : BitVec 24) (lane : Nat) : Nat := addOff (x.basePair h lane) off

/-- The bytes of a type (R189). -/
def tyBytes (t : Ty) : Nat := tyWidth t / 8

/-! ## Checks (R174) -/

/-- One lane's access, translated. -/
structure LaneAcc where
  lane : Nat
  va : Nat
  pa : Nat
  ent : TlbEntry

inductive Checked where
  | ok (ls : List LaneAcc)
  | fault (f : FaultInfo)
  | absent (fids : List Nat) (lanes : Nat) (addr : Nat)

/-- The translations of a cluster's accesses. -/
def State.xlateAll (hp ctx cl : Nat) (acc : Access) : State → List (Nat × Nat) → List (Nat × Nat × Xlat) × State
  | s, [] => ([], s)
  | s, (lane, va) :: ls =>
    let (x, s) := s.xlate hp ctx va acc (some cl)
    let (xs, s) := State.xlateAll hp ctx cl acc s ls
    ((lane, va, x) :: xs, s)

/-- The bits of lanes. -/
def laneMask (ls : List Nat) : Nat := (ls.eraseDups.map fun l => 2 ^ l).sum

/-- The lanes with a cause: their mask, and the address of the lowest. -/
def causeOf (cause : Nat) (ls : List (Nat × Nat)) : Option FaultInfo :=
  match ls with
  | [] => none
  | (_, va) :: _ => some { cause := cause, sub := 0, lanes := laneMask (ls.map fun p => p.1), addr := BitVec.ofNat 64 va }

def xlateBad (xs : List (Nat × Nat × Xlat)) : List (Nat × Nat) :=
  xs.filterMap fun (l, va, x) => match x with | .xlate => some (l, va) | _ => none
/-- The lanes that lack a permission, or that `also` names. -/
def permBad (also : LaneAcc → Bool) (xs : List (Nat × Nat × Xlat)) : List (Nat × Nat) :=
  xs.filterMap fun (l, va, x) =>
    match x with
    | .perm => some (l, va)
    | .ok e pa => if also { lane := l, va := va, pa := pa, ent := e } then some (l, va) else none
    | _ => none
def lanesOk (xs : List (Nat × Nat × Xlat)) : List LaneAcc :=
  xs.filterMap fun (l, va, x) => match x with | .ok e pa => some { lane := l, va := va, pa := pa, ent := e } | _ => none
def absentOf (xs : List (Nat × Nat × Xlat)) : List (Nat × Nat × Nat × Bool) :=
  xs.filterMap fun (l, va, x) => match x with | .absent level mig => some (l, va, level, mig) | _ => none

def State.openAll (r : SliceRef) (acc : Access) : State → List (Nat × Nat × Nat × Bool) → List Nat × State
  | s, [] => ([], s)
  | s, (_, va, level, mig) :: xs =>
    let (fid, s) := s.sliceFault r level mig va acc
    let (fids, s) := State.openAll r acc s xs
    (fid :: fids, s)

/-- XLATE, then PERM (`also` names further lanes that lack a permission), then a recoverable fault. -/
def State.judge (s : State) (r : SliceRef) (acc : Access) (also : LaneAcc → Bool) (xs : List (Nat × Nat × Xlat)) : Checked × State :=
  match causeOf causeXlate (xlateBad xs) with
  | some f => (.fault f, s)
  | none =>
    match causeOf causePerm (permBad also xs) with
    | some f => (.fault f, s)
    | none =>
      match absentOf xs with
      | [] => (.ok (lanesOk xs), s)
      | ab => let (fids, s) := s.openAll r acc ab; (.absent fids.eraseDups (laneMask (ab.map fun p => p.1)) (ab.headD (0, 0, 0, false)).2.1, s)

/-- The checks of the lanes of a slice: ALIGN first, then as `judge`. -/
def State.checkLanes (s : State) (r : SliceRef) (acc : Access) (align : Nat) (also : LaneAcc → Bool)
    (ls : List (Nat × Nat)) : Checked × State :=
  match causeOf causeAlign (ls.filter fun p => p.2 % align != 0) with
  | some f => (.fault f, s)
  | none =>
    let t := s.team r.tid
    let (xs, s) := State.xlateAll t.hp t.ctx (s.clusterOf r) acc s ls
    s.judge r acc also xs

/-! ## Lanes of operations -/

def LaneAcc.elem (a : LaneAcc) (size : Nat) (data cmp : List Byte) : Elem :=
  { lane := a.lane, va := BitVec.ofNat 64 a.va, pa := a.pa, key := a.ent.keyid, size := size, data := data, cmp := cmp }

/-- An access goes to the memory-side unit: its page is MSA, and no cache holds its line (R203, R204). -/
def State.atUnit (s : State) (a : LaneAcc) : Bool := a.ent.msa && !(s.cached (lineOf a.pa))

def State.anyMsa (s : State) (ls : List LaneAcc) : Bool := ls.any s.atUnit

def State.anyHost (s : State) (hp : Nat) (ls : List LaneAcc) : Bool := ls.any fun a => (s.region hp a.pa).isHost

/-- Lines that an operation touches. -/
def opLines (es : List Elem) : List Nat := (es.map fun e => lineOf e.pa).eraseDups

/-- The intervals of the lines of elements. -/
def State.intervals (s : State) (es : List Elem) : SMap Half :=
  (opLines es).foldr (fun l m => smPut 0 l (s.line l).interval m) []

/-- A new operation of a slice at its PC. -/
def newOp (s : State) (r : SliceRef) (i : Instr) (cls : OpClass) (scope : Scope) (kind : OpKind) (elems : List Elem)
    (msa host : Bool) (pid : Option Nat) : Op :=
  let x := s.slice r
  { id := s.mem.nextOp, ref := r, cls := cls, scope := scope, kind := kind, elems := elems, msa := msa, host := host,
    acks := [], acked := none, performed := false, arrived := false, lacking := [], injected := false, failed := false, pid := pid,
    pc := x.pc, inst := instrWord i,
    ints := s.intervals elems, epoch := none, need := x.acqEpoch, tag := x.tag, got := [], poisoned := 0, stat := [], clear := false, grp := 0 }

/-- The homes that an operation's lines have. -/
def State.homesOf (s : State) (o : Op) : List Nat :=
  ((o.elems.filter fun e => decide (e.pa < 2 ^ 60)).map fun e => (s.region (s.team o.ref.tid).hp e.pa).home).eraseDups

/-- An operation goes to its homes as numbered messages (07 R237): a write, an atomic or a release, but not a read. A relaxed
store is numbered as it leaves the write buffer. -/
def Op.numbered (o : Op) : Bool :=
  match o.kind with
  | .load _ _ _ => false
  | .dec _ _ _ => false
  | .gather _ _ => false
  | .store => o.cls != .s || o.msa
  | _ => o.cls != .none

def countSeq (cl : Nat) (m : SMap Half) (home : Nat) : SMap Half := smPut 0 (16 * cl + home) (smGet 0 (16 * cl + home) m + 1) m

/-- The numbered messages of an operation are sent, and performed. -/
def State.sendSeq (s : State) (o : Op) : State :=
  if o.numbered then { s with mem := { s.mem with seqTx := (s.homesOf o).foldl (countSeq (s.clusterOf o.ref)) s.mem.seqTx } } else s
def State.takeSeq (s : State) (o : Op) : State :=
  if o.numbered then { s with mem := { s.mem with seqRx := (s.homesOf o).foldl (countSeq (s.clusterOf o.ref)) s.mem.seqRx } } else s

def State.addOp (s : State) (o : Op) : State :=
  let s := s.sendSeq o
  { s.fresh.2 with mem := { s.fresh.2.mem with ops := s.mem.ops ++ [o] } }

/-- The cluster's Square has no room for the records of an operation (R225: 1,024). -/
def State.squareFull (s : State) (cl : Nat) (es : List Elem) : Bool :=
  decide (1024 < ((s.mem.ops.filter fun o => s.clusterOf o.ref == cl).map fun o => max 1 (opLines o.elems).length).sum
    + max 1 (opLines es).length)

/-- A release of another requester holds a line of these pending-seal (07 R226). -/
def State.anyHeld (s : State) (except : Nat) (es : List Elem) : Bool :=
  (opLines es).any fun l => s.lineHeld l except

/-- The order of 07 R216 to R219 and the holds of R226 let the operation perform now. -/
def State.ready (s : State) (o : Op) : Bool := s.mayPerform o && !(s.anyHeld o.id o.elems)

/-! ## Reads -/

/-- How a load goes to memory: what it asks of the caches, its hint, and the operation that it is. -/
structure Load where
  hp : Nat
  cl : Nat
  via : Via
  hint : Nat
  client : Client

/-- The bytes of a lane's read, or none where it is poisoned (R29, R188). -/
def State.readBytes (s : State) (l : Load) (key pa n : Nat) : Option (List Byte) × State :=
  if !(s.reachable l.hp key pa) then (none, ((s.countKey key).bumpErr 7).bumpErr 6)
  else if s.poisoned pa n then (none, s.bumpErr 6)
  else
    let t := s.readVia l.cl key l.hint l.via l.client pa n
    (some (t.clusterBytes l.cl (l.via != .l1) pa n), t)

/-- The reads of several lanes at their routes. -/
def State.readLanes (l : Load) (n : Nat) : State → List LaneAcc → List (LaneAcc × Option (List Byte)) × State
  | s, [] => ([], s)
  | s, a :: as =>
    let (b, s) := s.readBytes l a.ent.keyid ((s.readRoute l.cl a.pa).addr a.pa) n
    let (xs, s) := State.readLanes l n s as
    ((a, b) :: xs, s)

/-- POISON of the lanes that read none. -/
def poisonFault (xs : List (LaneAcc × Option (List Byte))) : Option FaultInfo :=
  causeOf causePoison (xs.filterMap fun (a, b) => if b.isNone then some (a.lane, a.va) else none)

/-- The writes of a load of a type. -/
def loadWrites (t : Ty) (sc : Bool) (d : Nat) (xs : List (LaneAcc × Option (List Byte))) : List RegWrite :=
  xs.flatMap fun (a, b) =>
    match b with
    | some bs => resultWrites t sc a.lane d (natOfBytes bs)
    | none => []

/-! ## Scratchpad (01 R32, 06 R198) -/

/-- Scratchpad bytes stand above physical memory in the addresses of operations. -/
def scratchBase : Nat := 2 ^ 60

def scratchPa (tid half off : Nat) : Nat := scratchBase + tid * 2 ^ 24 + half * 2 ^ 20 + off

/-- The half and the offset in it that a slice's offset names, or none: SCRATCH. -/
def scratchAt (t : Team) (bent n o : Nat) : Option (Nat × Nat) :=
  let half := if bitOf o 19 then 1 - t.halfOf bent else t.halfOf bent
  let off := o % 2 ^ 19
  if o ≥ 2 ^ 20 ∨ (bitOf o 19 ∧ !t.desc.pair) ∨ off + n > t.desc.scratch then none else some (half, off)

/-- The key of a scratchpad byte in its team. -/
def scratchKey (half off : Nat) : Nat := half * 2 ^ 20 + off

def Team.scratchBytes (t : Team) (half off n : Nat) : List Byte := bytesGet t.scratch (scratchKey half off) n
def Team.putScratch (t : Team) (half off : Nat) (bs : List Byte) : Team :=
  { t with scratch := bytesPut t.scratch (scratchKey half off) bs }

/-- Base(A, U) + OFF24 modulo 2^32 (R193). -/
def Slice.scratchOff (x : Slice) (h : Head) (off : BitVec 24) (lane : Nat) : Nat :=
  let a := h.a.toNat
  let base := if 128 ≤ a then (x.getS (a - 128)).toNat else (x.getV a lane).toNat
  (((base : Int) + off.toInt) % (2 ^ 32 : Int)).toNat

def offsetRegs (h : Head) : List Reg := if 128 ≤ h.a.toNat then [.s (h.a.toNat - 128)] else [.v h.a.toNat]

/-- A lane's scratchpad access. -/
structure ScratchAcc where
  lane : Nat
  o : Nat
  half : Nat
  off : Nat

/-- ALIGN, then SCRATCH (R174). -/
def checkScratch (t : Team) (bent align n : Nat) (ls : List (Nat × Nat)) : Except FaultInfo (List ScratchAcc) :=
  match causeOf causeAlign (ls.filter fun p => p.2 % align != 0) with
  | some f => .error f
  | none =>
    match causeOf causeScratch (ls.filter fun p => (scratchAt t bent n p.2).isNone) with
    | some f => .error f
    | none => .ok (ls.filterMap fun (l, o) => (scratchAt t bent n o).map fun (hf, off) => { lane := l, o := o, half := hf, off := off })

def ScratchAcc.elem (a : ScratchAcc) (tid size : Nat) (data cmp : List Byte) : Elem :=
  { lane := a.lane, va := BitVec.ofNat 64 a.o, pa := scratchPa tid a.half a.off, key := 0, size := size, data := data, cmp := cmp }

/-- An access overlaps a range of the scoreboard and stalls (R182): any destination; a source only for a write. -/
def State.rangeStall (s : State) (tid : Nat) (plate : Bool) (half lo n : Nat) (write : Bool) : Bool :=
  s.mem.ranges.any fun e => e.tid == tid && e.plate == plate && e.half == half && (e.dest || write) && overlap e.lo (e.hi - e.lo) lo n

/-! ## Performing -/

/-- Bytes of an element performed: in the scratchpad of its team, or in memory by `who`. -/
def State.putElem (s : State) (who : Nat) (e : Elem) (bs : List Byte) (client : Client := .none) : State :=
  if scratchBase ≤ e.pa then
    let k := e.pa - scratchBase
    s.modTeam (k / 2 ^ 24) fun t => { t with scratch := bytesPut t.scratch (k % 2 ^ 24) bs }
  else s.commit who e.pa bs e.key client

def State.getElem (s : State) (e : Elem) : List Byte :=
  if scratchBase ≤ e.pa then
    let k := e.pa - scratchBase
    bytesGet (s.team (k / 2 ^ 24)).scratch (k % 2 ^ 24) e.size
  else memReadN s.mem.bytes e.pa e.size

/-- The error record of a store dropped at a decode error (01 R29, R441). -/
def State.logDropped (s : State) (r : SliceRef) (va pa pc : Nat) : State :=
  let t := s.team r.tid
  (s.bumpErr 8).logError t.hp t.ctx (accessRecord 1 0 0 t.linear va pa pc s.ns)

/-- A store of an element by a slice: dropped at a decode error; a partial store leaves poison (R188). -/
def State.storeElem (s : State) (o : Op) (e : Elem) (bs : List Byte) : State :=
  if scratchBase ≤ e.pa then s.putElem 0 e bs
  else
    let cl := s.clusterOf o.ref
    let hp := (s.team o.ref.tid).hp
    let pa := (s.writeRoute cl e.pa).addr e.pa
    if s.reachable hp e.key pa then
      let who := if o.msa || o.host || o.kind == .scatter then homeWriter (s.region hp pa).home else dieOfCluster cl
      s.commit who pa bs e.key (.op o.id)
    else (s.countKey e.key).logDropped o.ref e.va.toNat pa o.pc.toNat

def State.storeElems (s : State) (o : Op) : List Elem → State
  | [] => s
  | e :: es => State.storeElems (s.storeElem o e e.data) o es

/-- The operation has performed; its acknowledgement is PERFORM_ACK's. -/
def State.perform (s : State) (o : Op) : State := ((s.takeSeq o).setOp { o with performed := true }).retire

/-- The operation has performed and nothing more of it is awaited. -/
def State.finishOp (s : State) (o : Op) : State := ((s.takeSeq o).dropOp o.id).retire

end Sys2Proof.Machine
end

