-- ==== Sys2Proof/Machine/LoadStore.lean ====
section
/-! DEFINITION. The class XM: LD, ST, LDC, PRF, LDG, SCT and ICINV (06 R192 to R202). A relaxed or acquire load binds
its value when it issues; a relaxed store enters the write buffer of its cluster; a release, a gather and a scatter
wait for their own steps. -/

namespace Sys2Proof.Machine

def memInfo (h : Head) (regs : List Reg) : Info := Head.info h (regs ++ guardRegs h)

/-- Lanes and their addresses. -/
def laneAddrs (x : Slice) (h : Head) (w : Mem) : List (Nat × Nat) :=
  (x.lanesOn h.gp h.gn).map fun j => (j, x.memAddr h w.off j)

/-- Holders, cluster and team, that hold a line narrow and are not of the slice's team (07 R222, R223). -/
def State.outsideHolders (s : State) (r : SliceRef) (es : List Elem) : List (Nat × Nat) :=
  ((opLines es).flatMap fun l => (s.line l).narrow).eraseDups.filter fun c => c.2 != r.tid

/-- A slice's part that does nothing but go on. -/
def skipSlice (i : Instr) (s : State) (r : SliceRef) : SliceStep := .ok s (.go (nextPc i (s.slice r).pc))

/-- What becomes of a slice whose checks fail. -/
def checkFailed (s : State) : Checked → SliceStep
  | .fault f => .ok s (.trap f none)
  | .absent fids lanes addr => .ok s (.park (.fault fids lanes (BitVec.ofNat 64 addr)))
  | .ok _ => .stall .retry

/-- An operation that may not issue now: no room in the Square, an order to keep, a held line, a migration. -/
def State.mustWait (s : State) (o : Op) (write : Bool) : Bool :=
  let cl := s.clusterOf o.ref
  s.squareFull cl o.elems || !(s.ready o)
    || o.elems.any fun e => scratchBase > e.pa && (if write then false else (s.readRoute cl e.pa).isHeld)

/-! ## Loads -/

/-- The pending destination and the record of a load that has been bound. -/
def State.bindLoad (s : State) (i : Instr) (la : Nat) (regs : List Reg) (o : Op) (via : Via) (ws : List RegWrite) (fl : FFlags)
    (flt : Option FaultInfo) : State :=
  let p := newPending s o.ref i la regs (some ws) fl flt
  let t := s.fresh.2.addPending o.ref p
  t.addOp { o with id := t.mem.nextOp, pid := some p.pid, performed := true, ints := s.intervals o.elems,
                   epoch := if via = .l1 then some (s.l1 (s.clusterOf o.ref)).epoch else none }

/-- A load whose value a later step brings: its destination is pending (R191, R203). -/
def State.queueLoad (s : State) (i : Instr) (la : Nat) (regs : List Reg) (o : Op) : State :=
  let p := newPending s o.ref i la regs none 0 none
  let s := s.fresh.2.addPending o.ref p
  s.addOp { o with id := s.mem.nextOp, pid := some p.pid }

/-- Where a load goes: past the L1 under .nol1 and for an acquire. -/
def State.loadOf (s : State) (r : SliceRef) (past : Bool) (hint : Nat) : Load :=
  { hp := (s.team r.tid).hp, cl := s.clusterOf r, via := if past then .l2 else .l1, hint := hint, client := .op (s.mem.nextOp + 1) }

/-- A translated load of `n` bytes a lane: LD without DEC, and LDC. -/
def loadAccs (i : Instr) (la : Nat) (t : Ty) (sc : Bool) (d : Nat) (scope : Scope) (acq : Bool) (hint : Nat) (accs : List LaneAcc)
    (s : State) (r : SliceRef) : SliceStep :=
  let x := s.slice r
  let n := tyBytes t
  let regs := regGroup sc t.regs d
  let next := SliceRes.go (nextPc i x.pc)
  let host := s.anyHost (s.team r.tid).hp accs
  let o := newOp s r i (if acq then .a else .l) scope (.load t sc d) (accs.map fun a => a.elem n [] []) (s.anyMsa accs) host none
  if s.mustWait o false then .stall .retry
  else if acq && !(s.outsideHolders r o.elems).isEmpty then .publish (s.outsideHolders r o.elems)
  else if o.msa || o.host then .ok (s.queueLoad i la regs o) next
  else
    let l := s.loadOf r (hint == 3 || acq) hint
    let (xs, s) := State.readLanes l n s accs
    let s := s.bindLoad i la regs o l.via (loadWrites t sc d xs) 0 (poisonFault xs)
    .ok (if acq then s.acquire r scope else s) next

/-! ### DEC (R194) -/

/-- The type whose element a page format names; raw pages hold the requested type (02 R63, R64). -/
def pageTy (fmt : Nat) (t : Ty) : Ty :=
  match fmt with
  | 1 => .e2m1 | 2 => .e4m3 | 3 => .e5m2 | 4 => .f16 | 5 => .bf16 | 6 => .f32 | 7 => .i8 | 8 => .z8 | _ => t

/-- The alignment of a DEC load (R189). -/
def decAlign (e : TlbEntry) (t : Ty) : Nat :=
  if e.geom ≠ 0 then 32 else if e.fmt = 1 then 1 else tyBytes (pageTy e.fmt t)

/-- The bytes that element j needs, as pieces that lie in one page each. -/
def decPieces (e : TlbEntry) (t : Ty) (ea j : Nat) : List (Nat × Nat) :=
  if e.geom ≠ 0 then
    let n := min 160 (4096 - ea % 4096)
    if n = 160 then [(ea, 160)] else [(ea, n), ((ea + n) % 2 ^ 64, 160 - n)]
  else if e.fmt = 1 then [((ea + j / 2) % 2 ^ 64, 1)]
  else let n := tyBytes (pageTy e.fmt t); [((ea + j * n) % 2 ^ 64, n)]

/-- A value of a page format as the type asks for it: to nearest even, without SAT or FTZ. -/
def decValue (fmt geom : Nat) (t : Ty) (j : Nat) (bs : List Byte) : Nat × FFlags :=
  let m : FMode := { rnd := .rn, sat := false, ftz := false }
  if geom ≠ 0 then
    let v := segValue geom bs j
    match tyFmt t with
    | some f => convertTo f m v
    | none => let (k, fl) := floatToInt .rn (tySigned t) (tyWidth t) v; (wrapInt (tyWidth t) k, fl)
  else if fmt = 1 then convert .e2m1 t m (natOfBytes bs / 2 ^ (4 * (j % 2)) % 16)
  else convert (pageTy fmt t) t m (natOfBytes bs)

/-- One piece, translated: its lane and its access. -/
structure PieceAcc where
  lane : Nat
  n : Nat
  acc : LaneAcc

/-- Pieces with their lanes, in lane order. -/
def decParts (t : Ty) (idx : Nat → Nat) (accs : List LaneAcc) : List (Nat × Nat × Nat) :=
  accs.flatMap fun a => (decPieces a.ent t a.va (idx a.lane)).map fun p => (a.lane, p.1, p.2)

/-- The element of a lane from its pieces: none where one is poisoned. -/
def gatherPieces (lane : Nat) : List (Nat × Option (List Byte)) → Option (List Byte)
  | [] => some []
  | (l, b) :: ps =>
    if l = lane then
      match b, gatherPieces lane ps with
      | some x, some y => some (x ++ y)
      | _, _ => none
    else gatherPieces lane ps

def readPieces (l : Load) : State → List PieceAcc → List (Nat × Option (List Byte)) × State
  | s, [] => ([], s)
  | s, p :: ps =>
    let (b, s) := s.readBytes l p.acc.ent.keyid ((s.readRoute l.cl p.acc.pa).addr p.acc.pa) p.n
    let (xs, s) := readPieces l s ps
    ((p.lane, b) :: xs, s)

/-- The registers, the flags and the fault of a DEC load whose pieces have been read: POISON, else MATRIX for a malformed
segment (02 R57). -/
def decFinish (t : Ty) (d : Nat) (lanes : List DecLane) (got : List (Nat × Option (List Byte))) :
    List RegWrite × FFlags × Option FaultInfo :=
  let vals := lanes.map fun a => (a, gatherPieces a.lane got)
  let none_ := vals.filter fun p => p.2.isNone
  let bad := vals.filter fun p => p.1.geom == 3 && (match p.2 with | some bs => svbMalformed bs | none => false)
  let flt := match causeOf causePoison (none_.map fun p => (p.1.lane, p.1.va)) with
    | some f => some f
    | none => (causeOf causeMatrix (bad.map fun p => (p.1.lane, p.1.va))).map fun f => { f with sub := 4, addr := 0 }
  let outs := vals.map fun (a, b) => (a, decValue a.fmt a.geom t a.idx (b.getD []))
  (outs.flatMap fun (a, v) => resultWrites t false a.lane d v.1, if flt.isSome then 0 else orFlags (outs.map fun p => p.2.2), flt)

/-- A segment reaches into a page of other attributes: ALIGN (02 R65). -/
def attrsDiffer (a : LaneAcc) (ps : List PieceAcc) : Bool :=
  ps.any fun p => p.lane == a.lane && (p.acc.ent.fmt != a.ent.fmt || p.acc.ent.geom != a.ent.geom) && a.ent.geom != 0

/-- What the checks of a DEC load judge in each lane: the translation of its address where that fails, else those of its pieces. -/
def decJudged (eas pieces : List (Nat × Nat × Xlat)) : List (Nat × Nat × Xlat) :=
  eas.flatMap fun x => match x.2.2 with | .ok _ _ => pieces.filter (fun p => p.1 == x.1) | _ => [x]

/-- LD with DEC of one slice. -/
def decLoad (i : Instr) (h : Head) (w : Mem) (s : State) (r : SliceRef) : SliceStep :=
  let x := s.slice r
  let tm := s.team r.tid
  let cl := s.clusterOf r
  let t := w.ty
  let idx := fun j => (x.getV h.b.toNat j).toNat % 256
  let (eas, s0) := State.xlateAll tm.hp tm.ctx cl .read s (laneAddrs x h w)
  let accs := lanesOk eas
  let parts := decParts t idx accs
  let (xs, s1) := State.xlateAll tm.hp tm.ctx cl .read s0 (parts.map fun p => (p.1, p.2.1))
  let (c, s1) := s1.judge r .read (fun _ => false) (decJudged eas xs)
  match c with
  | .ok pas =>
    let pieces := (pas.zip parts).map fun (a, p) => { lane := p.1, n := p.2.2, acc := a : PieceAcc }
    match causeOf causeAlign ((accs.filter fun a => a.va % decAlign a.ent t != 0 || attrsDiffer a pieces).map fun a => (a.lane, a.va)) with
    | some f => .ok s1 (.trap f none)
    | none =>
      let elems := pieces.map fun p => p.acc.elem p.n [] []
      let lanes := accs.map fun a => { lane := a.lane, fmt := a.ent.fmt, geom := a.ent.geom, idx := idx a.lane, va := a.va : DecLane }
      let acq := w.ord == .acq
      let o := newOp s1 r i (if acq then .a else .l) w.scope (.dec t h.d.toNat lanes) elems (s1.anyMsa pas) (s1.anyHost tm.hp pas) none
      let regs := regGroup false t.regs h.d.toNat
      if s1.mustWait o false then .stall .retry
      else if acq && !(s1.outsideHolders r elems).isEmpty then .publish (s1.outsideHolders r elems)
      else if o.msa || o.host then .ok (s1.queueLoad i h.la.toNat regs o) (.go (nextPc i x.pc))
      else
        let l := s1.loadOf r (acq || w.hint == 3) w.hint
        let (got, s2) := readPieces l s1 pieces
        let (ws, fl, flt) := decFinish t h.d.toNat lanes got
        let s3 := s2.bindLoad i h.la.toNat regs o l.via ws fl flt
        .ok (if acq then s3.acquire r w.scope else s3) (.go (nextPc i x.pc))
  | c => checkFailed s1 c

/-- LD of one slice. -/
def ldSlice (i : Instr) (h : Head) (w : Mem) (s : State) (r : SliceRef) : SliceStep :=
  let x := s.slice r
  if (x.lanesOn h.gp h.gn).isEmpty then skipSlice i s r
  else if w.dec then decLoad i h w s r
  else
    let (c, s') := s.checkLanes r .read (tyBytes w.ty) (fun _ => false) (laneAddrs x h w)
    match c with
    | .ok accs => loadAccs i h.la.toNat w.ty false h.d.toNat w.scope (w.ord == .acq) w.hint accs s' r
    | c => checkFailed s' c

/-- LD (R194): Loads from global memory, optionally decoding through page attributes. -/
def execXmLd (h : Head) (w : Mem) (s : State) : Host.Outcome State Fault Refusal :=
  let i : Instr := .xmLd h w
  issueSlices i (memInfo h (regGroup false w.ty.regs h.d.toNat ++ pairRegs h ++ (if w.dec then [.v h.b.toNat] else [])))
    (ldSlice i h w) s

/-- LDC of one slice: once, into scalar registers. -/
def ldcSlice (i : Instr) (h : Head) (w : Mem) (s : State) (r : SliceRef) : SliceStep :=
  let x := s.slice r
  if !x.sliceOn h.gp h.gn then skipSlice i s r
  else
    let (c, s') := s.checkLanes r .read (tyBytes w.ty) (fun _ => false) [(0, x.memAddr h w.off 0)]
    match c with
    | .ok accs => loadAccs i h.la.toNat w.ty true h.d.toNat w.scope false 0 accs s' r
    | .fault f => .ok s' (.trap { f with lanes := 15 } none)
    | c => checkFailed s' c

/-- LDC (R196): Loads a value into scalar registers once per slice. -/
def execXmLdc (h : Head) (w : Mem) (s : State) : Host.Outcome State Fault Refusal :=
  let i : Instr := .xmLdc h w
  issueSlices i (memInfo h (regGroup true w.ty.regs h.d.toNat ++ pairRegs h)) (ldcSlice i h w) s

/-! ## Stores -/

/-- Distinct sectors that wait in a write buffer (R183: room for 64). -/
def bufferedSectors (b : List WbEntry) : Nat := (b.map fun e => sectorOf e.pa).eraseDups.length

/-- The elements of a store enter the write buffer, and update the L1 (R184). -/
def State.buffer (s : State) (cl id : Nat) : List Elem → State
  | [] => s
  | e :: es =>
    let c := s.l1 cl
    let s := s.setL1 cl { c with wbuf := c.wbuf ++ [{ op := id, pa := e.pa, key := e.key, data := e.data, heldBy := none }] }
    State.buffer (s.updateL1 cl e.pa e.data) cl id es

/-- ORDINJ fires on this release: armed, the context, the cluster, the line (07 R246). -/
def State.injects (s : State) (o : Op) : Bool :=
  let t := s.team o.ref.tid
  let c := s.check t.hp
  let v := c.ordinj.toNat
  bitOf v 0 && (bitOf v 2 || bitsOf v 15 8 == s.clusterOf o.ref) && bitsOf v 21 16 == t.ctx
    && o.elems.any fun e => bitsOf e.va.toNat 56 7 == bitsOf c.ordinjva.toNat 56 7

def holdBuffer (s : State) (o : Op) (b : List WbEntry) : List WbEntry :=
  b.map fun e =>
    match s.op? e.op with
    | some p => if p.ref = o.ref then { e with heldBy := some o.id } else e
    | none => e

/-- The injection: the release goes ahead, the slice's earlier stores are held, ARM clears and FIRED is set. -/
def State.inject (s : State) (o : Op) : State :=
  let hp := (s.team o.ref.tid).hp
  let cl := s.clusterOf o.ref
  let c := s.check hp
  let s := s.setCheck hp { c with ordinj := BitVec.ofNat 64 (setBits (setBits c.ordinj.toNat 0 0 0) 1 1 1) }
  let s := s.setL1 cl { s.l1 cl with wbuf := holdBuffer s o (s.l1 cl).wbuf }
  s.setOp { o with injected := true }

/-- The low bytes of a register group. -/
def storeData (x : Slice) (t : Ty) (b lane : Nat) : List Byte := bytesOfNat (tyBytes t) (x.value t false b lane)

/-- A store in the write buffer is performed at team scope, but for a pair team (07 R210). -/
def State.bufferedOp (s : State) (o : Op) : Op :=
  if (s.team o.ref.tid).desc.pair then o
  else { o with acked := some .team, acks := (opLines o.elems).foldr (fun l m => smSet l Scope.team m) [] }

/-- ST of one slice. -/
def stSlice (i : Instr) (h : Head) (w : Mem) (s : State) (r : SliceRef) : SliceStep :=
  let x := s.slice r
  if (x.lanesOn h.gp h.gn).isEmpty then skipSlice i s r
  else
    let (c, s') := s.checkLanes r .write (tyBytes w.ty) (fun _ => false) (laneAddrs x h w)
    match c with
    | .ok accs =>
      let rel := w.ord == .rel
      let elems := accs.map fun a => a.elem (tyBytes w.ty) (storeData x w.ty h.b.toNat a.lane) []
      let o := newOp s' r i (if rel then .r else .s) w.scope .store elems (s'.anyMsa accs) (s'.anyHost (s'.team r.tid).hp accs) none
      let cl := s'.clusterOf r
      let wait := s'.squareFull cl elems || (!rel && !(s'.mayPerform o))
        || (!rel && !o.msa && decide (64 < bufferedSectors (s'.l1 cl).wbuf + accs.length))
      if wait then .stall .retry
      else
        let s1 := s'.addOp (if rel || o.msa then o else s'.bufferedOp o)
        let s2 := if rel then (if s1.injects o then s1.inject o else s1) else if o.msa then s1 else s1.buffer cl o.id elems
        .ok s2 (.go (nextPc i x.pc))
    | c => checkFailed s' c

/-- ST (R195): Stores to global memory. -/
def execXmSt (h : Head) (w : Mem) (s : State) : Host.Outcome State Fault Refusal :=
  let i : Instr := .xmSt h w
  issueSlices i (memInfo h (pairRegs h ++ regGroup false w.ty.regs h.b.toNat)) (stSlice i h w) s

/-! ## PRF (R196) -/

/-- The line of an address comes into the level that the hint names; nothing where the page lacks R, is MSA or host. -/
def State.prefetch (s : State) (r : SliceRef) (hint va : Nat) : State :=
  let t := s.team r.tid
  let cl := s.clusterOf r
  match s.xlate t.hp t.ctx va .probe (some cl) with
  | (.ok e pa, s) =>
    if !e.r || e.msa || (s.region t.hp pa).isHost then s
    else
      let s := s.orBlock false pa 1
      let pa := s.engineAt false pa
      let l := lineOf pa * 128
      if !(s.reachable t.hp e.keyid pa) then s
      else if hint = 0 then s.readVia cl e.keyid 0 .l1 .none l 128
      else
        match if hint = 2 then s.nearHome (lineOf pa) else none with
        | some m => s.fillSill m { line := lineOf pa, way := 0, sectors := 15, key := e.keyid, retain := true, dirty := false }
        | none => s.readL2 (dieOfCluster cl) l 128 e.keyid hint .none
  | (_, s) => s

def State.prefetchAll (r : SliceRef) (hint : Nat) : State → List (Nat × Nat) → State
  | s, [] => s
  | s, (_, va) :: ls => State.prefetchAll r hint (s.prefetch r hint va) ls

/-- PRF (R196): Prefetches a line into the level named by the hint. -/
def execXmPrf (h : Head) (w : Mem) (s : State) : Host.Outcome State Fault Refusal :=
  let i : Instr := .xmPrf h w
  issueSlices i (memInfo h (pairRegs h))
    (fun s r => .ok (State.prefetchAll r w.hint s (laneAddrs (s.slice r) h w)) (.go (nextPc i (s.slice r).pc))) s

/-! ## LDG and SCT (R201, R202) -/

/-- The element address of a lane: the index is signed. -/
def gatherAddr (x : Slice) (h : Head) (w : Mem) (lane : Nat) : Nat :=
  (((x.memAddr h w.off 0 : Nat) : Int) + (x.getV h.b.toNat lane).toInt * (tyBytes w.ty : Int)) % (2 ^ 64 : Int) |>.toNat

def gatherAddrs (x : Slice) (h : Head) (w : Mem) : List (Nat × Nat) :=
  (x.lanesOn h.gp h.gn).map fun j => (j, gatherAddr x h w j)

/-- LDG of one slice: the request waits for the units that serve its elements. -/
def ldgSlice (i : Instr) (h : Head) (w : Mem) (s : State) (r : SliceRef) : SliceStep :=
  let x := s.slice r
  if (x.lanesOn h.gp h.gn).isEmpty then skipSlice i s r
  else
    let (c, s') := s.checkLanes r .read (tyBytes w.ty) (fun _ => false) (gatherAddrs x h w)
    match c with
    | .ok accs =>
      let o := newOp s' r i .l w.scope (.gather w.ty h.d.toNat) (accs.map fun a => a.elem (tyBytes w.ty) [] []) (s'.anyMsa accs)
        (s'.anyHost (s'.team r.tid).hp accs) none
      if s'.squareFull (s'.clusterOf r) o.elems then .stall .retry
      else .ok (s'.queueLoad i h.la.toNat (regGroup false w.ty.regs h.d.toNat) o) (.go (nextPc i x.pc))
    | c => checkFailed s' c

/-- The slices of a gang whose bases agree send one request: it bears the number of its first gather (R201). -/
def State.request (before s : State) (h : Head) (w : Mem) : State :=
  let base := fun (o : Op) => (before.slice o.ref).memAddr h w.off 0
  let new := s.mem.ops.filter fun o => decide (before.mem.nextOp ≤ o.id)
  let ops := s.mem.ops.map fun o =>
    if o.id < before.mem.nextOp then o
    else { o with grp := ((new.find? fun p => base p == base o).map (·.id)).getD o.id }
  { s with mem := { s.mem with ops := ops } }

/-- LDG (R201): Gathers indexed elements for a gang. -/
def execXmLdg (h : Head) (w : Mem) (s : State) : Host.Outcome State Fault Refusal :=
  let i : Instr := .xmLdg h w
  issueGang i (memInfo h (regGroup false w.ty.regs h.d.toNat ++ pairRegs h ++ [.v h.b.toNat]))
    (fun s rs =>
      match runSlices (ldgSlice i h w) s rs with
      | .done s' res => .done (s.request s' h w) res
      | a => a) s

/-- Sectors that an operation touches leave the L1 of the issuing cluster (R184). -/
def State.invalElems (s : State) (cl : Nat) : List Elem → State
  | [] => s
  | e :: es => State.invalElems (s.invalL1 cl e.pa e.size) cl es

/-- SCT of one slice. -/
def sctSlice (i : Instr) (h : Head) (w : Mem) (s : State) (r : SliceRef) : SliceStep :=
  let x := s.slice r
  if (x.lanesOn h.gp h.gn).isEmpty then skipSlice i s r
  else
    let (c, s') := s.checkLanes r .write (tyBytes w.ty) (fun _ => false) (gatherAddrs x h w)
    match c with
    | .ok accs =>
      let elems := accs.map fun a => a.elem (tyBytes w.ty) (storeData x w.ty h.c.toNat a.lane) []
      let o := newOp s' r i .s w.scope .scatter elems (s'.anyMsa accs) (s'.anyHost (s'.team r.tid).hp accs) none
      if s'.squareFull (s'.clusterOf r) elems then .stall .retry
      else .ok ((s'.addOp o).invalElems (s'.clusterOf r) elems) (.go (nextPc i x.pc))
    | c => checkFailed s' c

/-- An element that a lane of higher position names too is not stored (R201). -/
def dropShadowed (later : List Elem) (o : Op) : Op :=
  { o with elems := o.elems.filter fun e => !(later.any fun f => f.pa == e.pa) && !(o.elems.any fun f => f.pa == e.pa && decide (e.lane < f.lane)) }

/-- The scatters of one gang, newest first. -/
def shadowOps : List Op → List Elem → List Op
  | [], _ => []
  | o :: os, later => dropShadowed later o :: shadowOps os (later ++ o.elems)

/-- After a gang's SCT has issued: the lane of highest position wins. -/
def State.shadow (s : State) (from_ : Nat) : State :=
  let new := (s.mem.ops.filter fun o => decide (from_ ≤ o.id)).reverse
  let kept := (shadowOps new []).reverse
  { s with mem := { s.mem with ops := (s.mem.ops.filter fun o => decide (o.id < from_)) ++ kept } }

/-- SCT (R201): Scatters indexed elements. -/
def execXmSct (h : Head) (w : Mem) (s : State) : Host.Outcome State Fault Refusal :=
  let i : Instr := .xmSct h w
  issueGang i (memInfo h (pairRegs h ++ [.v h.b.toNat] ++ regGroup false w.ty.regs h.c.toNat))
    (fun s rs =>
      match runSlices (sctSlice i h w) s rs with
      | .done s' res => .done (s'.shadow s.mem.nextOp) res
      | a => a) s

/-! ## ICINV (R197) -/

/-- A slice that executes ICINV waits for the caches to acknowledge; the line is named by its translation, or none. -/
def icinvSlice (i : Instr) (h : Head) (w : Mem) (s : State) (r : SliceRef) : SliceStep :=
  let x := s.slice r
  if !x.sliceOn h.gp h.gn then skipSlice i s r
  else
    let t := s.team r.tid
    let va := x.memAddr h w.off 0
    let (xl, s') := s.xlate t.hp t.ctx va .probe (some (s.clusterOf r))
    let elems := match xl with
      | .ok e pa => [({ lane := 0, va := va, pa := pa, ent := e } : LaneAcc).elem 1 [] []]
      | _ => []
    let o := newOp s' r i .none w.scope .icinv elems false false none
    .ok ((s'.addOp o).modSlice r fun x => { x with wait := .op o.id }) (.go (nextPc i x.pc))

/-- ICINV (R197): Invalidates an instruction-cache line within a scope. -/
def execXmIcinv (h : Head) (w : Mem) (s : State) : Host.Outcome State Fault Refusal :=
  let i : Instr := .xmIcinv h w
  issueSlices i (memInfo h (pairRegs h)) (icinvSlice i h w) s

end Sys2Proof.Machine
end

