-- ==== Sys2Proof/Machine/Scratch.lean ====
section
/-! DEFINITION. The read-modify-write of atomics (06 R199), the class XS (LDS, STS, ATOMS) and the class XA (ATOM). -/

namespace Sys2Proof.Machine

/-! ## R199 -/

/-- The new value of an atomic: `old`, operand B and the value expected. -/
def atomNew (aop : Nat) (t : Ty) (old b c : Nat) : Nat :=
  let w := tyWidth t
  let m : FMode := { rnd := .rn, sat := false, ftz := false }
  match aop, tyFmt t with
  | 0, some f => (fAdd f m old b).1
  | 1, some f => (fMinMax false f m old b).1
  | 2, some f => (fMinMax true f m old b).1
  | 0, none => (old + b) % 2 ^ w
  | 1, none => (opMin t false old b 0).1
  | 2, none => (opMax t false old b 0).1
  | 3, _ => old &&& b
  | 4, _ => old ||| b
  | 5, _ => old ^^^ b
  | 6, _ => b
  | 7, _ => if old = c then b else old
  | 8, _ => if old ≥ b then 0 else old + 1
  | _, _ => if old = 0 ∨ old > b then b else old - 1

/-- One element: the old bytes, and the state with the new value; a failing CAS writes nothing. -/
def State.atomElem (s : State) (who aop : Nat) (t : Ty) (client : Client) (e : Elem) : List Byte × State :=
  let bs := s.getElem e
  let old := natOfBytes bs
  let new := atomNew aop t old (natOfBytes e.data) (natOfBytes e.cmp)
  (bs, if aop = 7 ∧ old ≠ natOfBytes e.cmp then s else s.putElem who e (bytesOfNat e.size new) client)

/-- The elements in ascending position: each sees what those before it stored. -/
def State.atomElems (s : State) (who aop : Nat) (t : Ty) (client : Client) : List Elem → List (Nat × List Byte) × State
  | [] => ([], s)
  | e :: es =>
    let (b, s) := s.atomElem who aop t client e
    let (xs, s) := State.atomElems s who aop t client es
    ((e.lane, b) :: xs, s)

/-- The old values as writes of the destination. -/
def oldWrites (t : Ty) (d : Nat) (xs : List (Nat × List Byte)) : List RegWrite :=
  xs.flatMap fun (lane, bs) => resultWrites t false lane d (natOfBytes bs)

/-- The class of an atomic by its ORD (07 R215). -/
def atomClass (o : Ord) : OpClass :=
  match o with
  | .rlx => .m
  | .acq => .a
  | .rel => .r
  | .acqrel => .x

/-- Operands B and C of a lane. -/
def atomElemOf (x : Slice) (h : Head) (w : Mem) (e : Elem) : Elem :=
  let n := tyBytes w.ty
  { e with data := bytesOfNat n (x.value w.ty false h.b.toNat e.lane),
           cmp := if w.min4 = 7 then bytesOfNat n (x.value w.ty false h.c.toNat e.lane) else [] }

def atomRegs (h : Head) (w : Mem) : List Reg :=
  regGroup false w.ty.regs h.d.toNat ++ regGroup false w.ty.regs h.b.toNat
    ++ (if w.min4 = 7 then regGroup false w.ty.regs h.c.toNat else [])

/-! ## LDS and STS (R198) -/

def scratchOffs (x : Slice) (h : Head) (w : Mem) : List (Nat × Nat) :=
  (x.lanesOn h.gp h.gn).map fun j => (j, x.scratchOff h w.off j)

/-- A range of the scoreboard, a full Square, an order to keep or a held line makes the access wait. A relaxed or acquire
access performs and is acknowledged at its bank, so that its record is retired as soon as it is made (07 R211, R225). -/
def State.scratchWaits (s : State) (o : Op) (accs : List ScratchAcc) (n : Nat) (write : Bool) : Bool :=
  accs.any (fun a => s.rangeStall o.ref.tid false a.half a.off n write) || s.squareFull (s.clusterOf o.ref) o.elems || !(s.ready o)

/-- LDS of one slice: the value is bound at issue. -/
def ldsSlice (i : Instr) (h : Head) (w : Mem) (s : State) (r : SliceRef) : SliceStep :=
  let x := s.slice r
  let t := s.team r.tid
  let n := tyBytes w.ty
  if (x.lanesOn h.gp h.gn).isEmpty then skipSlice i s r
  else
    match checkScratch t r.bent n n (scratchOffs x h w) with
    | .error f => .ok s (.trap f none)
    | .ok accs =>
      let o := newOp s r i (if w.ord == .acq then .a else .l) .team (.load w.ty false h.d.toNat) (accs.map fun a => a.elem r.tid n [] []) false false none
      if s.scratchWaits o accs n false then .stall .retry
      else
        let ws := accs.flatMap fun a => resultWrites w.ty false a.lane h.d.toNat (natOfBytes (t.scratchBytes a.half a.off n))
        let p := newPending s r i h.la.toNat (regGroup false w.ty.regs h.d.toNat) (some ws) 0 none
        let s' := s.fresh.2.addPending r p
        .ok (if w.ord == .acq then s'.acquire r .team else s') (.go (nextPc i x.pc))

/-- LDS (R198): Loads from the scratchpad. -/
def execXsLds (h : Head) (w : Mem) (s : State) : Host.Outcome State Fault Refusal :=
  let i : Instr := .xsLds h w
  issueSlices i (memInfo h (regGroup false w.ty.regs h.d.toNat ++ offsetRegs h)) (ldsSlice i h w) s

/-- STS of one slice: relaxed, it performs at its bank; a release waits for its seal. -/
def stsSlice (i : Instr) (h : Head) (w : Mem) (s : State) (r : SliceRef) : SliceStep :=
  let x := s.slice r
  let t := s.team r.tid
  let n := tyBytes w.ty
  if (x.lanesOn h.gp h.gn).isEmpty then skipSlice i s r
  else
    match checkScratch t r.bent n n (scratchOffs x h w) with
    | .error f => .ok s (.trap f none)
    | .ok accs =>
      let rel := w.ord == .rel
      let elems := accs.map fun a => a.elem r.tid n (storeData x w.ty h.b.toNat a.lane) []
      let o := newOp s r i (if rel then .r else .s) .team .store elems false false none
      if accs.any (fun a => s.rangeStall r.tid false a.half a.off n true) || (!rel && !(s.ready o))
         || s.squareFull (s.clusterOf r) elems then .stall .retry
      else .ok (if rel then s.addOp o else s.storeElems o elems) (.go (nextPc i x.pc))

/-- STS (R198): Stores to the scratchpad. -/
def execXsSts (h : Head) (w : Mem) (s : State) : Host.Outcome State Fault Refusal :=
  let i : Instr := .xsSts h w
  issueSlices i (memInfo h (offsetRegs h ++ regGroup false w.ty.regs h.b.toNat)) (stsSlice i h w) s

/-! ## ATOMS and ATOM (R199, R200) -/

/-- ATOMS of one slice: at its bank at once, or when its release is sealed. -/
def atomsSlice (i : Instr) (h : Head) (w : Mem) (s : State) (r : SliceRef) : SliceStep :=
  let x := s.slice r
  let t := s.team r.tid
  let n := tyBytes w.ty
  let aop := w.min4.toNat
  let regs := regGroup false w.ty.regs h.d.toNat
  if (x.lanesOn h.gp h.gn).isEmpty then skipSlice i s r
  else
    match checkScratch t r.bent n n (scratchOffs x h w) with
    | .error f => .ok s (.trap f none)
    | .ok accs =>
      let cls := atomClass w.ord
      let elems := accs.map fun a => atomElemOf x h w (a.elem r.tid n [] [])
      let o := newOp s r i cls .team (.atomic aop w.ty h.d.toNat) elems false false none
      if accs.any (fun a => s.rangeStall r.tid false a.half a.off n true) || s.squareFull (s.clusterOf r) elems then .stall .retry
      else if cls.trails then .ok (s.queueLoad i h.la.toNat regs o) (.go (nextPc i x.pc))
      else if !(s.ready o) then .stall .retry
      else
        let (olds, s1) := s.atomElems 0 aop w.ty .none elems
        let p := newPending s1 r i h.la.toNat regs (some (oldWrites w.ty h.d.toNat olds)) 0 none
        let s2 := s1.fresh.2.addPending r p
        .ok (if w.ord == .acq then s2.acquire r .team else s2) (.go (nextPc i x.pc))

/-- ATOMS (R199): Scratchpad atomic read-modify-write. -/
def execXsAtoms (h : Head) (w : Mem) (s : State) : Host.Outcome State Fault Refusal :=
  let i : Instr := .xsAtoms h w
  issueSlices i (memInfo h (atomRegs h w ++ offsetRegs h)) (atomsSlice i h w) s

/-- A host line takes ADD, EXCH and CAS on integers alone (R191). -/
def State.hostRefuses (s : State) (hp aop : Nat) (t : Ty) (pa : Nat) : Bool :=
  (s.region hp pa).isHost && !(t.isInt && (aop == 0 || aop == 6 || aop == 7))

/-- ATOM of one slice: it waits for the unit that performs it. -/
def atomSlice (i : Instr) (h : Head) (w : Mem) (s : State) (r : SliceRef) : SliceStep :=
  let x := s.slice r
  let hp := (s.team r.tid).hp
  let n := tyBytes w.ty
  let aop := w.min4.toNat
  if (x.lanesOn h.gp h.gn).isEmpty then skipSlice i s r
  else
    let (c, s') := s.checkLanes r .atomic n (fun a => s.hostRefuses hp aop w.ty a.pa) (laneAddrs x h w)
    match c with
    | .ok accs =>
      let elems := accs.map fun a => atomElemOf x h w (a.elem n [] [])
      let o := newOp s' r i (atomClass w.ord) w.scope (.atomic aop w.ty h.d.toNat) elems (s'.anyMsa accs) (s'.anyHost hp accs) none
      if s'.squareFull (s'.clusterOf r) elems then .stall .retry
      else
        let s1 := s'.queueLoad i h.la.toNat (regGroup false w.ty.regs h.d.toNat) o
        .ok (s1.invalElems (s1.clusterOf r) elems) (.go (nextPc i x.pc))
    | c => checkFailed s' c

/-- ATOM (R199): Global atomic read-modify-write. -/
def execXaAtom (h : Head) (w : Mem) (s : State) : Host.Outcome State Fault Refusal :=
  let i : Instr := .xaAtom h w
  issueSlices i (memInfo h (atomRegs h w ++ pairRegs h)) (atomSlice i h w) s

end Sys2Proof.Machine
end

