-- ==== Sys2Proof/Machine/Order.lean ====
section
/-! DEFINITION. The class XO: FENCE, SEAL and CHKR (07 R247 to R250). -/

namespace Sys2Proof.Machine

/-- The number of a deferred window, by its two Scribes. -/
def winKey (home peer : ScribeId) : Nat := ((home.kind * 1024 + home.inst) * 8 + peer.kind) * 1024 + peer.inst

/-- The deferred windows that hold a record, of any of these lines where some are named. -/
def State.openWindows (s : State) (lines : Option (List Nat)) : List Nat :=
  (s.mem.windows.filter fun w =>
    (w.homeRecs ++ w.peerRecs ++ w.bad).any fun x => match lines with | some ls => ls.contains x.line | none => true).map
      fun w => winKey w.home w.peer

/-- The earlier operations of a slice. -/
def State.earlier (s : State) (o : Op) : List Op := s.mem.ops.filter fun e => e.ref == o.ref && decide (e.id < o.id) && e.cls != .none

/-- The class of a fence by its ORD. -/
def fenceClass (ord : Nat) : OpClass :=
  match ord with
  | 0 => .q
  | 1 => .a
  | 2 => .r
  | _ => .x

def ordCode (o : Ord) : Nat :=
  match o with
  | .rlx => 0
  | .acq => 1
  | .rel => 2
  | .acqrel => 3

/-- FENCE of one slice: .sc holds the slice; an acquire fence with nothing to wait for is done at once. -/
def fenceSlice (i : Instr) (h : Head) (w : Mem) (s : State) (r : SliceRef) : SliceStep :=
  let x := s.slice r
  if !x.sliceOn h.gp h.gn then skipSlice i s r
  else if s.squareFull (s.clusterOf r) [] then .stall .retry
  else
    let ord := ordCode w.ord
    let o := newOp s r i (fenceClass ord) w.scope (.fence ord) [] false false none
    let s := (s.addOp o).retire
    .ok (if ord = 0 then s.modSlice r fun x => { x with wait := .op o.id } else s) (.go (nextPc i x.pc))

/-- FENCE (R248): Orders memory operations at a scope; the .sc form drains its path. -/
def execXoFence (h : Head) (w : Mem) (s : State) : Host.Outcome State Fault Refusal :=
  let i : Instr := .xoFence h w
  issueSlices i (memInfo h []) (fenceSlice i h w) s

/-- SEAL of one slice: it asks the Scribes to close the windows open now, those that hold a line of its earlier operations among
them (R249; log entry 111). -/
def sealSlice (i : Instr) (h : Head) (w : Mem) (s : State) (r : SliceRef) : SliceStep :=
  let x := s.slice r
  if !x.sliceOn h.gp h.gn then skipSlice i s r
  else
    let o := newOp s r i .none w.scope .seal [] false false none
    let o := { o with lacking := s.openWindows none }
    .ok ((s.addOp o).modSlice r fun x => { x with wait := .op o.id }) (.go (nextPc i x.pc))

/-- SEAL (R249): Waits until earlier operations are performed, sealed and checked by the Scribes. -/
def execXoSeal (h : Head) (w : Mem) (s : State) : Host.Outcome State Fault Refusal :=
  let i : Instr := .xoSeal h w
  issueSlices i (memInfo h []) (sealSlice i h w) s

/-- CHKR of one slice: XLATE, PERM (it needs R, and sets no A), a recoverable fault (R250). -/
def chkrSlice (i : Instr) (h : Head) (w : Mem) (s : State) (r : SliceRef) : SliceStep :=
  let x := s.slice r
  if !x.sliceOn h.gp h.gn then skipSlice i s r
  else
    let (c, s') := s.checkLanes r .probe 1 (fun a => !a.ent.r) [(0, x.memAddr h w.off 0)]
    match c with
    | .ok accs =>
      let elems := accs.map fun a => { a.elem 128 [] [] with pa := lineOf a.pa * 128 }
      let o := newOp s' r i .none .dev .chkr elems false (s'.anyHost (s'.team r.tid).hp accs) none
      .ok ((s'.addOp o).modSlice r fun x => { x with wait := .op o.id }) (.go (nextPc i x.pc))
    | .fault f => .ok s' (.trap { f with lanes := 15 } none)
    | c => checkFailed s' c

/-- CHKR (R250): Checks one line at once with a hashed transfer and a window close. -/
def execXoChkr (h : Head) (w : Mem) (s : State) : Host.Outcome State Fault Refusal :=
  let i : Instr := .xoChkr h w
  issueSlices i (memInfo h (pairRegs h)) (chkrSlice i h w) s

end Sys2Proof.Machine
end

