-- ==== Sys2Proof/Machine/Perform.lean ====
section
/-! DEFINITION. How outstanding operations perform (06 R199 to R203, 07 R210, R211), and the write buffer (07
R213, R222, R223). -/

namespace Sys2Proof.Machine

/-! ## Elements that can be read or changed -/

def isScratch (e : Elem) : Bool := decide (scratchBase ≤ e.pa)

/-- Why an element's value cannot be used: a decode error, or poison. -/
def State.elemBad (s : State) (hp : Nat) (e : Elem) : Bool :=
  !(isScratch e) && (!(s.reachable hp e.key e.pa) || s.poisoned e.pa e.size)

/-- Counts what a bad element met: a decode error as well as the poison consumed (R29, R188). -/
def State.countBad (s : State) (hp : Nat) (e : Elem) : State :=
  (if s.reachable hp e.key e.pa then s else (s.countKey e.key).bumpErr 7).bumpErr 6

def State.countAllBad (hp : Nat) : State → List Elem → State
  | s, [] => s
  | s, e :: es => State.countAllBad hp (s.countBad hp e) es

/-- Elements at the places where migrations route them (R207). -/
def State.routed (s : State) (cl : Nat) (es : List Elem) : List Elem :=
  es.map fun e => if isScratch e then e else { e with pa := (s.writeRoute cl e.pa).addr e.pa }

def State.anyRouteHeld (s : State) (cl : Nat) (write : Bool) (es : List Elem) : Bool :=
  es.any fun e => !(isScratch e) && ((if write then s.writeRoute cl e.pa else s.readRoute cl e.pa)).isHeld

/-- POISON of elements. -/
def poisonOf (es : List Elem) : Option FaultInfo := causeOf causePoison (es.map fun e => (e.lane, e.va.toNat))

/-- Settles an operation's pending destination. -/
def State.settleOp (s : State) (o : Op) (ws : List RegWrite) (flt : Option FaultInfo) : State :=
  match o.pid with
  | some pid => s.settle o.ref pid ws 0 flt
  | none => s

/-- Scratchpad operations are complete when they perform; the others wait for their acknowledgement. -/
def State.performed (s : State) (o : Op) : State :=
  if !o.elems.isEmpty && o.elems.all isScratch then s.finishOp o else s.perform o

/-- The acquire that an operation makes when it has performed. -/
def State.acquireOp (s : State) (o : Op) : State :=
  match o.cls with
  | .a => s.acquire o.ref o.scope
  | .x => s.acquire o.ref o.scope
  | .q => s.acquire o.ref o.scope
  | _ => s

/-! ## Atomics, loads at the memory-side units and at the host -/

/-- Who performs an operation's writes: a home, its unit or the host, or the L2 of the issuing compute die. -/
def State.performer (s : State) (o : Op) (es : List Elem) : Nat :=
  match es with
  | e :: _ => if o.msa || o.host then homeWriter (s.region (s.team o.ref.tid).hp e.pa).home else dieOfCluster (s.clusterOf o.ref)
  | [] => 0

/-- A completion error of the host: every lane reads poison (R191). -/
def State.badElem (s : State) (hp : Nat) (err : Bool) (e : Elem) : Bool := err || s.elemBad hp e

/-- An atomic performs: every element in turn; one that is poisoned is not updated. -/
def State.performAtomic (s : State) (o : Op) (aop : Nat) (t : Ty) (d : Nat) (err : Bool := false) : State :=
  let hp := (s.team o.ref.tid).hp
  let cl := s.clusterOf o.ref
  let es := s.routed cl o.elems
  let bad := es.filter (s.badElem hp err)
  let s' := State.countAllBad hp s bad
  let (olds, s') := s'.atomElems (s.performer o es) aop t (.op o.id) (es.filter fun e => !(s.badElem hp err e))
  let s' := s'.settleOp o (oldWrites t d olds) (poisonOf bad)
  let s' := s'.invalElems cl (es.filter fun e => !(isScratch e))
  (s'.performed { o with ints := s'.intervals es }).acquireOp o

/-- A load performs past every cache. -/
def State.performLoad (s : State) (o : Op) (t : Ty) (sc : Bool) (d : Nat) (err : Bool := false) : State :=
  let hp := (s.team o.ref.tid).hp
  let cl := s.clusterOf o.ref
  let es := o.elems.map fun e => { e with pa := (s.readRoute cl e.pa).addr e.pa }
  let bad := es.filter (s.badElem hp err)
  let good := es.filter fun e => !(s.badElem hp err e)
  let ws := good.flatMap fun e => resultWrites t sc e.lane d (natOfBytes (memReadN s.mem.bytes e.pa e.size))
  ((((State.countAllBad hp s bad).settleOp o ws (poisonOf bad)).invalElems cl o.elems).performed { o with ints := s.intervals o.elems }).acquireOp o

/-- A DEC load performs past every cache (R194, R203). -/
def State.performDec (s : State) (o : Op) (t : Ty) (d : Nat) (lanes : List DecLane) (err : Bool := false) : State :=
  let hp := (s.team o.ref.tid).hp
  let cl := s.clusterOf o.ref
  let es := o.elems.map fun e => { e with pa := (s.readRoute cl e.pa).addr e.pa }
  let bad := es.filter (s.badElem hp err)
  let got := es.map fun e => (e.lane, if s.badElem hp err e then none else some (memReadN s.mem.bytes e.pa e.size))
  let (ws, fl, flt) := decFinish t d lanes got
  let s := State.countAllBad hp s bad
  let s := match o.pid with
    | some pid => s.settle o.ref pid ws fl flt
    | none => s
  ((s.invalElems cl o.elems).performed { o with ints := s.intervals o.elems }).acquireOp o

/-- A store past the write buffer updates the sectors that the L1 holds (R184). -/
def renewL1 (cl : Nat) : State → List Elem → State
  | s, [] => s
  | s, e :: es => renewL1 cl (s.updateL1 cl e.pa e.data) es

/-- Every byte of a sector lies in one of the ranges. -/
def coversSector (rs : List (Nat × Nat)) (sec : Nat) : Bool :=
  (List.range 32).all fun k => rs.any fun r => decide (r.1 ≤ sec * 32 + k ∧ sec * 32 + k < r.1 + r.2)

/-- Stores that together cover a whole sector clear its poison (R188, R184). -/
def State.cleanCovered (s : State) (rs : List (Nat × Nat)) : State :=
  { s with mem := { s.mem with poison := s.mem.poison.filter fun p => !(coversSector rs p.1) } }

def elemRanges (es : List Elem) : List (Nat × Nat) := es.map fun e => (e.pa, e.size)

/-- A store performs; a scatter leaves no sector that it touched in the L1. -/
def State.performStore (s : State) (o : Op) : State :=
  let cl := s.clusterOf o.ref
  let s := (s.storeElems o o.elems).cleanCovered (elemRanges (s.routed cl o.elems))
  let s := if o.kind == .scatter then s.invalElems cl (o.elems.filter fun e => !(isScratch e)) else renewL1 cl s o.elems
  s.performed { o with ints := s.intervals o.elems }

/-! ## Gathers -/

/-- The elements that a test picks are served, if they have not been. -/
def State.serveElems (pick : Elem → Bool) : State → Op → List Elem → Op × State
  | s, o, [] => (o, s)
  | s, o, e :: es =>
    if o.got.any (fun g => g.1 == e.lane) || !(pick e) then State.serveElems pick s o es
    else
      let hp := (s.team o.ref.tid).hp
      let e' := { e with pa := (s.readRoute (s.clusterOf o.ref) e.pa).addr e.pa }
      if s.elemBad hp e' then
        State.serveElems pick (s.countBad hp e') { o with got := o.got ++ [(e.lane, [])], poisoned := o.poisoned + 2 ^ e.lane } es
      else State.serveElems pick s { o with got := o.got ++ [(e.lane, memReadN s.mem.bytes e'.pa e.size)] } es

/-- A gather whose elements have all arrived writes its lanes (R202). -/
def State.closeGather (s : State) (o : Op) (t : Ty) (d : Nat) : State :=
  if o.elems.all fun e => o.got.any fun g => g.1 == e.lane then
    let bad := o.elems.filter fun e => bitOf o.poisoned e.lane
    let ws := (o.got.filter fun g => !(bitOf o.poisoned g.1)).flatMap fun g => resultWrites t false g.1 d (natOfBytes g.2)
    (s.settleOp o ws (poisonOf bad)).perform o
  else s.setOp o

/-- Elements of a gather are served. The cluster drops what its L1 holds of them, which may be older (07 R218; log entry 101). -/
def State.gatherStep (s : State) (o : Op) (t : Ty) (d : Nat) (pick : Elem → Bool) : State :=
  let (o', s') := State.serveElems pick s o o.elems
  (s'.invalElems (s.clusterOf o.ref) (o.elems.filter pick)).closeGather o' t d

/-- The home of an element. -/
def State.homeOf (s : State) (o : Op) (pa : Nat) : Nat := (s.region (s.team o.ref.tid).hp pa).home

/-- The home serves an element itself: not near memory, owned by an L2, or present in the Sill (R202). -/
def State.servedAtHome (s : State) (o : Op) (pa : Nat) : Bool :=
  !(s.region (s.team o.ref.tid).hp pa).isNear || (s.directory (lineOf pa)).owner.isSome || (s.sillLine (lineOf pa)).isSome

def State.stackOf (s : State) (o : Op) (pa : Nat) : Option Nat :=
  match s.region (s.team o.ref.tid).hp pa with
  | .near _ stack _ => some stack
  | _ => none

/-! ## The write buffer (07 R213, R222) -/

/-- An entry must stay: held by an injection, its line held pending-seal or behind a kept entry, or its page
locked. -/
def State.mustKeep (s : State) (cl : Nat) (kept : List Nat) (e : WbEntry) : Bool :=
  (match e.heldBy with
   | some id => s.mem.ops.any fun o => o.id == id && !o.arrived
   | none => false)
  || s.lineHeld (lineOf e.pa) e.op || kept.contains (lineOf e.pa) || (s.writeRoute cl e.pa).isHeld

/-- A store leaves the buffer for the L2. -/
def State.drainEntry (s : State) (cl : Nat) (e : WbEntry) : State :=
  let h := (s.region (s.hpOfCluster cl) e.pa).home
  let s := { s with mem := { s.mem with seqTx := countSeq cl s.mem.seqTx h, seqRx := countSeq cl s.mem.seqRx h } }
  match s.op? e.op with
  | some o => s.storeElem o { lane := 0, va := (o.elems.headD { lane := 0, va := 0, pa := 0, key := 0, size := 0, data := [], cmp := [] }).va, pa := e.pa, key := e.key, size := e.data.length, data := e.data, cmp := [] } e.data
  | none => s.commit (dieOfCluster cl) e.pa e.data e.key

/-- The slice whose store an entry is. -/
def State.refOfEntry (s : State) (e : WbEntry) : Option SliceRef := (s.op? e.op).map (·.ref)

/-- Entries in commit order: what stays, and the state once the others have drained. Behind an entry that stays, those of its
line and those of its slice stay (R213, R221). -/
def State.drainList (cl : Nat) : State → List Nat → List (Option SliceRef) → List WbEntry → List WbEntry × State
  | s, _, _, [] => ([], s)
  | s, kept, refs, e :: es =>
    if s.mustKeep cl kept e || refs.contains (s.refOfEntry e) then
      let (ks, s) := State.drainList cl s (lineOf e.pa :: kept) (s.refOfEntry e :: refs) es
      (e :: ks, s)
    else State.drainList cl (s.drainEntry cl e) kept refs es

/-- Stores whose entries have all drained have performed. -/
def markDrained (s : State) (left : List WbEntry) (gone : List WbEntry) (o : Op) : Op :=
  if gone.any (fun e => e.op == o.id) && !(left.any fun e => e.op == o.id) then { o with performed := true, ints := s.intervals o.elems } else o

/-- A cluster holds a line narrow only while it buffers a store to it (R222). -/
def dropNarrow (cl : Nat) (left : List WbEntry) (p : Nat × LineState) : Nat × LineState :=
  (p.1, if left.any (fun e => lineOf e.pa == p.1) then p.2 else { p.2 with narrow := p.2.narrow.filter fun c => c.1 != cl })

/-- The write buffer drains as far as it may. -/
def State.drain (s : State) (cl : Nat) : State :=
  let all := (s.l1 cl).wbuf
  let (left, s) := State.drainList cl s [] [] all
  let gone := all.filter fun e => !(left.contains e)
  let s := (s.setL1 cl { s.l1 cl with wbuf := left }).cleanCovered (gone.map fun e => (e.pa, e.data.length))
  let m := s.mem
  { s with mem := { m with ops := m.ops.map (markDrained s left all), lines := (m.lines.map (dropNarrow cl left)).filter fun p => p.2 != LineState.fresh } }

/-- A release at team scope registers its cluster and team at every line that its slice's stores wait for (R222). -/
def State.registerNarrow (holder : Nat × Nat) : State → List Nat → State
  | s, [] => s
  | s, l :: ls =>
    let x := s.line l
    State.registerNarrow holder (if x.narrow.contains holder then s else s.setLine l { x with narrow := holder :: x.narrow }) ls

/-- The lines for which stores of a slice wait in the buffer. -/
def State.linesBuffered (s : State) (r : SliceRef) : List Nat :=
  ((s.l1 (s.clusterOf r)).wbuf.filter fun e => match s.op? e.op with | some o => o.ref == r | none => false).map (fun e => lineOf e.pa) |>.eraseDups

/-- A release at team scope leaves its slice's stores in the buffer, and its cluster is a narrow holder of their lines (R222). A
pair team's stores leave it. -/
def State.narrowed (s : State) (o : Op) : State :=
  if o.scope == .team && !(s.team o.ref.tid).desc.pair then
    State.registerNarrow (s.clusterOf o.ref, o.ref.tid) s (s.linesBuffered o.ref)
  else s

end Sys2Proof.Machine
end

