-- ==== Sys2Proof/Machine/MemEvents.lean ====
section
/-! DEFINITION. Steps of the memory system: walks, fault records, the write buffer, gathers, scatters, atomics and
vault ways (06 R170 to R203). -/

namespace Sys2Proof.Machine

/-- TABLE_WALK (R170): A page walk completes, filling the TLBs of the cluster that asked and setting A and D, or reporting a
fault. -/
def execEvTableWalk (hp ctx : Nat) (va : Quad) (w : WalkReq) (s : State) : Host.Outcome State Fault Refusal :=
  .next (if canonical va.toNat then (s.takeWalk hp ctx va.toNat w.acc (some w.cl)).2 else s)

/-! ## The write buffer -/

/-- L1_WRITE_BUFFER_DRAIN (R213): Buffered stores drain from the L1 write buffer to the L2. -/
def execEvL1WriteBufferDrain (cl : Nat) (s : State) : Host.Outcome State Fault Refusal := .next (s.drain cl).retire

def countTeams (ev : Nat) : State → List Nat → State
  | s, [] => s
  | s, t :: ts => countTeams ev (s.count t ev) ts

/-- FORCED_PUBLISH (R223): A holder cluster drains its write buffer on a forced publish from an outside acquire. The publish is
acknowledged, and counted for each holder team (R224), once the buffer is empty. -/
def execEvForcedPublish (cl : Nat) (s : State) : Host.Outcome State Fault Refusal :=
  let s := s.drain cl
  if (s.l1 cl).wbuf.isEmpty then
    let teams := (s.mem.publish.filter fun c => c.1 == cl).map (·.2)
    .next (countTeams 0x0D { s with mem := { s.mem with publish := s.mem.publish.filter fun c => c.1 != cl } } teams).retire
  else .next s.retire

/-! ## Gather and scatter (R202) -/

def OpKind.gatherOf : OpKind → Option (Ty × Nat)
  | .gather t d => some (t, d)
  | _ => none

/-- A gather that may be served: ordered, not held, not routed to a page in motion. -/
def State.gatherReady (s : State) (o : Op) : Bool :=
  !o.performed && s.ready o && !(s.anyRouteHeld (s.clusterOf o.ref) false o.elems)

/-- The gathers of one request: the elements that they name alike are read once, in one step (R201). -/
def State.requestOf (s : State) (o : Op) : List Op := s.mem.ops.filter fun p => p.kind.gatherOf.isSome && p.grp == o.grp

/-- The elements that a test picks are served in every gather of a request. -/
def State.serveRequest (pick : State → Op → Elem → Bool) : State → List Op → State
  | s, [] => s
  | s, o :: os =>
    match o.kind.gatherOf with
    | some (t, d) => State.serveRequest pick (s.gatherStep o t d (pick s o)) os
    | none => State.serveRequest pick s os

/-- A request is served where all of its gathers are ready. The elements are picked by the state before. -/
def State.serveGather (s : State) (op : Nat) (msa : Bool) (pick : Op → Elem → Bool) : State :=
  match s.op? op with
  | none => s
  | some o =>
    let os := s.requestOf o
    if o.msa == msa && !os.isEmpty && os.all fun p => s.gatherReady p || p.performed then
      State.serveRequest (fun _ => pick) s (os.filter fun p => !p.performed)
    else s

/-- GATHER_SUBPACKET (R202): A home Sill die serves a gather sub-packet element by element. -/
def execEvGatherSubpacket (op die : Nat) (s : State) : Host.Outcome State Fault Refusal :=
  .next (s.serveGather op false fun o e => s.homeOf o e.pa == die && s.servedAtHome o e.pa)

/-- GATHER_EXPANDER_READ (R202): A stack base die's gather expander reads and returns requested elements. -/
def execEvGatherExpanderRead (op stack : Nat) (s : State) : Host.Outcome State Fault Refusal :=
  .next (s.serveGather op false fun o e => s.stackOf o e.pa == some stack && !(s.servedAtHome o e.pa))

/-- One element of a scatter performs; the last one completes the operation. -/
def State.scatterOne (s : State) (o : Op) (k : Nat) (e : Elem) : State :=
  let s := ((s.storeElem o e e.data).invalL1 (s.clusterOf o.ref) e.pa e.size)
  let o := { o with got := o.got ++ [(k, [])] }
  if o.elems.length ≤ o.got.length then (s.cleanCovered (elemRanges o.elems)).perform { o with ints := s.intervals o.elems } else s.setOp o

/-- SCATTER_ELEMENT (R202): An SCT element performs at its line's home. -/
def execEvScatterElement (op k : Nat) (s : State) : Host.Outcome State Fault Refusal :=
  match s.op? op with
  | none => .next s
  | some o =>
    if o.kind != .scatter || o.performed then .next s
    else
      match o.elems[k]? with
      | none => .next (if o.elems.isEmpty then s.perform o else s)
      | some e =>
        let one := { o with elems := [e] }
        if o.got.any (fun g => g.1 == k) || !(s.ready one) || s.anyRouteHeld (s.clusterOf o.ref) true [e] then .next s
        else .next (s.scatterOne o k e)

/-! ## Atomics and memory-side units (R200, R203) -/

/-- An atomic or a load at its unit: ordered, not held; an acquire waits for the publishes it forces. -/
def State.unitReady (s : State) (o : Op) (write : Bool) : Bool :=
  !o.performed && !o.cls.trails && s.ready o && !(s.anyRouteHeld (s.clusterOf o.ref) write o.elems)

/-- Before an acquire, holders of its lines outside the slice's team are asked to publish (07 R223); else the step is made. -/
def State.orPublish (s : State) (o : Op) (f : State → State) : State :=
  let hs := if o.cls == .a || o.cls == .x then s.outsideHolders o.ref o.elems else []
  if hs.isEmpty then f s else s.askPublish hs

/-- L2_ATOMIC (R200): An atomic executes in the L2 after taking the line exclusive. -/
def execEvL2Atomic (op : Nat) (s : State) : Host.Outcome State Fault Refusal :=
  match s.op? op with
  | none => .next s
  | some o =>
    match o.kind with
    | .atomic aop t d =>
      if !o.msa && !o.host && s.unitReady o true then .next (s.orPublish o fun s => s.performAtomic o aop t d) else .next s
    | _ => .next s

/-- MSA_ACCESS (R203): A memory-side atomic unit performs an access to an MSA line. -/
def execEvMsaAccess (op : Nat) (s : State) : Host.Outcome State Fault Refusal :=
  match s.op? op with
  | none => .next s
  | some o =>
    if !o.msa then .next s
    else
      match o.kind with
      | .atomic aop t d => .next (if s.unitReady o true then s.orPublish o fun s => s.performAtomic o aop t d else s)
      | .load t sc d => .next (if s.unitReady o false then s.orPublish o fun s => s.performLoad o t sc d else s)
      | .store => .next (if s.unitReady o true then s.performStore o else s)
      | .dec t d lanes => .next (if s.unitReady o false then s.orPublish o fun s => s.performDec o t d lanes else s)
      | .gather _ _ => .next (s.serveGather op true fun _ _ => true)
      | .scatter => .next (if s.unitReady o true then s.performStore o else s)
      | _ => .next s

/-! ## Vault ways (R190) -/

def vaultBase (die way : Nat) : Nat := 0x8000000000 + die * 0x20000000 + way * 0x2000000

/-- Memory without the bytes of a range. -/
def clearRange (m : Memory) (lo n : Nat) : Memory := m.filter fun c => !(decide (lo ≤ c.1 ∧ c.1 < lo + n))

def State.setVault (s : State) (die : Nat) (v : Vault) : State :=
  { s with mem := { s.mem with vaults := smPut Vault.reset die v s.mem.vaults } }

/-- The way's lines hold zeros, clean and known to none; their intervals start again at 0 (DESIGN CHOICE, log entry 104). -/
def State.clearWay (s : State) (die way : Nat) : State :=
  let lo := vaultBase die way
  let n := 0x2000000
  { s with mem := { s.mem with
      bytes := clearRange s.mem.bytes lo n
      poison := s.mem.poison.filter fun p => !(decide (lo / 32 ≤ p.1 ∧ p.1 < (lo + n) / 32))
      l2 := (s.mem.l2.map fun p => (p.1, p.2.filter fun x => !(decide (lo / 128 ≤ x.line ∧ x.line < (lo + n) / 128)))).filter fun p => !p.2.isEmpty
      lines := s.mem.lines.filter fun p => !(decide (lo / 128 ≤ p.1 ∧ p.1 < (lo + n) / 128)) } }

/-- SILL_WAY_TO_VAULT (R190): Setting a VAULT bit writes back, invalidates and clears a Sill way. A write that
changes a bit whose BUSY bit is set is ignored for that bit. -/
def execEvSillWayToVault (die way : Nat) (s : State) : Host.Outcome State Fault Refusal :=
  let v := s.vault die
  if die < Config.sillDies ∧ way < 16 ∧ !v.vault.getLsbD way ∧ !v.busy.getLsbD way then
    let m : BitVec 16 := 1#16 <<< way
    .next (((s.emptyWay die way).clearWay die way).setVault die { vault := v.vault ||| m, busy := v.busy ||| m })
  else .next s

/-- SILL_WAY_TO_CACHE (R190): Clearing a VAULT bit returns the way to cache, dropping its data. -/
def execEvSillWayToCache (die way : Nat) (s : State) : Host.Outcome State Fault Refusal :=
  let v := s.vault die
  if die < Config.sillDies ∧ way < 16 ∧ v.vault.getLsbD way ∧ !v.busy.getLsbD way then
    .next ((s.clearWay die way).setVault die { v with vault := v.vault &&& ~~~(1#16 <<< way) })
  else .next s

/-- SILL_WAY_CONVERT_DONE (R190): A way finishes converting to vault and its BUSY bit clears. -/
def execEvSillWayConvertDone (die way : Nat) (s : State) : Host.Outcome State Fault Refusal :=
  let v := s.vault die
  .next (if v.busy.getLsbD way then s.setVault die { v with busy := v.busy &&& ~~~(1#16 <<< way) } else s)

end Sys2Proof.Machine
end

