-- ==== Sys2Proof/Machine/Alarms.lean ====
section
/-! DEFINITION. The destruction of keys (14 R430) and the actions of GLPOL on a security alarm (R434). -/

namespace Sys2Proof.Machine

def State.withDev (s : State) (d : Dev) : State := { s with dev := d }

def State.setKey (s : State) (k : Nat) (x : KeySlot) : State := s.withDev { s.dev with keys := smPut KeySlot.empty k x s.dev.keys }

/-- A slot bound to a TDI in RUN (R431). -/
def State.boundInRun (s : State) (k : Nat) : Bool := s.dev.tdis.any fun p => p.2.st == 2 && p.2.slots.contains k

/-- Step 1 of a destruction: every unit marks the slots, and BUSY is set (R430). -/
def State.destroySlots (s : State) (ks : List Nat) : State :=
  let ks := ks.filter fun k => (s.keySlot k).st == 1
  if ks.isEmpty then s
  else
    let s := ks.foldl (fun s k => s.setKey k { s.keySlot k with st := 2 }) s
    s.withDev { s.dev with keyBusy := true, keyDoomed := s.dev.keyDoomed ++ ks }

/-- Slots that an alarm's action 1 destroys: for HASH, those bound to a TDI in RUN. -/
def State.alarmSlots (s : State) (a : Alarm) : List Nat :=
  match a.cause with
  | .hash => a.slots.filter s.boundInRun
  | _ => a.slots

/-- The action of GLPOL for a cause: 0 of TAMPER and GLITCH acts as 1; 3 as the weakest action of its cause. -/
def alarmAction (glpol : Nat) (c : AlarmCause) : Nat :=
  let act := fun (lo least : Nat) => let x := bitsOf glpol (lo + 1) lo; if x = 0 ∨ x = 3 then least else x
  match c with
  | .tamper => act 0 1
  | .glitch => act 2 1
  | .misuse => act 4 0
  | .hash => act 6 0

/-- TDIs in RUN whose slots an action destroys go to ERROR, all their slots destroyed first (R431). -/
def State.leaveRun (s : State) (hit : Tdi → Bool) : State :=
  let doomed := (s.dev.tdis.filter fun p => p.2.st == 2 && hit p.2).flatMap fun p => p.2.slots
  let s := s.destroySlots doomed
  s.withDev { s.dev with tdis := s.dev.tdis.map fun p => if p.2.st == 2 && hit p.2 then (p.1, { p.2 with st := 3 }) else p }

/-- Every LOADED slot. -/
def State.loadedSlots (s : State) : List Nat := (s.dev.keys.filter fun p => p.2.st == 1).map (·.1)

def State.alarm (s : State) (a : Alarm) : State :=
  let s := s.bumpErr 18
  let ks := s.alarmSlots a
  match alarmAction s.dev.glpol.toNat a.cause with
  | 1 => (s.leaveRun fun t => t.slots.any fun k => ks.contains k).destroySlots ks
  | 2 =>
    if a.cause == .hash && ks.isEmpty then s
    else
      let s := (s.leaveRun fun _ => true).destroySlots s.loadedSlots
      s.withDev { s.dev with booted := false, alarmHold := true }
  | _ => s

end Sys2Proof.Machine
end

