-- ==== Sys2Proof/Machine/Barriers.lean ====
section
/-! DEFINITION. Barrier words: fields, phases, arrivals, invalidation, pair barriers and the gangs they wake (08 R257 to
R275). -/

namespace Sys2Proof.Machine

/-! ## Words (R257) -/

def barExpected (w : Nat) : Nat := bitsOf w 15 0
def barPending (w : Nat) : Nat := bitsOf w 31 16
def barNext (w : Nat) : Nat := bitsOf w 47 32
def barPhase (w : Nat) : Bool := bitOf w 48
def barValid (w : Nat) : Bool := bitOf w 49
def barUnit (w : Nat) : Bool := bitOf w 50
def barReserved (w : Nat) : Bool := bitsOf w 63 51 != 0

def Team.barWord (t : Team) (half off : Nat) : Nat := natOfBytes (t.scratchBytes half off 8)
def Team.putBar (t : Team) (half off w : Nat) : Team := t.putScratch half off (bytesOfNat 8 w)

def Team.isPaired (t : Team) (half off : Nat) : Bool := smGet false (scratchKey half off) t.paired
def Team.isRemote (t : Team) (half off : Nat) : Bool := smGet false (scratchKey half off) t.remote
def Team.setPaired (t : Team) (half off : Nat) (b : Bool) : Team := { t with paired := smPut false (scratchKey half off) b t.paired }
def Team.setRemote (t : Team) (half off : Nat) (b : Bool) : Team := { t with remote := smPut false (scratchKey half off) b t.remote }

/-- Arrivals, waits and tests on a paired word act on the slice's own half (R271). -/
def Team.barHalf (t : Team) (bent half off : Nat) : Nat := if t.isPaired half off then t.halfOf bent else half

/-- PHASE flips, and EXPECTED and PENDING become NEXT (R259). -/
def barFlip (w : Nat) : Nat :=
  let n := barNext w
  setBits (setBits (setBits w 48 48 (if barPhase w then 0 else 1)) 15 0 n) 31 16 n

/-! ## Gangs -/

/-- The first word of the instruction that a slice waits at, at `pc`. -/
def State.instAt (s : State) (r : SliceRef) (pc : Quad) : Word :=
  let t := s.team r.tid
  match s.fetchWord t.hp t.ctx (t.clusterOf r.bent) pc.toNat with
  | (.ok _ _, w, _) => BitVec.ofNat 32 w
  | _ => 0

/-- A precise fault of a slice on the instruction at `pc`: it leaves its gang and traps there. -/
def State.faultOn (s : State) (r : SliceRef) (f : FaultInfo) (pc : Quad) (inst : Word) : State :=
  let gm := if (s.slice r).tmode then 1#8 <<< r.sl else s.gangMask r
  ((s.modSlice r fun x => { x with wait := .none }).leaveGang r).raiseTrap r { info := f, tpc := pc, tfpc := pc, inst := inst, gmask := gm }

/-- The same for a slice that waits at its instruction. -/
def State.faultAt (s : State) (r : SliceRef) (f : FaultInfo) : State := s.faultOn r f (s.slice r).pc (s.instAt r (s.slice r).pc)

def faultEach (f : FaultInfo) : State → List SliceRef → State
  | s, [] => s
  | s, r :: rs => faultEach f (s.faultAt r f) rs

/-- The same on an instruction that the slices have gone past. -/
def faultBehind (f : FaultInfo) (pc : Quad) (inst : Word) : State → List SliceRef → State
  | s, [] => s
  | s, r :: rs => faultBehind f pc inst (s.faultOn r f pc inst) rs

/-- Every slice of a team. -/
def State.sliceRefs (s : State) (tid : Nat) : List SliceRef :=
  (s.slices.filter fun p => p.1 / 512 == tid).map fun p => { tid := tid, bent := p.1 % 512 / 8, sl := p.1 % 8 }

/-! ## Waking (R265, R266) -/

/-- A wait's condition holds, or it has none. -/
def State.waitHolds (s : State) (tid : Nat) (groupPhase : Nat → Option Bool) : Wait → Bool
  | .barrier half off phase => barPhase ((s.team tid).barWord half off) != phase
  | .group slot phase =>
    match groupPhase slot with
    | some p => p != phase
    | none => false
  | .along => true
  | _ => false

def Wait.isBarrier : Wait → Bool
  | .barrier _ _ _ => true
  | .group _ _ => true
  | _ => false

def Wait.scopeOf : Wait → Scope
  | .group _ _ => .dev
  | _ => .team

/-- A gang parked on the word or group whose phase completes, whose slices' conditions all hold, will be ready two clocks
on. -/
def State.wakeGang (s : State) (on : Wait → Bool) (tid bent : Nat) (groupPhase : Nat → Option Bool) (g : Gang) : State :=
  let rs := maskRefs tid bent g.mask
  if rs.any (fun r => on (s.slice r).wait) && rs.all fun r => s.waitHolds tid groupPhase (s.slice r).wait then
    let t := s.team tid
    let clock := s.partClock (4 * t.clusterOf bent + t.partOf bent) + 2
    let sc := if rs.any fun r => (s.slice r).wait.scopeOf == .dev then Scope.dev else Scope.team
    setWaits s (.wake clock sc) rs
  else s

def wakeAll (on : Wait → Bool) (tid bent : Nat) (groupPhase : Nat → Option Bool) : State → List Gang → State
  | s, [] => s
  | s, g :: gs => wakeAll on tid bent groupPhase (s.wakeGang on tid bent groupPhase g) gs

/-- The group phase that a slot of a team shows. -/
def State.groupPhase (s : State) (tid slot : Nat) : Option Bool :=
  let t := s.team tid
  match (smGet [] t.launch s.sync.groups)[t.groups.getD slot 0xFFFF]? with
  | some e => some e.phase
  | none => none

def wakeBents (on : Wait → Bool) (tid : Nat) : State → List Nat → State
  | s, [] => s
  | s, b :: bs => wakeBents on tid (wakeAll on tid b (s.groupPhase tid) s (s.gangsOf tid b)) bs

def waitsOn (half off : Nat) : Wait → Bool
  | .barrier h o _ => h == half && o == off
  | _ => false

def waitsGroup (slot : Nat) : Wait → Bool
  | .group k _ => k == slot
  | _ => false

/-- Wakes every gang of a team that waits on what has completed and whose wait is satisfied. -/
def State.wakeTeam (s : State) (tid : Nat) (on : Wait → Bool) : State :=
  wakeBents on tid s ((s.gangs.filter fun p => p.1 / 64 == tid).map fun p => p.1 % 64)

/-! ## Phases (R259, R272) -/

/-- A half of a paired word has counted its last arrival, or begins a phase that expects none: HALFDONE is sent, and
the half flips if the other's has come. -/
def Team.localDone (t : Team) (half off : Nat) : Nat → Team
  | 0 => t
  | k + 1 =>
    let t := { t with halfdone := t.halfdone ++ [(1 - half, off)] }
    if t.isRemote half off then
      let t := (t.setRemote half off false).putBar half off (barFlip (t.barWord half off))
      if barExpected (t.barWord half off) = 0 then t.localDone half off k else t
    else t

/-- PENDING has reached 0 in a half: the phase completes, or the pair rules apply. -/
def Team.lastArrival (t : Team) (half off : Nat) : Team :=
  if t.isPaired half off then t.localDone half off 2 else t.putBar half off (barFlip (t.barWord half off))

/-- HALFDONE received. -/
def Team.takeHalfdone (t : Team) (half off : Nat) : Team :=
  let w := t.barWord half off
  if barPending w = 0 then
    let t := t.putBar half off (barFlip w)
    if barExpected (t.barWord half off) = 0 then t.localDone half off 2 else t
  else t.setRemote half off true

/-! ## Invalidation (R267, R271) -/

def dropWord (key : Nat) (x : Slice) : Slice := { x with drops := x.drops.filter (· != key) }

/-- Drop records of a word are cleared in every slice of the team. -/
def State.clearDrops (s : State) (tid key : Nat) : List SliceRef → State
  | [] => s
  | r :: rs => (State.clearDrops s tid key rs).modSlice r (dropWord key)

/-- The next instruction of a slice that goes on past the three words it waits at. -/
def Slice.passThree (x : Slice) : Slice := { x with pc := x.pc + 12, wait := .none }

/-- The slices of the gangs parked on a word (R267): each that executed a wait, and each that only waited along. -/
def State.parkedOn (s : State) (half off : Nat) (test : Wait → Bool) (p : Nat × List Gang) : List SliceRef :=
  p.2.flatMap fun g =>
    let rs := maskRefs (p.1 / 64) (p.1 % 64) g.mask
    if rs.any fun r => waitsOn half off (s.slice r).wait then rs.filter fun r => test (s.slice r).wait else []

def State.parkedSlices (s : State) (tid half off : Nat) (test : Wait → Bool) : List SliceRef :=
  (s.gangs.filter fun p => p.1 / 64 == tid).flatMap (s.parkedOn half off test)

def passAlong : State → List SliceRef → State
  | s, [] => s
  | s, r :: rs => passAlong (s.modSlice r Slice.passThree) rs

def markCmd (half off : Nat) (c : TileCmd) : TileCmd := if c.bar == some (half, off) then { c with marked := true } else c

/-- Copies and matrix commands of the team whose completion names the word are marked. -/
def State.markCopies (s : State) (tid half off : Nat) : State :=
  let mark := fun (c : Copy) => if c.eid.isNone && c.ref.tid == tid && c.bar == some (half, off) then { c with marked := true } else c
  { s with copy := { s.copy with copies := s.copy.copies.map mark } }.modTeam tid fun t => { t with tileQ := t.tileQ.map (markCmd half off), tileQ1 := t.tileQ1.map (markCmd half off) }

def barrierFault (sub : Nat) : FaultInfo := faultAll causeBarrier sub

/-- One half's word is invalidated. -/
def State.invalidateHalf (s : State) (tid half off : Nat) : State :=
  let t := s.team tid
  let s := s.setTeam tid (t.putBar half off (setBits (t.barWord half off) 49 49 0))
  let waiters := s.parkedSlices tid half off Wait.isBarrier
  let along := s.parkedSlices tid half off (· == .along)
  let s := passAlong (faultEach (barrierFault 2) s (slotOrder s waiters)) along
  (s.markCopies tid half off).clearDrops tid (scratchKey half off) (s.sliceRefs tid)

/-- BARX: on a paired word both halves, and their shadow bits. -/
def State.barx (s : State) (tid half off : Nat) : State :=
  if (s.team tid).isPaired half off then
    let s := (s.invalidateHalf tid half off).invalidateHalf tid (1 - half) off
    s.modTeam tid fun t => (((t.setPaired half off false).setPaired (1 - half) off false).setRemote half off false).setRemote (1 - half) off false
  else s.invalidateHalf tid half off

/-- A gang is parked on the word. -/
def State.wordParked (s : State) (tid half off : Nat) : Bool := (s.sliceRefs tid).any fun r => waitsOn half off (s.slice r).wait

/-- A copy or a matrix command in flight names the word. -/
def State.wordNamed (s : State) (tid half off : Nat) : Bool :=
  s.copy.copies.any (fun c => c.eid.isNone && c.ref.tid == tid && c.bar == some (half, off))
    || ((s.team tid).tileQ ++ (s.team tid).tileQ1).any fun c => c.bar == some (half, off)

/-- The word that BARI writes (R262). -/
def barInit (v : Nat) : Nat :=
  let n := bitsOf v 15 0
  n + n * 2 ^ 16 + n * 2 ^ 32 + bitsOf v 48 48 * 2 ^ 48 + 2 ^ 49 + bitsOf v 50 50 * 2 ^ 50

/-- The gangs parked on a live word, and the copies in flight that name the word, are treated by R267 before BARI writes it. -/
def State.retireWord (s : State) (tid half off : Nat) : State :=
  if (barValid ((s.team tid).barWord half off) && s.wordParked tid half off) || s.wordNamed tid half off then s.invalidateHalf tid half off else s

def State.initWord (s : State) (tid half off v : Nat) : State :=
  let s := s.modTeam tid fun t => t.putBar half off (barInit v)
  s.clearDrops tid (scratchKey half off) (s.sliceRefs tid)

/-- BARI (R262, R271). -/
def State.bari (s : State) (tid half off : Nat) (pair : Bool) (v : Nat) : State :=
  if pair then
    let s := (s.retireWord tid half off).retireWord tid (1 - half) off
    let s := (s.initWord tid half off v).initWord tid (1 - half) off v
    s.modTeam tid fun t =>
      let t := (((t.setPaired half off true).setPaired (1 - half) off true).setRemote half off false).setRemote (1 - half) off false
      if bitsOf v 15 0 = 0 then (t.localDone half off 2).localDone (1 - half) off 2 else t
  else
    let paired := (s.team tid).isPaired half off
    let s := if paired then s.invalidateHalf tid (1 - half) off else s
    let s := s.modTeam tid fun t =>
      if paired then (((t.setPaired half off false).setPaired (1 - half) off false).setRemote half off false).setRemote (1 - half) off false else t
    (s.retireWord tid half off).initWord tid half off v

/-! ## Arrivals (R263) -/

/-- The fault of an arrival of `n` at a word, by the order of R263. -/
def arrivalFault (w n : Nat) (bent drop dropped : Bool) : Option Nat :=
  if barReserved w then some 4
  else if !(barValid w) then some 2
  else if bent != barUnit w then some 3
  else if dropped then some 1
  else if n > barPending w then some 1
  else if drop && n > barNext w then some 1
  else none

/-- The word after an arrival that is accepted. -/
def arriveWord (w n : Nat) (drop : Bool) : Nat :=
  let w := setBits w 31 16 (barPending w - n)
  if drop then setBits w 47 32 (barNext w - n) else w

/-- An accepted arrival of `n`; the last one completes the phase and wakes. -/
def State.arrive (s : State) (tid half off n : Nat) (drop : Bool) : State :=
  let s := s.modTeam tid fun t => t.putBar half off (arriveWord (t.barWord half off) n drop)
  if barPending ((s.team tid).barWord half off) = 0 then (s.modTeam tid fun t => t.lastArrival half off).wakeTeam tid (waitsOn half off) else s

/-- A drop record: the oldest of eight goes first (R264). -/
def Slice.recordDrop (key : Nat) (x : Slice) : Slice :=
  let ds := x.drops ++ [key]
  { x with drops := if ds.length > 8 then ds.tail else ds }

/-- The arrival of a copy or a matrix command: a count of 1, whatever UNIT holds; false when the word refuses it
(R268). -/
def State.engineArrive (s : State) (tid half off : Nat) : Bool × State :=
  let w := (s.team tid).barWord half off
  if !(barValid w) || barReserved w || barPending w = 0 then (false, s) else (true, s.arrive tid half off 1 false)

/-! ## Groups (R274, R275) -/

def State.setGroup (s : State) (launch g : Nat) (e : GroupEntry) : State :=
  let es := smGet [] launch s.sync.groups
  { s with sync := { s.sync with groups := smPut [] launch (es.set g e) s.sync.groups } }

/-- The slot of a team that names a group. -/
def Team.slotOf (t : Team) (g : Nat) : Option Nat := (List.range 4).find? fun j => t.groups.getD j 0xFFFF == g

/-- ARRIVED of a group is cleared in every team of the launch. -/
def clearArrived (launch g : Nat) (p : Nat × Team) : Nat × Team :=
  if p.2.launch = launch then
    match p.2.slotOf g with
    | some j => (p.1, { p.2 with arrived := p.2.arrived &&& ~~~(1#4 <<< j) })
    | none => p
  else p

/-- Wakes the gangs of each team that wait on its slot of a group. -/
def wakeTeams (g : Nat) : State → List Nat → State
  | s, [] => s
  | s, t :: ts =>
    wakeTeams g (match (s.team t).slotOf g with
      | some j => s.wakeTeam t (waitsGroup j)
      | none => s) ts

/-- Completes a group's phase when nothing is pending. -/
def State.closeGroup (s : State) (launch g : Nat) : State :=
  match (smGet [] launch s.sync.groups)[g]? with
  | none => s
  | some e =>
    if e.pending = 0 then
      let s := s.setGroup launch g { expected := e.next, pending := e.next, next := e.next, phase := !e.phase }
      let s := { s with teams := s.teams.map (clearArrived launch g) }
      wakeTeams g s ((s.teams.filter fun p => p.2.launch == launch).map (·.1))
    else s

/-- A team's arrival at a group, which its slot names. -/
def State.groupArrive (s : State) (tid slot : Nat) (drop : Bool) : State :=
  let t := s.team tid
  let g := t.groups.getD slot 0xFFFF
  match (smGet [] t.launch s.sync.groups)[g]? with
  | none => s
  | some e =>
    let s := s.setTeam tid { t with arrived := t.arrived ||| (1#4 <<< slot), dropped := if drop then t.dropped ||| (1#4 <<< slot) else t.dropped }
    (s.setGroup t.launch g { e with pending := e.pending - 1, next := if drop then e.next - 1 else e.next }).closeGroup t.launch g

/-- The implicit drop of a team at its end (R276). -/
def State.groupLeave (s : State) (tid slot : Nat) : State :=
  let t := s.team tid
  let g := t.groups.getD slot 0xFFFF
  match (smGet [] t.launch s.sync.groups)[g]? with
  | none => s
  | some e =>
    if t.dropped.getLsbD slot then s
    else
      let missing := !t.arrived.getLsbD slot
      let s := s.setTeam tid { t with dropped := t.dropped ||| (1#4 <<< slot) }
      let s := s.setGroup t.launch g { e with next := e.next - 1, pending := if missing then e.pending - 1 else e.pending }
      if missing then s.closeGroup t.launch g else s

end Sys2Proof.Machine
end

