-- ==== Sys2Proof/Machine/EngineIo.lean ====
section
/-! DEFINITION. Reads and writes of engines, with why they fail, and timelines (01 R38 to R41, 11 R341). -/

namespace Sys2Proof.Machine

/-- A write by an engine, or why it failed (R441): 1 a translation fault, 2 a permission fault, 3 a decode error, 4 poison; with
the state that the attempt leaves, in which a walk in error has been counted (06 R169). -/
def State.tryWrite (s : State) (hp ctx va : Nat) (bs : List Byte) (client : Client := .none) : Except (Nat × State) State :=
  match s.xlate hp ctx va .write with
  | (.ok e pa, s) =>
    let s := s.orBlock true pa bs.length
    let pa := s.engineAt true pa
    if s.reachable hp e.keyid pa then .ok (s.commitAll (homeWriter (s.region hp pa).home) pa bs e.keyid client) else .error (3, s)
  | (.perm, s) => .error (2, s)
  | (_, s) => .error (1, s)

def State.tryRead (s : State) (hp ctx va n : Nat) : Except (Nat × State) (List Byte × State) :=
  match s.xlate hp ctx va .read with
  | (.ok e pa, s) =>
    let s := s.orBlock false pa n
    let pa := s.engineAt false pa
    if !(s.reachable hp e.keyid pa) then .error (3, s)
    else if s.poisoned pa n then .error (4, s)
    else .ok (memReadN s.mem.bytes pa n, s)
  | (.perm, s) => .error (2, s)
  | (_, s) => .error (1, s)

/-- Where an access translates to; 0 where it does not (R441). -/
def State.paOf (s : State) (hp ctx va : Nat) (acc : Access) : Nat :=
  match s.xlate hp ctx va acc with
  | (.ok _ pa, _) => pa
  | _ => 0

/-- A failed access of an engine is counted: a decode error, poison consumed (14 R438). -/
def State.countMiss (s : State) (code : Nat) : State := if code = 3 then s.bumpErr 7 else if code = 4 then s.bumpErr 6 else s

/-- Pieces of a read that do not cross 4 KiB. -/
def State.tryReadN (s : State) (hp ctx va n : Nat) : Nat → Except (Nat × State) (List Byte × State)
  | 0 => .ok ([], s)
  | k + 1 =>
    if n = 0 then .ok ([], s)
    else
      let m := min n (4096 - va % 4096)
      match s.tryRead hp ctx va m with
      | .error c => .error c
      | .ok (bs, s) =>
        match State.tryReadN s hp ctx (va + m) (n - m) k with
        | .error c => .error c
        | .ok (cs, s) => .ok (bs ++ cs, s)

def State.tryReadAll (s : State) (hp ctx va n : Nat) : Except (Nat × State) (List Byte × State) := s.tryReadN hp ctx va n (n / 4096 + 2)

def State.tryWriteN (s : State) (hp ctx va : Nat) (bs : List Byte) : Nat → Except (Nat × State) State
  | 0 => .ok s
  | k + 1 =>
    if bs.isEmpty then .ok s
    else
      let m := min bs.length (4096 - va % 4096)
      match s.tryWrite hp ctx va (bs.take m) with
      | .error c => .error c
      | .ok s => State.tryWriteN s hp ctx (va + m) (bs.drop m) k

def State.tryWriteAll (s : State) (hp ctx va : Nat) (bs : List Byte) : Except (Nat × State) State := s.tryWriteN hp ctx va bs (bs.length / 4096 + 2)

/-- A write of an engine's own that fails is lost; one that does not decode is a dropped store (01 R29, R441). -/
def State.putLost (s : State) (hp ctx va : Nat) (bs : List Byte) (source where_ : Nat) : State :=
  match s.tryWriteAll hp ctx va bs with
  | .ok s => s
  | .error (c, s) =>
    if c = 3 then (s.bumpErr 8).logError hp ctx (accessRecord 1 7 0 source va (s.paOf hp ctx va .write) where_ s.ns) else s

/-! ## Timelines -/

/-- The address of a timeline, as entry `tlid` of the table gives it, or none where it is beyond the table (11 R341). -/
def State.findTimeline (s : State) (hp ctx tlid : Nat) : Option Nat × State :=
  let c := s.ccb hp ctx
  if tlid = 0 ∨ tlid ≥ min c.tlcnt 65536 then (none, s)
  else
    match s.tryReadAll hp ctx (c.tltab.toNat + 8 * tlid) 8 with
    | .error (c, s) => (none, s.countMiss c)
    | .ok (bs, s) => let va := natOfBytes bs; (if va = 0 ∨ va % 64 ≠ 0 then none else some va, s)

def State.timelineVa (s : State) (hp ctx tlid : Nat) : Option Nat := (s.findTimeline hp ctx tlid).1

/-- The scope of an access to a timeline: sys where it lies in host memory, dev elsewhere (07 R215). -/
def State.timelineScope (s : State) (hp ctx tlid : Nat) : Scope :=
  match s.timelineVa hp ctx tlid with
  | none => .dev
  | some va =>
    match (s.xlate hp ctx va .read).1 with
    | .ok _ pa => if (s.region hp pa).isHost then .sys else .dev
    | _ => .dev

/-- A place in host memory, as a context reaches it. -/
def State.hostAt (s : State) (hp ctx va : Nat) : Bool :=
  match (s.xlate hp ctx va .probe).1 with
  | .ok _ pa => (s.region hp pa).isHost
  | _ => false

/-- The three fields of a timeline; none while it cannot be read, or its line is held. -/
def State.timeline (s : State) (hp ctx va : Nat) : Option (Nat × Nat × Nat) :=
  match s.tryRead hp ctx va 24 with
  | .error _ => none
  | .ok (bs, t) => if t.mem.blocked then none else some (natOfBytes (bs.take 8), natOfBytes ((bs.drop 8).take 8), natOfBytes (bs.drop 16))

/-- A timeline once a completion has advanced it (R39). -/
def advanced (t : Nat × Nat × Nat) (tlval : Nat) (err : Bool) : List Byte :=
  let (v, ev, ec) := t
  bytesOfNat 8 (max v tlval) ++ bytesOfNat 8 (if err && ev == 0 then tlval else ev)
    ++ bytesOfNat 8 (if err then min (ec + 1) (2 ^ 64 - 1) else ec)

/-- Who makes an advance, for the record of one that is not written (R441). -/
structure Advancer where
  kind : Nat
  source : Nat
  where_ : Nat

/-- A read-modify-write of a timeline through one translation for a write. -/
def State.rmwTimeline (s : State) (hp ctx va tlval : Nat) (err : Bool) : Except (Nat × State) State :=
  match s.xlate hp ctx va .write with
  | (.ok e pa, s) =>
    let s := s.orBlock true pa 24
    let pa := s.engineAt true pa
    if !(s.reachable hp e.keyid pa) then .error (3, s)
    else
      let bs := memReadN s.mem.bytes pa 24
      let t := (natOfBytes (bs.take 8), natOfBytes ((bs.drop 8).take 8), natOfBytes (bs.drop 16))
      .ok (s.commitAll (homeWriter (s.region hp pa).home) pa (advanced t tlval err) e.keyid)
  | (.perm, s) => .error (2, s)
  | (_, s) => .error (1, s)

/-- Advances a timeline; TLID 0 names none. An advance that cannot be written is counted and logged (R39). The table entry is read
when the advance is made: one that cannot be read then, or that names no timeline any more, loses the advance as CAUSE 6, SUB 1
with VA 0 (DESIGN CHOICE, log entry 109). An advance in host memory is a release at sys scope: it waits for the deferred windows
(07 R235). -/
def State.advance (s : State) (hp ctx tlid tlval : Nat) (err : Bool) (who : Advancer) : State :=
  if tlid = 0 then s
  else
    let lost := fun (s : State) (va code : Nat) =>
      (s.bumpErr 23).logError hp ctx (accessRecord 6 who.kind code who.source va (if code = 3 then s.paOf hp ctx va .write else 0) who.where_ s.ns)
    match s.findTimeline hp ctx tlid with
    | (none, s) => lost s 0 1
    | (some va, s) =>
      let s := if s.timelineScope hp ctx tlid == .sys && !(s.openWindows none).isEmpty then s.block else s
      match s.rmwTimeline hp ctx va tlval err with
      | .ok s => s
      | .error (code, s) => lost s va code

end Sys2Proof.Machine
end

