-- ==== Sys2Proof/Machine/Sync.lean ====
section
/-! DEFINITION. The class XY: barriers on scratchpad words and on groups (08 R261 to R276). -/

namespace Sys2Proof.Machine

/-! ## Operands (R261) -/

/-- An optional scalar base and a signed offset, modulo 2^32. -/
def baseOff (x : Slice) (a : BitVec 8) (off : BitVec 24) : Nat :=
  let base := if 128 ≤ a.toNat then (x.getS (a.toNat - 128)).toNat else 0
  (((base : Int) + off.toInt) % (2 ^ 32 : Int)).toNat

def baseOffRegs (a : BitVec 8) : List Reg := if 128 ≤ a.toNat then [.s (a.toNat - 128)] else []

/-- The phase operand P. -/
def phaseOf (x : Slice) (c : BitVec 8) : Bool :=
  if 128 ≤ c.toNat then (x.getS (c.toNat - 128)).getLsbD 0 else c.getLsbD 0

def kindPair (w : Mem) : Bool := w.ty.code.getLsbD 0
def kindBent (w : Mem) : Bool := w.ty.code.getLsbD 1

/-- The half and offset of a word, or ALIGN or SCRATCH for the slice. -/
def barAddr (s : State) (r : SliceRef) (h : Head) (w : Mem) : Except FaultInfo (Nat × Nat) :=
  match checkScratch (s.team r.tid) r.bent 8 8 [(0, baseOff (s.slice r) h.a w.off)] with
  | .error f => .error { f with lanes := 15 }
  | .ok (a :: _) => .ok (a.half, a.off)
  | .ok [] => .error (faultAll causeScratch)

/-- A slice's word on which it acts: its own half of a paired one (R271). -/
def ownWord (s : State) (r : SliceRef) (p : Nat × Nat) : Nat × Nat := ((s.team r.tid).barHalf r.bent p.1 p.2, p.2)

/-! ## Arrivals -/

/-- An executing slice's part of an arrival: a fault, or an operation. -/
def arrivalOp (i : Instr) (kind : Nat × Nat → OpKind) (scope : Scope) (grp : Nat) (s : State) (r : SliceRef)
    (addr : Except FaultInfo (Nat × Nat)) : Except FaultInfo Op :=
  match addr with
  | .error f => .error f
  | .ok p =>
    let e : Elem := { lane := 0, va := BitVec.ofNat 64 p.2, pa := scratchPa r.tid p.1 p.2, key := 0, size := 8, data := [], cmp := [] }
    .ok { newOp s r i .r scope (kind p) (if scope == .team then [e] else []) false false none with grp := grp }

/-- The operations of a gang's executing slices, and the faults of those whose operand is bad. -/
def gatherArrivals (f : State → SliceRef → Option (Except FaultInfo Op)) : State → List SliceRef → State × List (SliceRef × SliceRes)
  | s, [] => (s, [])
  | s, r :: rs =>
    match f s r with
    | none => let (s, xs) := gatherArrivals f s rs; (s, (r, .go (s.slice r).pc) :: xs)
    | some (.error e) => let (s, xs) := gatherArrivals f s rs; (s, (r, .trap e none) :: xs)
    | some (.ok o) => let (s, xs) := gatherArrivals f (s.addOp o) rs; (s, (r, .go (s.slice r).pc) :: xs)

def goSlices (xs : List (SliceRef × SliceRes)) : List SliceRef :=
  xs.filterMap fun p => match p.2 with | .go _ => some p.1 | _ => none

/-- The slices that go on when the gang waits for nothing. -/
def passAll (i : Instr) (xs : List (SliceRef × SliceRes)) : List (SliceRef × SliceRes) :=
  xs.map fun p => match p.2 with | .go pc => (p.1, .go (nextPc i pc)) | x => (p.1, x)

/-- The gang's arrivals are dispatched, and its next instruction waits until each has been counted or rejected (R263). -/
def arriveBody (i : Instr) (f : Nat → State → SliceRef → Option (Except FaultInfo Op)) (s : State) (rs : List SliceRef) : Attempt :=
  if rs.any fun r => s.squareFull (s.clusterOf r) [] then .stall .retry
  else
    let grp := s.mem.nextOp
    let (s', xs) := gatherArrivals (f grp) s rs
    if s'.mem.nextOp = grp then .done s' (passAll i xs)
    else .done (setWaits s' (.arrival grp) (goSlices xs)) (passAll i xs)

def barrierPart (i : Instr) (h : Head) (w : Mem) (what : Nat) (flag : Bool) (v : Slice → Quad) (also : State → SliceRef → Option FaultInfo)
    (grp : Nat) (s : State) (r : SliceRef) : Option (Except FaultInfo Op) :=
  let x := s.slice r
  if !x.sliceOn h.gp h.gn then none
  else
    match also s r with
    | some f => some (.error f)
    | none => some (arrivalOp i (fun p => .barrier what p.1 p.2 flag (v x)) .team grp s r (barAddr s r h w))

def noFault (_ : State) (_ : SliceRef) : Option FaultInfo := none

/-- Reserved bits in BARI's value, and .pair outside a pair team. -/
def bariFault (h : Head) (w : Mem) (s : State) (r : SliceRef) : Option FaultInfo :=
  let v := ((s.slice r).getPair (h.b.toNat - 128)).toNat
  if kindPair w && !(s.team r.tid).desc.pair then some (faultAll causeScratch)
  else if bitsOf v 63 51 ≠ 0 then some (barrierFault 4)
  else none

/-- BARI (R262): Initialises a barrier word. -/
def execXyBari (h : Head) (w : Mem) (s : State) : Host.Outcome State Fault Refusal :=
  let i : Instr := .xyBari h w
  let b := h.b.toNat - 128
  issueGang i (memInfo h (baseOffRegs h.a ++ [.s b, .s (b + 1)]))
    (arriveBody i (barrierPart i h w 2 (kindPair w) (fun x => x.getPair b) (bariFault h w))) s

/-- An arrival per gang, or per bent with .bent. -/
def issueArrive (i : Instr) (h : Head) (w : Mem) (what : Nat) (s : State) : Host.Outcome State Fault Refusal :=
  let body := arriveBody i (barrierPart i h w what (kindBent w) (fun _ => 0) noFault)
  let info := memInfo h (baseOffRegs h.a)
  if kindBent w then issueBent i info body s else issueGang i info body s

/-- BARA (R263): Arrives at a barrier word. -/
def execXyBara (h : Head) (w : Mem) (s : State) : Host.Outcome State Fault Refusal := issueArrive (.xyBara h w) h w 0 s

/-- BARAD (R263): Arrives at a barrier word and drops from later phases. -/
def execXyBarad (h : Head) (w : Mem) (s : State) : Host.Outcome State Fault Refusal := issueArrive (.xyBarad h w) h w 1 s

/-- BARX (R267): Invalidates a barrier word and traps its waiters. -/
def execXyBarx (h : Head) (w : Mem) (s : State) : Host.Outcome State Fault Refusal :=
  let i : Instr := .xyBarx h w
  issueGang i (memInfo h (baseOffRegs h.a)) (arriveBody i (barrierPart i h w 3 false (fun _ => 0) noFault)) s

/-! ## Waits (R265) -/

/-- What a wait or a test finds of a word: a fault, or whether the phase is complete for P. -/
def wordTest (w : Nat) (p : Bool) : Except FaultInfo Bool :=
  if barReserved w then .error (barrierFault 4)
  else if !(barValid w) then .error (barrierFault 2)
  else .ok (barPhase w != p)

/-- An executing slice's condition: a fault, or its wait and whether it holds. -/
structure Cond where
  wait : Wait
  holds : Bool

def barwCond (h : Head) (w : Mem) (s : State) (r : SliceRef) : Option (Except FaultInfo Cond) :=
  let x := s.slice r
  if !x.sliceOn h.gp h.gn then none
  else
    match barAddr s r h w with
    | .error f => some (.error f)
    | .ok p =>
      let (half, off) := ownWord s r p
      let ph := phaseOf x h.c
      match wordTest ((s.team r.tid).barWord half off) ph with
      | .error f => some (.error f)
      | .ok b => some (.ok { wait := .barrier half off ph, holds := b })

def gbarwCond (h : Head) (s : State) (r : SliceRef) : Option (Except FaultInfo Cond) :=
  let x := s.slice r
  let slot := h.b.toNat % 4
  if !x.sliceOn h.gp h.gn then none
  else
    match s.groupPhase r.tid slot with
    | none => some (.error (barrierFault 2))
    | some p => let ph := phaseOf x h.c; some (.ok { wait := .group slot ph, holds := p != ph })

def condOf (f : SliceRef → Option (Except FaultInfo Cond)) (rs : List SliceRef) : List (SliceRef × Option (Except FaultInfo Cond)) :=
  rs.map fun r => (r, f r)

def condWait : Option (Except FaultInfo Cond) → Wait
  | some (.ok c) => c.wait
  | _ => .along

def condHolds : Option (Except FaultInfo Cond) → Bool
  | some (.ok c) => c.holds
  | _ => true

def condFault : Option (Except FaultInfo Cond) → Option FaultInfo
  | some (.error f) => some f
  | _ => none

def setEach : State → List (SliceRef × Wait) → State
  | s, [] => s
  | s, (r, w) :: rs => setEach (s.modSlice r fun x => { x with wait := w }) rs

def acquireEach (sc : Scope) : State → List SliceRef → State
  | s, [] => s
  | s, r :: rs => acquireEach sc (s.acquire r sc) rs

/-- Each slice acquires at the scope of what it waited for. -/
def acquireWide (sc : State → SliceRef → Scope) : State → List SliceRef → State
  | s, [] => s
  | s, r :: rs => acquireWide sc (s.acquire r (sc s r)) rs

/-- The gang waits as a unit until every executing slice's condition holds (R265). -/
def waitBody (i : Instr) (sc : Scope) (f : State → SliceRef → Option (Except FaultInfo Cond)) (s : State) (rs : List SliceRef) : Attempt :=
  if rs.any fun r => !(s.ready (newOp s r i .a sc .seal [] false false none)) then .stall .retry
  else
    let cs := condOf (f s) rs
    let stay := cs.filter fun p => (condFault p.2).isNone
    let traps : List (SliceRef × SliceRes) := cs.filterMap fun p => (condFault p.2).map fun e => (p.1, .trap e none)
    if stay.all fun p => condHolds p.2 then
      .done (acquireEach sc s ((stay.filter fun p => p.2.isSome).map (·.1)))
        (stay.map (fun p => (p.1, SliceRes.go (nextPc i (s.slice p.1).pc))) ++ traps)
    else
      .done (setEach s (stay.map fun p => (p.1, condWait p.2))) (stay.map (fun p => (p.1, SliceRes.go (s.slice p.1).pc)) ++ traps)

/-- The gang stalls as a unit until every executing slice's condition holds; slices that fault trap, and the others stay at the
instruction. -/
def stallBody (i : Instr) (sc : State → SliceRef → Scope) (f : State → SliceRef → Option (Except FaultInfo Cond)) (s : State)
    (rs : List SliceRef) : Attempt :=
  if rs.any fun r => !(s.ready (newOp s r i .a (sc s r) .seal [] false false none)) then .stall .retry
  else
    let cs := condOf (f s) rs
    let stay := cs.filter fun p => (condFault p.2).isNone
    let traps : List (SliceRef × SliceRes) := cs.filterMap fun p => (condFault p.2).map fun e => (p.1, .trap e none)
    if stay.all fun p => condHolds p.2 then
      .done (acquireWide sc s ((stay.filter fun p => p.2.isSome).map (·.1)))
        (stay.map (fun p => (p.1, SliceRes.go (nextPc i (s.slice p.1).pc))) ++ traps)
    else if traps.isEmpty then .stallEach (stay.map fun p => (p.1, condWait p.2))
    else .done s (stay.map (fun p => (p.1, SliceRes.park (condWait p.2))) ++ traps)

def phaseRegs (c : BitVec 8) : List Reg := if 128 ≤ c.toNat then [.s (c.toNat - 128)] else []

/-- BARW (R265): Parks the gang until the phase of the word differs from P. -/
def execXyBarw (h : Head) (w : Mem) (s : State) : Host.Outcome State Fault Refusal :=
  let i : Instr := .xyBarw h w
  issueGang i (memInfo h (baseOffRegs h.a ++ phaseRegs h.c)) (waitBody i .team (barwCond h w)) s

/-- BART of one slice. -/
def bartSlice (i : Instr) (h : Head) (w : Mem) (s : State) (r : SliceRef) : SliceStep :=
  let x := s.slice r
  if !x.sliceOn h.gp h.gn then skipSlice i s r
  else if !(s.ready (newOp s r i .a .team .seal [] false false none)) then .stall .retry
  else
    match barwCond h w s r with
    | some (.error f) => .ok s (.trap f none)
    | some (.ok c) =>
      let s := s.modSlice r fun x => x.setS h.d.toNat (boolWord c.holds)
      .ok (if c.holds then s.acquire r .team else s) (.go (nextPc i x.pc))
    | none => skipSlice i s r

/-- BART (R265): Tests whether a phase is complete, without parking. -/
def execXyBart (h : Head) (w : Mem) (s : State) : Host.Outcome State Fault Refusal :=
  let i : Instr := .xyBart h w
  issueSlices i (memInfo h (baseOffRegs h.a ++ phaseRegs h.c ++ [.s h.d.toNat])) (bartSlice i h w) s

/-! ## Groups (R275) -/

def groupPart (i : Instr) (h : Head) (drop : Bool) (grp : Nat) (s : State) (r : SliceRef) : Option (Except FaultInfo Op) :=
  let slot := h.b.toNat % 4
  if !(s.slice r).sliceOn h.gp h.gn then none
  else
    match s.groupPhase r.tid slot with
    | none => some (.error (barrierFault 2))
    | some _ => some (arrivalOp i (fun _ => .group slot drop) .dev grp s r (.ok (0, 0)))

/-- GBARA (R275): Arrives at a group barrier for the team. -/
def execXyGbara (h : Head) (w : Mem) (s : State) : Host.Outcome State Fault Refusal :=
  let i : Instr := .xyGbara h w
  issueGang i (memInfo h []) (arriveBody i (groupPart i h false)) s

/-- GBARD (R275): Arrives at a group barrier and drops. -/
def execXyGbard (h : Head) (w : Mem) (s : State) : Host.Outcome State Fault Refusal :=
  let i : Instr := .xyGbard h w
  issueGang i (memInfo h []) (arriveBody i (groupPart i h true)) s

/-- GBARW (R275): Parks the gang on a group barrier phase. -/
def execXyGbarw (h : Head) (w : Mem) (s : State) : Host.Outcome State Fault Refusal :=
  let i : Instr := .xyGbarw h w
  issueGang i (memInfo h (phaseRegs h.c)) (waitBody i .dev (gbarwCond h)) s

end Sys2Proof.Machine
end

