-- ==== Sys2Proof/Machine/Queues.lean ====
section
/-! DEFINITION. The class XU: hardware task queues and phase-tagged quiescence (08 R277 to R285). -/

namespace Sys2Proof.Machine

def State.queue (s : State) (q : Nat) : Queue := smGet Queue.reset q s.sync.queues
def State.setQueue (s : State) (q : Nat) (x : Queue) : State :=
  { s with sync := { s.sync with queues := smPut Queue.reset q x s.sync.queues } }

/-- The hard partition of a queue's Sill die. -/
def State.queueHp (s : State) (q : Nat) : Nat := hpOfDie s.dev.plan (q / 1024)

/-- The queue that a slice names, or PERM (R278). -/
def State.queueOf (s : State) (r : SliceRef) (h : Head) (w : Mem) : Except FaultInfo Nat :=
  let q := baseOff (s.slice r) h.a w.off
  let t := s.team r.tid
  if q ≥ 4096 ∨ (s.queue q).valid = false ∨ (s.queue q).ctx ≠ t.ctx ∨ s.queueHp q ≠ t.hp then .error (faultAll causePerm) else .ok q

/-! ## The FIFO (R279 to R282) -/

/-- A spill access failed: ERR, the record, the spilled entries dropped. -/
def State.spillFailed (s : State) (q code va : Nat) : State :=
  let x := s.queue q
  let pa := if code = 3 then s.paOf (s.queueHp q) x.ctx va .read else 0
  let s := (s.countMiss code).setQueue q { x with err := true, scount := 0 }
  s.logError (s.queueHp q) x.ctx (accessRecord 4 5 (min code 3) q va pa 0 s.ns)

def Queue.slotVa (x : Queue) (k : Nat) : Nat := x.spbase.toNat + 16 * (k % 2 ^ x.splog)

/-- The spill ring takes no more (R279). -/
def Queue.spillFull (x : Queue) : Bool := !(0 < x.splog && decide (x.scount < 2 ^ x.splog) && !x.err)

/-- A push of one entry: accepted or not. While ERR is 1 pushes fail (R282). -/
def State.pushOne (s : State) (q : Nat) (e : List Byte) : Bool × State :=
  let x := s.queue q
  if !x.valid || x.err then (false, s)
  else if x.scount = 0 ∧ x.ring.length < 256 then (true, s.setQueue q { x with ring := x.ring ++ [e] })
  else if x.spillFull then (false, s)
  else
    match s.tryWrite (s.queueHp q) x.ctx (x.slotVa (x.shead + x.scount)) e with
    | .ok s => (true, s.setQueue q { x with scount := x.scount + 1 })
    | .error (c, s) => (false, s.spillFailed q c (x.slotVa (x.shead + x.scount)))

/-- Spilled entries move into the on-chip ring, oldest first, while there is room. -/
def State.moveSpill (s : State) (q : Nat) : Nat → State
  | 0 => s
  | k + 1 =>
    let x := s.queue q
    if x.scount = 0 ∨ x.ring.length ≥ 256 ∨ x.err then s
    else
      match s.tryRead (s.queueHp q) x.ctx (x.slotVa x.shead) 16 with
      | .ok (e, s) => State.moveSpill (s.setQueue q { x with ring := x.ring ++ [e], shead := (x.shead + 1) % 2 ^ x.splog, scount := x.scount - 1 }) q k
      | .error (c, s) => s.spillFailed q c (x.slotVa x.shead)

/-- A pop of the oldest entry. -/
def State.popOne (s : State) (q : Nat) : Option (List Byte) × State :=
  let s := if (s.queue q).ring.isEmpty then s.moveSpill q 1 else s
  let x := s.queue q
  if !x.valid then (none, s)
  else
    match x.ring with
    | [] => (none, s)
    | e :: es => (some e, s.setQueue q { x with ring := es })

/-- The two words of QST (R280); 0 once the queue is not VALID (R278). -/
def Queue.stat (x : Queue) : List Word :=
  if !x.valid then [0, 0]
  else
    let full := !(x.scount = 0 ∧ x.ring.length < 256) && x.spillFull
    [BitVec.ofNat 32 (x.ring.length + x.scount), BitVec.ofNat 32 (x.splog + (if x.err then 2 ^ 8 else 0) + (if full then 2 ^ 9 else 0))]

/-! ## Instructions -/

/-- A lane's part of a queue operation: it overlaps nothing. -/
def queueElem (lane : Nat) (data : List Byte) : Elem :=
  { lane := lane, va := 0, pa := 0, key := 0, size := 0, data := data, cmp := [] }

/-- A queue operation of one slice: PERM, or its pending destination and its request. -/
def queueSlice (i : Instr) (h : Head) (w : Mem) (cls : OpClass) (kind : Nat → OpKind) (regs : List Reg)
    (units : Slice → List Nat) (data : Slice → Nat → List Byte) (s : State) (r : SliceRef) : SliceStep :=
  let x := s.slice r
  if (units x).isEmpty then skipSlice i s r
  else
    match s.queueOf r h w with
    | .error f => .ok s (.trap f none)
    | .ok q =>
      if s.squareFull (s.clusterOf r) [] then .stall .retry
      else
        let elems := (units x).map fun j => queueElem j (data x j)
        .ok (s.queueLoad i h.la.toNat regs (newOp s r i cls .dev (kind q) elems false false none)) (.go (nextPc i x.pc))

/-- QPSH (R279): Pushes one 16-byte entry per lane to a hardware queue. -/
def execXuQpsh (h : Head) (w : Mem) (s : State) : Host.Outcome State Fault Refusal :=
  let i : Instr := .xuQpsh h w
  let b := h.b.toNat
  issueSlices i (memInfo h ([.p h.d.toNat] ++ regGroup false 4 b ++ baseOffRegs h.a))
    (queueSlice i h w .r (fun q => .push q h.d.toNat) [.p h.d.toNat] (fun x => x.lanesOn h.gp h.gn)
      (fun x j => bytesOfNat 16 (x.value .b128 false b j))) s

/-- QPOP (R280): Pops one entry per lane from a hardware queue. -/
def execXuQpop (h : Head) (w : Mem) (s : State) : Host.Outcome State Fault Refusal :=
  let i : Instr := .xuQpop h w
  let d := h.d.toNat
  let regs := regGroup false 4 d ++ [.p h.c.toNat]
  issueSlices i (memInfo h (regs ++ baseOffRegs h.a))
    (queueSlice i h w .a (fun q => .pop q d h.c.toNat) regs (fun x => x.lanesOn h.gp h.gn) (fun _ _ => [])) s

/-- QST (R280): Reads a queue's counts and status. -/
def execXuQst (h : Head) (w : Mem) (s : State) : Host.Outcome State Fault Refusal :=
  let i : Instr := .xuQst h w
  let d := h.d.toNat
  let regs := regGroup true 2 d
  issueSlices i (memInfo h (regs ++ baseOffRegs h.a))
    (queueSlice i h w .l (fun q => .stat q d) regs (fun x => if x.sliceOn h.gp h.gn then [0] else []) (fun _ _ => [])) s

/-- PHSW (R284): Flips the slice's current phase tag. -/
def execXuPhsw (h : Head) (w : Mem) (s : State) : Host.Outcome State Fault Refusal :=
  issueScalar (.xuPhsw h w) (memInfo h []) (fun x => { x with tag := !x.tag }) s

/-! ## Sources of tagged traffic (R283, R285) -/

/-- Operations that do not count for a quiet wait. -/
def OpKind.unseen : OpKind → Bool
  | .fence _ => true
  | .seal => true
  | .chkr => true
  | .icinv => true
  | .barrier _ _ _ _ _ => true
  | .group _ _ => true
  | .teamEnd => true
  | _ => false

/-- An operation counts until it has performed at dev scope, at sys for host and peer lines, and its response has returned. -/
def Op.counts (o : Op) : Bool := !o.kind.unseen && !(o.performed && !o.kind.endsItself && o.ackedAt (if o.host then .sys else .dev))

/-- The source of a copy: the cluster that issued it, or its engine for a packet. -/
def State.copySource (s : State) (c : Copy) : Nat := if c.eid.isSome then 200 + c.engine else s.clusterOf c.ref

/-- The sources of a hard partition with outstanding operations of a context and tag: a cluster by its number, 200 + a copy engine,
300 + a half of the collective engine, 310 + a migration engine, and at sys scope 400 for the Limop messages sent, 401 for those
received. -/
def State.busySources (s : State) (hp ctx : Nat) (sc : Scope) (tag : Bool) : List Nat :=
  let mine := fun (r : SliceRef) => (s.team r.tid).hp == hp && (s.team r.tid).ctx == ctx
  let ops := s.mem.ops.filter fun (o : Op) => mine o.ref && o.tag == tag && o.counts
  let copies := s.copy.copies.filter fun (c : Copy) => c.hp == hp && c.ctx == ctx && c.tag == tag
  let teams := s.teams.filter fun (p : Nat × Team) => p.2.hp == hp && p.2.ctx == ctx
  let tiles := fun (q : List TileCmd) (cl : Nat) => if q.any fun (c : TileCmd) => c.tag == tag then [cl] else []
  let scrubs := s.copy.scrubs.filter fun (x : Scrub) => x.hp == hp && x.ctx == ctx && x.tag == tag
  let migs := s.mem.migs.filter fun (m : Migration) => m.hp == hp && m.ctx == ctx && m.tag == tag
  let colls := s.coll.ops.filter fun (o : CollOp) => o.hp == hp && o.ctx == ctx && o.tag == tag
  let sent := (s.fab.reqs ++ s.fab.waiting).any fun (q : Req) => q.hp == hp && q.ctx == ctx && q.m.ptag == tag
  let come := (s.fab.inbox ++ s.fab.held.map (·.m)).any fun (m : Msg) =>
    m.ptag == tag && m.rctx.toNat == ctx && m.dpeer.toNat == (smGet HpFab.reset hp s.fab.hps).peer
  (ops.map (fun (o : Op) => s.clusterOf o.ref) ++ copies.map s.copySource
    ++ teams.flatMap (fun (p : Nat × Team) => tiles p.2.tileQ p.2.cluster ++ tiles p.2.tileQ1 p.2.cluster1)
    ++ scrubs.map (fun (x : Scrub) => 200 + x.engine) ++ migs.map (fun (m : Migration) => 310 + m.die)
    ++ colls.map (fun (o : CollOp) => if o.eid.isNone then s.clusterOf o.ref else 300 + o.half)
    ++ (if sc = Scope.sys ∧ sent then [400] else []) ++ (if sc = Scope.sys ∧ come then [401] else [])).eraseDups

/-- The wait of a slice at a QUIET. A source whose count is zero as the QUIET begins has reported (DESIGN CHOICE, log entry 113). -/
def State.quietWait (s : State) (r : SliceRef) (sc : Scope) (tag : Bool) : Wait :=
  .quiet sc tag (s.busySources (s.team r.tid).hp (s.team r.tid).ctx sc tag)

/-- QUIET: the gang waits as a unit; a slice whose guard fails waits along. -/
def quietBody (i : Instr) (h : Head) (w : Mem) (s : State) (rs : List SliceRef) : Attempt :=
  let on := rs.filter fun r => (s.slice r).sliceOn h.gp h.gn
  if on.isEmpty then .done s (allGo i s rs)
  else
    let waits := rs.map fun r =>
      (r, if on.contains r then s.quietWait r w.scope (phaseOf (s.slice r) h.c) else .along)
    .done (setEach s waits) (allGo i s rs)

/-- QUIET (R285): Waits until the traffic of one phase tag has drained. -/
def execXuQuiet (h : Head) (w : Mem) (s : State) : Host.Outcome State Fault Refusal :=
  let i : Instr := .xuQuiet h w
  issueGang i (memInfo h (phaseRegs h.c)) (quietBody i h w) s

end Sys2Proof.Machine
end

