-- ==== Sys2Proof/Machine/OrderEvents.lean ====
section
/-! DEFINITION. Steps of the Squares and the Scribes: acknowledgements, releases, seals, containment, windows,
fences, checker registers and shoot-downs (07 R222 to R254). -/

namespace Sys2Proof.Machine

/-! ## Violations (R234, R238 to R245) -/

def classCode (c : OpClass) : Nat :=
  match c with
  | .l => 0 | .s => 1 | .m => 2 | .a => 3 | .r => 4 | .x => 5 | .q => 6 | .none => 7

/-- CHKCNT v counts (R245). -/
def State.countViol (s : State) (hp viol : Nat) : State :=
  let c := s.check hp
  let n := (smGet 0 viol c.chkcnt).toNat
  s.setCheck hp { c with chkcnt := smPut 0 viol (BitVec.ofNat 64 (min (n + 1) (2 ^ 64 - 1))) c.chkcnt }

/-- What a containment record says of its release (R240). -/
structure Affected where
  scope : Nat
  source : Nat
  lclass : OpClass
  line : Option (Nat × Nat)
  interval : Nat
  team : Nat
  bent : Nat
  sl : Nat
  half : Nat
  cluster : Nat
  pc : Nat

/-- Fields as (value, lowest bit), summed. -/
def packFields (fs : List (Nat × Nat)) : Nat := (fs.map fun p => p.1 * 2 ^ p.2).sum

/-- What a record says of an operation. -/
def Op.offender (o : Op) : Offender :=
  let at_ := match o.elems with | e :: _ => if isScratch e then none else some (lineOf e.pa) | [] => none
  { id := o.id, cls := o.cls, pa := match at_ with | some l => l * 128 | none => 0,
    interval := if o.performed then (match at_ with | some l => (o.interval l).toNat | none => 0) else 0, done := o.performed }

def containRecord (a : Affected) (viol : Nat) (chk : ScribeId) (off : Option Offender) (obs : Bool) (time : Nat) : List Byte :=
  let f := off.getD { id := 0, cls := .none, pa := 0, interval := 0, done := false }
  bytesOfNat 64 (packFields [(9, 0), (a.scope, 8), (chk.kind, 10), (a.source, 13), (viol, 16),
    (classCode f.cls, 20), (classCode a.lclass, 24), (bitVal a.line.isSome, 27), (bitVal obs, 28), (a.interval, 32), (chk.inst, 48),
    ((a.line.getD (0, 0)).1, 64), ((a.line.getD (0, 0)).2, 128), (f.pa, 192), (a.team, 256), (a.bent, 288), (a.sl, 296),
    (a.half, 299), (a.cluster, 304), (a.pc, 320), (f.interval, 384), (bitVal f.done, 400), (time, 448)])

/-- A release, as the record names it. -/
def State.affected (s : State) (o : Op) (source : Nat) : Affected :=
  let t := s.team o.ref.tid
  { scope := o.scope.rank, source := source, lclass := o.cls,
    line := match o.elems with | e :: _ => some (e.va.toNat / 128 * 128, if isScratch e then 0 else lineOf e.pa * 128) | [] => none,
    interval := match o.elems with | e :: _ => if isScratch e then 0 else (s.line (lineOf e.pa)).interval.toNat | [] => 0,
    team := t.linear, bent := o.ref.bent, sl := o.ref.sl, half := t.halfOf o.ref.bent, cluster := s.clusterOf o.ref, pc := o.pc.toNat }

/-- The release that a violation of an operation affects (R238): the first one of its slice that is pending behind it. Where none
is, a record in OBSERVE mode names the operation itself, with LCLASS 7 (DESIGN CHOICE, log entry 112). -/
def State.affectedBy (s : State) (o : Op) : Affected :=
  match s.mem.ops.find? fun p => p.ref == o.ref && decide (o.id < p.id) && p.cls.trails && !p.performed with
  | some p => s.affected p 0
  | none => { s.affected o 0 with lclass := .none }

/-- A record in OBSERVE mode: at most one per µs per checker (R240). -/
def State.observe (s : State) (hp ctx : Nat) (a : Affected) (viol : Nat) (chk : ScribeId) (off : Option Offender) : State :=
  let c := s.check hp
  let key := chk.kind * 1024 + chk.inst
  let us := s.ns / 1000
  if smGet 0 key c.obsAt = us + 1 then s
  else (s.setCheck hp { c with obsAt := smPut 0 key (us + 1) c.obsAt }).logError hp ctx (containRecord a viol chk off true s.ns)

/-- The Square of a cluster, as a checker. -/
def squareOf (cl : Nat) : ScribeId := { kind := 0, inst := cl }

/-- Requests of cancelled operations are not sent (R238); one that other operations share is (log entry 119). -/
def State.dropParts (s : State) (gone : List Nat) : State :=
  let trim := fun (q : Req) => { q with parts := q.parts.filter fun p => !(gone.contains p.op) }
  { s with fab := { s.fab with waiting := (s.fab.waiting.map trim).filter fun q => !q.parts.isEmpty } }

/-- The cancelled releases of a slice: this one and every later one, with what they would send; what an injection held may drain. -/
def State.cancelFrom (s : State) (o : Op) : State :=
  let out := s.mem.ops.filter fun p => p.ref == o.ref && decide (o.id ≤ p.id) && (p.cls.trails || p.id == o.id)
  let gone := out.map (·.id)
  let s := (out.foldl State.takeSeq s).dropParts gone
  let cl := s.clusterOf o.ref
  let s := s.setL1 cl { s.l1 cl with wbuf := (s.l1 cl).wbuf.map fun e => { e with heldBy := match e.heldBy with | some id => if gone.contains id then none else some id | none => none } }
  { s with mem := { s.mem with ops := s.mem.ops.filter fun p => !(gone.contains p.id) } }

/-- A slice is tainted; the first release ordered after contains it (R234). The first taint stands, but for an older operation that
performed before the same acquire (R241). -/
def State.taint (s : State) (r : SliceRef) (v : Taint) : State :=
  s.modSlice r fun x =>
    match x.taint with
    | none => { x with taint := some v }
    | some w =>
      match w.off, v.off with
      | some a, some b => if w.viol = 2 ∧ v.viol = 2 ∧ b.id < a.id then { x with taint := some v } else x
      | _, _ => x

/-- CONTAIN on a slice: the record, the cancelled releases, the fatal trap (R238, R239). `source` is 4 for a team's end. A release
of a slice that has exited is cancelled, and the team's end is contained. -/
def State.contain (s : State) (o : Op) (source viol : Nat) (chk : ScribeId) (off : Option Offender) : State :=
  let x := s.slice o.ref
  if x.exited && source != 4 then (s.cancelFrom o).taint o.ref { viol := viol, checker := chk, off := off }
  else
    let t := s.team o.ref.tid
    let s := s.logError t.hp t.ctx (containRecord (s.affected o source) viol chk off false s.ns)
    let gm := if x.tmode then 1#8 <<< o.ref.sl else s.gangMask o.ref
    ((s.cancelFrom o).leaveGang o.ref).raiseTrap o.ref
      { info := { cause := causeContain, sub := viol, lanes := 15, addr := 0 }, tpc := x.pc, tfpc := o.pc, inst := o.inst, gmask := gm }

/-- The taint that contains a release: of an operation before it (R234). -/
def State.taintOf (s : State) (o : Op) : Option Taint :=
  match (s.slice o.ref).taint with
  | some v => if (match v.off with | some f => decide (f.id < o.id) | none => true) then some v else none
  | none => none

/-- A violation that the Square finds, with its offending operation: counted; in ENFORCE the slice is tainted, in OBSERVE it is
recorded (R228, R229, R244). -/
def State.squareViolation (s : State) (o : Op) (viol : Nat) : State :=
  let t := s.team o.ref.tid
  let chk := squareOf (s.clusterOf o.ref)
  let s := s.countViol t.hp viol
  if (s.check t.hp).sqobs then s.observe t.hp t.ctx (s.affectedBy o) viol chk (some o.offender)
  else s.taint o.ref { viol := viol, checker := chk, off := some o.offender }

/-! ## Acknowledgements (R225, R228, R229) -/

/-- An earlier operation of the slice that has not been acknowledged and that this one must follow. -/
def State.overtakes (s : State) (o : Op) (test : Op → Bool) : Bool :=
  s.mem.ops.any fun e => e.ref == o.ref && decide (e.id < o.id) && e.acked.isNone && test e

/-- Interval a is before interval b (R230). -/
def intervalBefore (a b : Half) : Bool := decide ((a - b).toNat ≥ 2 ^ 15)

/-- The oldest operation of the slice behind an acquire that is not acknowledged, among those that have performed before it. -/
def State.earlyOp (s : State) (o : Op) : Op :=
  match s.mem.ops.find? fun e => e.ref == o.ref && decide (e.id < o.id) && e.acked.isNone && e.cls.leads with
  | none => o
  | some e => (s.mem.ops.find? fun p => p.ref == o.ref && decide (e.id < p.id) && p.acked.isSome).getD o

/-- The parts of an operation that lie in a line. -/
def Op.onLine (o : Op) (line : Nat) : List Elem := o.elems.filter fun e => lineOf e.pa == line

/-- A load was served from an L1 sector older than its slice's acquire, or from a copy that a Scribe has marked not current
(R228). -/
def State.staleLoad (s : State) (o : Op) (a : PerformAck) : Bool :=
  o.kind.isLoad
    && ((match a.epoch with | some e => decide (e < o.need) | none => false) || s.mem.notCurrent.contains (a.line, dieOfCluster (s.clusterOf o.ref)))

/-- The violation that an acknowledgement of a line shows, if any, with the offending operation. -/
def State.ackViolation (s : State) (o : Op) (a : PerformAck) : Option (Nat × Op) :=
  let mine := o.onLine a.line
  if s.overtakes o fun e => e.cls.leads then some (2, s.earlyOp o)
  else if s.staleLoad o a then some (3, o)
  else if s.overtakes o fun e => elemsOverlap e.elems mine && !(buffered e o) then some (4, o)
  else if s.mem.ops.any fun e => e.ref == o.ref && decide (e.id < o.id) && e.acked.isSome && elemsOverlap e.elems mine
      && intervalBefore a.interval (e.interval a.line) then some (4, o)
  else none

/-- The scope that an operation has reached on a line: the write buffer's, that of a transfer still unchecked, or the widest of
its unit (R210, R211, R232). -/
def State.reached (s : State) (o : Op) (line : Nat) : Option Scope :=
  if o.performed then
    some (if s.mem.xfers.any fun x => x.line == line && x.client == .op o.id then .team else if o.host then .sys else .dev)
  else if (s.l1 (s.clusterOf o.ref)).wbuf.any (fun e => e.op == o.id) && !(s.team o.ref.tid).desc.pair then some .team
  else none

/-- The scope acknowledged for every line. -/
def Op.allAcked (o : Op) : Option Scope :=
  (opLines o.elems).foldl (fun m l => match m, smFind l o.acks with | some a, some b => some (Scope.narrower a b) | _, _ => none) (some .sys)

/-- An acknowledgement of a line is recorded. -/
def Op.acknowledge (o : Op) (a : PerformAck) (sc : Scope) : Op :=
  let sc := match smFind a.line o.acks with | some b => Scope.wider sc b | none => sc
  let o := { o with acks := smSet a.line sc o.acks, ints := smPut 0 a.line a.interval o.ints }
  { o with acked := if o.elems.isEmpty then some sc else o.allAcked }

/-- The host completes a load or an atomic (06 R191). -/
def State.hostCompletion (s : State) (o : Op) (err : Bool) : State :=
  match o.kind with
  | .load t sc d => if s.unitReady o false then s.orPublish o fun s => s.performLoad o t sc d err else s
  | .dec t d lanes => if s.unitReady o false then s.orPublish o fun s => s.performDec o t d lanes err else s
  | .atomic aop t d => if s.unitReady o true then s.orPublish o fun s => s.performAtomic o aop t d err else s
  | _ => s

/-- PERFORM_ACK (R225): A perform acknowledgement tagged with its scope reaches the Square. None comes before the operation has
reached its perform point; that of a host access is its completion. -/
def execEvPerformAck (op : Nat) (a : PerformAck) (s : State) : Host.Outcome State Fault Refusal :=
  match s.op? op with
  | none => .next s
  | some o =>
    if o.failed || o.cls == .none || o.kind.actsLater || !(o.elems.isEmpty || (opLines o.elems).contains a.line) then .next s
    else
      match s.reached o a.line with
      | none => .next (if o.host then s.hostCompletion o a.err else s)
      | some lim =>
        let s := match s.ackViolation o a with | some (v, p) => s.squareViolation p v | none => s
        .next (s.setOp (o.acknowledge a (Scope.narrower a.scope lim))).retire

/-! ## Releases (R226, R227, R235) -/

/-- A release at team scope stays in the write buffer, unless the team is a pair (R210, R222). -/
def State.staysBuffered (s : State) (o : Op) : Bool :=
  o.scope == .team && !(s.team o.ref.tid).desc.pair && !o.msa && !o.host && o.kind == .store && !(o.elems.any isScratch)

/-- A release takes the lines it will write into its die's L2: its interval begins (R226). -/
def State.takeLines (s : State) (o : Op) : List Elem → State
  | [] => s
  | e :: es =>
    State.takeLines (if isScratch e then s else s.ownL2 (dieOfCluster (s.clusterOf o.ref)) e.pa e.size e.key (.op o.id)) o es

/-- A store or an atomic performs in an L2. -/
def State.inL2 (s : State) (o : Op) : Bool :=
  !o.msa && !o.host && !(s.staysBuffered o) && (o.kind == .store || (match o.kind with | .atomic _ _ _ => true | _ => false))

/-- The write buffer must be empty before the release is dispatched (R213); an injected one does not wait (R246). -/
def State.mustDrain (s : State) (o : Op) : Bool :=
  (s.owed o).isEmpty && (o.scope != .team || (s.team o.ref.tid).desc.pair) && !o.injected

/-- RELEASE_ARRIVAL (R226): A dispatched release arrives at its perform point and is held pending-seal. The
operations that lack their acknowledgement are noted for the Square; an acquire too waits for the publishes it forces (R223). -/
def execEvReleaseArrival (op : Nat) (s : State) : Host.Outcome State Fault Refusal :=
  match s.op? op with
  | none => .next s
  | some o =>
    if o.arrived || o.performed || !(o.cls == .r || o.cls == .x) then .next s
    else
      let lack := s.owed o
      let must := s.mustDrain o
      let s := if must then s.drain (s.clusterOf o.ref) else s
      let hs := if o.cls == .x then s.outsideHolders o.ref o.elems else []
      if must && !(s.l1 (s.clusterOf o.ref)).wbuf.isEmpty then .next s
      else if s.anyHeld o.id o.elems || s.anyRouteHeld (s.clusterOf o.ref) true o.elems then .next s
      else if !hs.isEmpty then .next (s.askPublish hs)
      else
        let s := if s.inL2 o then s.takeLines o (s.routed (s.clusterOf o.ref) o.elems) else s
        .next (s.setOp { o with arrived := true, lacking := lack })

/-- The release becomes visible. -/
def State.sealed (s : State) (o : Op) : State :=
  match o.kind with
  | .store =>
    if s.staysBuffered o then
      let s := s.buffer (s.clusterOf o.ref) o.id o.elems
      (s.narrowed o).setOp (s.bufferedOp { o with arrived := false })
    else (s.narrowed o).performStore o
  | .atomic aop t d => (s.narrowed o).performAtomic o aop t d
  | .fence _ => ((s.narrowed o).finishOp o).acquireOp o
  | .remote _ _ _ _ => (s.narrowed o).setOp { o with clear := true }
  | k => if k.actsLater then (s.narrowed o).setOp { o with performed := true } else s

/-- Deferred windows keep a sys-scope release (R235): all that are open, those of the lines that its operations touched among them
(DESIGN CHOICE, log entry 111). -/
def State.windowsHold (s : State) (sc : Scope) : Bool := sc == .sys && !(s.openWindows none).isEmpty

/-- The oldest operation that a release lacked. -/
def State.offender (s : State) (ids : List Nat) : Option Offender := (s.mem.ops.find? fun o => ids.contains o.id).map Op.offender

/-- SQUARE_SEAL (R227): The Square seals a release once its obligations are acknowledged, or contains it. -/
def execEvSquareSeal (op : Nat) (s : State) : Host.Outcome State Fault Refusal :=
  match s.op? op with
  | none => .next s
  | some o =>
    if !o.arrived || o.performed then .next s
    else
      let t := s.team o.ref.tid
      let chk := squareOf (s.clusterOf o.ref)
      match s.taintOf o with
      | some v => .next (s.contain o 0 v.viol v.checker v.off)
      | none =>
        if !o.lacking.isEmpty && !(s.check t.hp).sqobs then
          .next ((s.countViol t.hp 1).contain o 0 1 chk (s.offender o.lacking))
        else
          let s := if o.lacking.isEmpty then s
            else ((s.countViol t.hp 1).observe t.hp t.ctx (s.affected o 0) 1 chk (s.offender o.lacking)).setOp { o with lacking := [] }
          let o := { o with lacking := [] }
          if !(s.owed o).isEmpty || s.windowsHold o.scope then .next s else .next (s.sealed o)

/-! ## Fences, SEAL, CHKR, ICINV (R248 to R250, 06 R197) -/

def Slice.endOp (id : Nat) (x : Slice) : Slice := if x.wait = .op id then { x with wait := .none } else x

/-- The operation that holds a slice ends. -/
def State.release (s : State) (o : Op) : State := (s.finishOp o).modSlice o.ref (Slice.endOp o.id)

/-- What a drain marker awaits: the cluster's earlier messages (R248). At team scope that is the write buffer, and for a pair team
the die's L2 as well. -/
def State.pathDrained (s : State) (o : Op) : Bool :=
  let cl := s.clusterOf o.ref
  !((s.l1 cl).wbuf.any fun e => decide (e.op < o.id))
    && ((o.scope == .team && !(s.team o.ref.tid).desc.pair) || s.mem.ops.all fun e => !(s.clusterOf e.ref == cl && decide (e.id < o.id) && e.cls != .none && !(e.kind == .fence 0)) || e.performed)

/-- FENCE_SC_COMPLETE (R248): An sc fence completes when every drain marker is acknowledged and it is sealed. -/
def execEvFenceScComplete (op : Nat) (s : State) : Host.Outcome State Fault Refusal :=
  match s.op? op with
  | none => .next s
  | some o =>
    if o.kind != .fence 0 then .next s
    else
      match s.taintOf o with
      | some v => .next (s.contain o 0 v.viol v.checker v.off)
      | none =>
        if (s.owed o).isEmpty && s.pathDrained o && !(s.windowsHold o.scope) then .next ((s.release o).acquireOp o)
        else .next s

/-- Every earlier operation of the slice is performed at a scope, and every release of it sealed. -/
def State.allDone (s : State) (o : Op) : Bool := (s.earlier o).all fun e => e.ackedAt o.scope && (!e.cls.trails || e.performed)

/-- SEAL_COMPLETE (R249): SEAL completes when its conditions hold, letting the next instruction issue. A tainted
slice is contained on its pending release, or on SEAL itself. -/
def execEvSealComplete (op : Nat) (s : State) : Host.Outcome State Fault Refusal :=
  match s.op? op with
  | none => .next s
  | some o =>
    if o.kind != .seal then .next s
    else
      match s.taintOf o with
      | some v =>
        let target := ((s.earlier o).find? fun e => e.cls.trails && !e.performed && (s.taintOf e).isSome).getD o
        .next (s.contain target 0 v.viol v.checker v.off)
      | none => if s.allDone o && o.lacking.isEmpty then .next ((s.release o).acquire o.ref o.scope) else .next s

/-- The earlier stores, SCT elements and atomics of the slice to the line of a CHKR. -/
def State.chkrOwed (s : State) (o : Op) : Bool :=
  (s.earlier o).any fun e => elemsOverlap e.elems o.elems && !e.kind.isLoad && e.kind.gatherOf.isNone && !(e.ackedAt .dev)

/-- The home fetches the line of a CHKR with a hashed transfer (R250). -/
def State.chkrFetch (s : State) (o : Op) : State :=
  match o.elems with
  | e :: _ =>
    let h := (s.region (s.team o.ref.tid).hp e.pa).home
    s.addXfer { line := lineOf e.pa, unit := 8 + h, interval := (s.line (lineOf e.pa)).interval, write := false, client := .op o.id }
  | [] => s

/-- CHKR_COMPLETE (R250): CHKR completes after the line's transfer is checked and windows exchanged. It goes on by one of its
steps: the fetch of the line once the slice's stores to it are performed; the close requests once the transfer has been
checked; its end. -/
def execEvChkrComplete (op : Nat) (s : State) : Host.Outcome State Fault Refusal :=
  match s.op? op with
  | none => .next s
  | some o =>
    if o.kind != .chkr then .next s
    else if o.host then .next (s.release o)
    else if !o.arrived then .next (if s.chkrOwed o || s.anyHeld o.id o.elems then s else (s.chkrFetch o).setOp { o with arrived := true, performed := true })
    else if s.mem.xfers.any fun x => x.client == .op o.id then .next s
    else if !o.clear then .next (s.setOp { o with clear := true, lacking := s.openWindows (some (opLines o.elems)) })
    else .next (if o.lacking.isEmpty then s.release o else s)

/-- Clusters whose instruction caches an ICINV names (06 R197). -/
def State.icinvClusters (s : State) (o : Op) : List Nat :=
  let t := s.team o.ref.tid
  let cl := s.clusterOf o.ref
  match o.scope with
  | .team => if t.desc.pair then [t.cluster, t.cluster1] else [cl]
  | .die => (List.range Config.clustersPerDie).map fun k => dieOfCluster cl * Config.clustersPerDie + k
  | _ => (List.range Config.clusters).filter fun c => s.hpOfCluster c == t.hp

def dropIcache (line : Nat) : State → List Nat → State
  | s, [] => s
  | s, c :: cs => dropIcache line (s.setL1 c { s.l1 c with icache := smDel line (s.l1 c).icache }) cs

/-- ICINV_COMPLETE (06 R197): ICINV completes when every named instruction cache acknowledges. -/
def execEvIcinvComplete (op : Nat) (s : State) : Host.Outcome State Fault Refusal :=
  match s.op? op with
  | none => .next s
  | some o =>
    if o.kind != .icinv then .next s
    else
      let sc := Scope.wider .die o.scope
      if (s.earlier o).all fun e => e.cls == .l || e.ackedAt sc then
        let s' := match o.elems with
          | e :: _ => dropIcache (lineOf e.pa) s (s.icinvClusters o)
          | [] => s
        .next (s'.release o)
      else .next s

/-! ## Scribes (R231 to R234) -/

/-- The far homes' Scribes observe only while every hard partition does (R243). -/
def State.scribeObserves (s : State) (hp : Nat) (u : ScribeId) : Bool :=
  if u.kind = 5 then (List.range 4).all fun h => planDies s.dev.plan h == 0 || (s.check h).scobs else (s.check hp).scobs

/-- The Scribe of an L2, by the line's slice, and of a home. -/
def l2Scribe (die line : Nat) : ScribeId := { kind := 1, inst := 24 * die + (Config.l2Slice line).val }
def homeScribe (h line : Nat) : ScribeId :=
  if h < 4 then { kind := 2, inst := 32 * h + (Config.homeSlice line).val } else { kind := 5, inst := h - 4 }

/-- The home Scribe of a line. -/
def State.homeScribe (s : State) (hp line : Nat) : ScribeId := Machine.homeScribe (s.region hp (line * 128)).home line

/-- The Scribe of a unit, as `Xfer.unit` numbers them, and the unit of a Scribe. -/
def unitScribe (unit line : Nat) : ScribeId :=
  if unit < 8 then l2Scribe unit line else if unit < 16 then Machine.homeScribe (unit - 8) line else { kind := 4, inst := unit - 16 }
def unitOf (u : ScribeId) : Nat :=
  match u.kind with
  | 1 => u.inst / 24
  | 2 => 8 + u.inst / 32
  | 5 => 12 + u.inst
  | 4 => 16 + u.inst
  | _ => 32 + u.inst

/-- The unit's key in the last known intervals. -/
def knownKey (line unit : Nat) : Nat := line * 2 ^ 8 + unit

/-- The grant's interval is before the last that the unit knows. -/
def State.oldGrant (s : State) (t : Transfer) (unit : Nat) : Bool :=
  match smFind (knownKey t.line unit) s.mem.known with | some k => intervalBefore t.interval k | none => false

/-- A store commits to a copy that an invalidation has taken: its line, held pending-seal, is no longer in the L2. -/
def State.lostCopy (s : State) (t : Transfer) (unit : Nat) : Bool :=
  match t.client with
  | .op id =>
    match s.op? id with
    | some o => t.intoWrite && decide (unit < 8) && o.arrived && !o.performed && !(s.holds t.line unit Coh.alone)
    | none => false
  | _ => false

/-- The receipt of an engine's write names another interval than the home opened for it (R236). -/
def wrongReceipt (t : Transfer) (unit : Nat) (sent : Option Xfer) : Bool :=
  match t.client, sent with
  | .copy _, some x => decide (8 ≤ unit) && x.interval != t.interval
  | .mig _, some x => decide (8 ≤ unit) && x.interval != t.interval
  | _, _ => false

/-- The violation that a transfer shows (R232, R236). Two writers, a writer with readers, and a write grant while a copy's
invalidation is still awaited all stand in the directory as a line that one L2 may write and another holds. -/
def State.transferViolation (s : State) (t : Transfer) (unit : Nat) (sent : Option Xfer) : Option Nat :=
  if t.hash ≠ lineHash (t.line * 128) t.interval t.data then some 5
  else if s.oldGrant t unit || s.lostCopy t unit || !(s.directory t.line).coherent then some 6
  else if wrongReceipt t unit sent then some 9
  else none

def addRec (ns : Nat) (home peer : ScribeId) (hr pr : WinRec) : List ScribeWin → List ScribeWin
  | [] => [{ home := home, peer := peer, since := ns, homeRecs := [hr], peerRecs := [pr], bad := [] }]
  | w :: ws =>
    if w.home = home ∧ w.peer = peer then
      { w with since := if w.homeRecs.isEmpty then ns else w.since, homeRecs := w.homeRecs ++ [hr], peerRecs := w.peerRecs ++ [pr] } :: ws
    else w :: addRec ns home peer hr pr ws

/-- The slice whose operation waits on a transfer. -/
def State.causeRef (s : State) (c : Client) : Option SliceRef :=
  match c with
  | .op id => (s.op? id).map (·.ref)
  | _ => none

/-- A checked transfer is noted, and a grant at both ends of its window: the home as it sent it, the receiver as it came. -/
def State.noteTransfer (s : State) (t : Transfer) (unit : Nat) (sent : Option Xfer) : State :=
  let c := s.causeRef t.client
  let hr : WinRec := { line := t.line, interval := match sent with | some x => x.interval | none => (s.line t.line).interval,
                       write := t.intoWrite, holder := unit, cause := c }
  let pr : WinRec := { hr with interval := t.interval }
  let s := { s with mem := { s.mem with known := smSet (knownKey t.line unit) t.interval s.mem.known,
                                        notCurrent := s.mem.notCurrent.filter (· != (t.line, unit)) } }
  if unit < 8 then { s with mem := { s.mem with windows := addRec s.ns (s.homeScribe t.hp t.line) t.unit hr pr s.mem.windows } } else s

/-! ### What a violation does (R234, R236, R242) -/

/-- The key slots under which a line is held or accessed. -/
def State.keysOfLine (s : State) (line : Nat) : List Nat :=
  (s.mem.l2.flatMap fun p => (p.2.filter fun x => x.line == line).map (·.key))
    ++ (s.mem.sill.flatMap fun p => (p.2.filter fun x => x.line == line).map (·.key))
    ++ s.mem.ops.flatMap fun o => (o.elems.filter fun e => lineOf e.pa == line).map (·.key)

/-- A HASH violation is reported to Glomel in either mode: counted, and its policy applied where the line belongs to a region
bound to a trusted device interface in RUN (R242). -/
def State.reportHash (s : State) (line : Nat) : State :=
  let s := s.bumpErr 14
  let ks := (s.keysOfLine line).eraseDups
  if ks.any s.boundInRun then s.alarm { cause := .hash, slots := ks } else s

/-- An operation is left unacknowledged: its slice is tainted, a CHKR contained at once. -/
def State.failOp (s : State) (viol : Nat) (chk : ScribeId) (id : Nat) : State :=
  match s.op? id with
  | none => s
  | some o =>
    if o.kind = .chkr then s.contain o 0 viol chk none
    else (s.setOp { o with failed := o.failed || o.acked.isNone }).taint o.ref { viol := viol, checker := chk, off := some o.offender }

def failAll (viol : Nat) (chk : ScribeId) : State → List Nat → State
  | s, [] => s
  | s, id :: ids => failAll viol chk (s.failOp viol chk id) ids

def State.poisonLine (s : State) (line : Nat) : State := { s with mem := { s.mem with poison := Machine.poisonLine s.mem.poison line } }

/-- The operations that wait on a transfer of a line to a unit, oldest first: the one that it was made for, and those that the same
L2 has performed on the line without an acknowledgement past the cluster. -/
def State.waitingOn (s : State) (line unit : Nat) (c : Client) : List Nat :=
  (s.mem.ops.filter fun o => c == .op o.id || (decide (unit < 8) && dieOfCluster (s.clusterOf o.ref) == unit && o.performed && !o.failed
      && o.elems.any (fun e => lineOf e.pa == line) && !(o.ackedAt .die))).map (·.id)

/-- The slice whose TSTO a number names. -/
def State.tstoRef (s : State) (id : Nat) : Option SliceRef :=
  s.teams.findSome? fun p => ((p.2.tileQ ++ p.2.tileQ1).find? fun c => c.id == id).map (·.ref)

/-- What waits on a failed transfer learns of it. The store of a TSTO taints the slice that issued it (DEDUCED, log entry 116). -/
def State.failClient (s : State) (viol line unit : Nat) (chk : ScribeId) (c : Client) : State :=
  let s := failAll viol chk s (s.waitingOn line unit c)
  match c with
  | .copy cid =>
    let s := match s.tstoRef cid with | some r => s.taint r { viol := viol, checker := chk, off := none } | none => s
    { s with copy := { s.copy with copies := s.copy.copies.map fun x => if x.cid = cid then { x with lost := some (x.lost.getD (viol, line)) } else x } }
  | .mig mid => { s with mem := { s.mem with migs := s.mem.migs.map fun m => if m.mid = mid then { m with lost := some (m.lost.getD viol) } else m } }
  | _ => s

/-- A failed transfer: its data are discarded, the line's sectors poisoned at the receiver and the home. -/
def State.failTransfer (s : State) (viol : Nat) (t : Transfer) (unit : Nat) : State :=
  (if unit < 8 then s.invalL2 t.line [unit] else s).poisonLine t.line |>.failClient viol t.line unit t.unit t.client

/-- A transfer that an observing Scribe passes: recorded; a copy whose interval is not current is marked (R228, R244). -/
def State.passTransfer (s : State) (viol : Nat) (t : Transfer) (unit : Nat) : State :=
  let old := s.oldGrant t unit
  let s := match (s.waitingOn t.line unit t.client).head?.bind s.op? with
    | some o => s.observe t.hp (s.team o.ref.tid).ctx (s.affectedBy o) viol t.unit (some o.offender)
    | none => s
  if old then { s with mem := { s.mem with notCurrent := (t.line, unit) :: s.mem.notCurrent } } else s

/-- Sectors in which the sender found an error: those not corrected are poisoned, and both are counted (06 R188, 14 R438). -/
def State.senderErrors (s : State) (t : Transfer) : State :=
  let count := fun (b : BitVec 4) => ((List.range 4).filter fun k => b.getLsbD k).length
  let (c, u) := match t.part with | .hbm => (some 0, 1) | .sill => (some 2, 3) | .l2 => (none, 4) | .cxl => (none, 5)
  let s := if t.bad = 0 then s else s.bumpErr u (count t.bad)
  let s := match c with | some c => if t.fixed = 0 then s else s.bumpErr c (count t.fixed) | none => s
  { s with mem := { s.mem with poison := (List.range 4).foldl (fun p k => if t.bad.getLsbD k then setPoison p (4 * t.line + k) true else p) s.mem.poison } }

def Xfer.is (x : Xfer) (t : Transfer) (unit : Nat) : Bool := x.line == t.line && x.unit == unit && x.write == t.intoWrite && x.client == t.client

def dropFirst {α : Type} (p : α → Bool) : List α → List α
  | [] => []
  | x :: xs => if p x then xs else x :: dropFirst p xs

/-- The check of a transfer at the unit that receives it. -/
def State.scribeCheck (s : State) (t : Transfer) (unit : Nat) : State :=
  let sent := s.mem.xfers.find? fun x => x.is t unit
  let s := { s with mem := { s.mem with xfers := dropFirst (fun x => x.is t unit) s.mem.xfers } }.senderErrors t
  match s.transferViolation t unit sent with
  | none => (s.noteTransfer t unit sent).retire
  | some v =>
    let s := s.countViol t.hp v
    let s := if v = 5 then s.reportHash t.line else s
    if s.scribeObserves t.hp t.unit then s.passTransfer v t unit else s.failTransfer v t unit

/-- SCRIBE_TRANSFER_CHECK (R232): A Scribe checks the hash and single-writer rules of a received line transfer. -/
def execEvScribeTransferCheck (t : Transfer) (s : State) : Host.Outcome State Fault Refusal := .next (s.scribeCheck t (unitOf t.unit))

/-- The partition that reaches a line. -/
def State.hpOfLine (s : State) (line : Nat) : Nat :=
  ((List.range 4).find? fun hp => decide (0 < planDies s.dev.plan hp) && (s.region hp (line * 128)).backed).getD 0

/-- A pending transfer as it arrives when nothing is wrong. -/
def State.honestTransfer (s : State) (x : Xfer) : Transfer :=
  let data := memReadN s.mem.bytes (x.line * 128) 128
  { unit := unitScribe x.unit x.line, hp := s.hpOfLine x.line, line := x.line, interval := x.interval, data := data,
    hash := lineHash (x.line * 128) x.interval data, intoWrite := x.write, client := x.client, part := .hbm, bad := 0, fixed := 0 }

/-- Windows closed: SEAL and CHKR no longer await them. -/
def State.closeKey (s : State) (key : Nat) : State :=
  { s with mem := { s.mem with ops := s.mem.ops.map fun o =>
      if o.kind = .seal ∨ o.kind = .chkr then { o with lacking := o.lacking.filter (· != key) } else o } }

def setWindow (home peer : ScribeId) (f : ScribeWin → ScribeWin) (ws : List ScribeWin) : List ScribeWin :=
  (ws.map fun w => if w.home = home ∧ w.peer = peer then f w else w).filter fun w =>
    !(w.homeRecs.isEmpty && w.peerRecs.isEmpty && w.bad.isEmpty)

/-- A SEAL or a CHKR has asked the Scribes to close a window (R249, R250). -/
def State.closeAsked (s : State) (w : ScribeWin) : Bool :=
  s.mem.ops.any fun o => (o.kind == .seal || o.kind == .chkr) && o.lacking.contains (winKey w.home w.peer)

/-- A window closes at once: on 1,024 interval closures, or on a request. -/
def State.closesNow (s : State) (w : ScribeWin) : Bool := decide (1024 ≤ (w.homeRecs.filter (·.write)).length) || s.closeAsked w

/-- What differs between two lists of records; all of them where they differ in order or repetition alone. -/
def recDiff (a b : List WinRec) : List WinRec :=
  let d := (a.filter fun x => !(b.contains x)) ++ (b.filter fun x => !(a.contains x))
  if d.isEmpty then a ++ b else d

/-- SCRIBE_WINDOW_CLOSE (R233): A deferred window closes on count, timer or request, and hashes are exchanged. Equal
records have equal hashes; unequal ones are DIRECTORY, and wait to be exchanged. On its timer it closes 4 µs after its first
record. -/
def execEvScribeWindowClose (home peer : ScribeId) (s : State) : Host.Outcome State Fault Refusal :=
  match s.mem.windows.find? fun w => w.home == home && w.peer == peer with
  | none => .next s
  | some w =>
    let s := if s.closesNow w then s else s.reach (nsTicks (w.since + 4000))
    if w.homeRecs = w.peerRecs then
      let s := { s with mem := { s.mem with windows := setWindow home peer (fun w => { w with homeRecs := [], peerRecs := [] }) s.mem.windows } }
      .next (if w.bad.isEmpty then s.closeKey (winKey home peer) else s)
    else
      .next { s with mem := { s.mem with windows := setWindow home peer (fun w => { w with homeRecs := [], peerRecs := [], bad := w.bad ++ recDiff w.homeRecs w.peerRecs }) s.mem.windows } }

/-- The operations recorded on named lines, oldest first. -/
def State.onLines (s : State) (lines : List Nat) : List Nat :=
  (s.mem.ops.filter fun o => !o.failed && o.elems.any fun e => lines.contains (lineOf e.pa)).map (·.id)

def poisonAll : State → List Nat → State
  | s, [] => s
  | s, l :: ls => poisonAll (s.poisonLine l) ls

/-- The slices whose grants the records of a failed window are: a release of theirs may not pass (R235). -/
def taintAll (v : Taint) : State → List SliceRef → State
  | s, [] => s
  | s, r :: rs => taintAll v (s.taint r v) rs

/-- SCRIBE_RECORD_EXCHANGE (R233): After a DIRECTORY mismatch the Scribes exchange records and name the lines at
fault. -/
def execEvScribeRecordExchange (home peer : ScribeId) (s : State) : Host.Outcome State Fault Refusal :=
  match s.mem.windows.find? fun w => w.home == home && w.peer == peer with
  | none => .next s
  | some w =>
    if w.bad.isEmpty then .next s
    else
      let lines := (w.bad.map (·.line)).eraseDups
      let hp := s.hpOfLine (lines.headD 0)
      let s := s.countViol hp 7
      let s := { s with mem := { s.mem with windows := setWindow home peer (fun w => { w with bad := [] }) s.mem.windows } }
      let s := s.closeKey (winKey home peer)
      if s.scribeObserves hp home then
        match (s.onLines lines).head?.bind s.op? with
        | some o => .next (s.observe hp (s.team o.ref.tid).ctx (s.affectedBy o) 7 home (some o.offender))
        | none => .next s
      else
        let s := failAll 7 home (poisonAll s lines) (s.onLines lines)
        .next (taintAll { viol := 7, checker := home, off := none } s ((w.bad.filterMap (·.cause)).eraseDups.filter fun r => !(s.slice r).exited || !(s.team r.tid).ended))

/-- The numbered messages of a cluster to a home that are under way, oldest first: those that have left the cluster and have not
performed. -/
def State.underWay (s : State) (src dst : Nat) : List Op :=
  s.mem.ops.filter fun o => o.numbered && s.clusterOf o.ref == src && !o.performed && !o.arrived
    && !((s.l1 src).wbuf.any fun e => e.op == o.id)
    && o.elems.any fun e => !(isScratch e) && (s.region (s.hpOfCluster src) e.pa).home == dst

/-- SEQ_GAP_TIMEOUT (R237): A sequence gap open for 50 µs is a SEQ violation: the oldest message under way is missing, those held
behind the gap are discarded, and their slices tainted. -/
def execEvSeqGapTimeout (src dst : Nat) (s : State) : Host.Outcome State Fault Refusal :=
  match if smGet 0 (16 * src + dst) s.mem.seqTx = smGet 0 (16 * src + dst) s.mem.seqRx then [] else s.underWay src dst with
  | first :: o :: rest =>
    let hp := s.hpOfCluster src
    let chk := Machine.homeScribe dst (match first.elems with | e :: _ => lineOf e.pa | [] => 0)
    let s := s.countViol hp 8
    if s.scribeObserves hp chk then .next (s.observe hp (s.team o.ref.tid).ctx (s.affectedBy o) 8 chk (some o.offender))
    else .next (failAll 8 chk s (o.id :: rest.map (·.id)))
  | _ => .next s

/-! ## Checker registers (R243, R246) -/

/-- A region of the partition is bound to a trusted device interface in RUN. -/
def State.tdiRun (s : State) (hp : Nat) : Bool :=
  s.dev.tdis.any fun p => p.2.st == 2 && p.2.slots.any fun k => (s.keySlot k).part == hp

/-- CHKMODE_WRITE (R243): Sets checker modes of a hard partition, subject to LOCK and trusted interfaces. -/
def execEvChkmodeWrite (hp : Nat) (v : Quad) (s : State) : Host.Outcome State Fault Refusal :=
  let c := s.check hp
  if hp ≥ 4 ∨ c.lock then .next s
  else if (v.getLsbD 0 || v.getLsbD 1) && s.tdiRun hp then .next s
  else .next (s.setCheck hp { c with sqobs := v.getLsbD 0, scobs := v.getLsbD 1, lock := v.getLsbD 2 })

/-- ORDINJ_WRITE (R246): Arms or clears the order-injection register. Writing 1 to FIRED clears it. -/
def execEvOrdinjWrite (hp : Nat) (v : Quad) (s : State) : Host.Outcome State Fault Refusal :=
  let c := s.check hp
  if hp ≥ 4 ∨ (v.getLsbD 0 && s.tdiRun hp) then .next s
  else
    let fired := c.ordinj.getLsbD 1 && !v.getLsbD 1
    .next (s.setCheck hp { c with ordinj := (v &&& 0x3FFF05) ||| (if fired then 2 else 0) })

/-! ## Shoot-downs (R251, R252) -/

/-- What an SDCMD names. -/
structure Shoot where
  ctx : Nat
  allCtx : Bool
  allVa : Bool
  lo : Nat
  n : Nat

def shootOf (sdva v : Nat) : Shoot :=
  { ctx := bitsOf v 5 0, allCtx := bitOf v 6, allVa := bitOf v 7, lo := bitsOf sdva 56 12 * 4096,
    n := bitsOf v 23 12 * 2 ^ pageBits (bitsOf v 10 8) }

/-- A virtual address as SDVA holds it: bits 56:12. -/
def shootVa (va : Nat) : Nat := va % 2 ^ 57

def Shoot.hits (d : Shoot) (ctx : Nat) (glob : Bool) (va n : Nat) : Bool :=
  (d.allCtx || (!glob && d.ctx == ctx)) && (d.allVa || overlap d.lo d.n (shootVa va) n)

/-- The translations that a shoot-down names, in every TLB. -/
def State.shotDown (s : State) (hp : Nat) (d : Shoot) : List TlbEntry :=
  ((s.mem.l1tlb ++ s.mem.l2tlb).flatMap (·.2)).filter fun e => e.hp == hp && d.hits e.ctx e.glob e.va (2 ^ e.size)

/-- Translations of a hard partition that a shoot-down names are removed, and the accesses that used them noted: those in the
range, and those in a page whose translation goes. -/
def State.shoot (s : State) (hp : Nat) (d : Shoot) : State × List Nat :=
  let gone := s.shotDown hp d
  let used := s.mem.ops.filter fun o => (s.team o.ref.tid).hp == hp && o.elems.any fun e => !(isScratch e)
    && (d.hits (s.team o.ref.tid).ctx false e.va.toNat 1 || gone.any fun g => g.covers hp (s.team o.ref.tid).ctx e.va.toNat)
  (s.dropTlb fun e => gone.contains e, used.map (·.id))

/-- SHOOTDOWN_GO (R251): SDCMD with GO starts a TLB shoot-down, or is ignored with ERR. Host writes posted before it perform
first (R252). -/
def execEvShootdownGo (hp : Nat) (v : Quad) (s : State) : Host.Outcome State Fault Refusal :=
  let c := s.check hp
  let n := v.toNat
  if hp ≥ 4 ∨ !(bitOf n 24) then .next s
  else if !s.dev.hostq.isEmpty then .next s.block
  else if c.sdBusy || (bitsOf n 23 12 == 0 && !(bitOf n 7)) || bitOf n 11 || bitsOf n 63 25 != 0 then
    .next (s.setCheck hp { c with sdErr := true })
  else
    let (s', ids) := s.shoot hp (shootOf c.sdva.toNat n)
    .next (s'.setCheck hp { s'.check hp with sdBusy := true, sdOps := ids })

/-- SHOOTDOWN_DONE (R252): After affected accesses perform at dev scope, BUSY clears and DONE increments. -/
def execEvShootdownDone (hp : Nat) (s : State) : Host.Outcome State Fault Refusal :=
  let c := s.check hp
  if c.sdBusy && c.sdOps.all fun id => !(s.mem.ops.any fun o => o.id == id && !(o.ackedAt .dev)) then
    .next (s.setCheck hp { c with sdBusy := false, sdOps := [], sdDone := c.sdDone + 1 })
  else .next s

end Sys2Proof.Machine
end

