-- ==== Sys2Proof/Machine/Sched.lean ====
section
/-! DEFINITION. The ready set, issue selection, composite issue and automatic merges (04 R112, R113, R117, R119,
R120), and the clocks (01 R16). -/

namespace Sys2Proof.Machine

/-- The bents of a partition: key 4 × cluster + partition. -/
def State.bentsOf (s : State) (part : Nat) : List (Nat × Nat) :=
  (s.gangs.map fun p => (p.1 / 64, p.1 % 64)).filter fun (tid, bent) =>
    let t := s.team tid
    4 * t.clusterOf bent + t.partOf bent == part

def Wait.isNone : Wait → Bool
  | .none => true
  | .released => true
  | _ => false

/-- A wait that leaves its gang in the ready set (R112): none, or a stall. A gang released from its implicit REGANG that has not
issued its instruction merges with no other, for the instruction issues once for the slices released together (R115; DESIGN CHOICE,
log entry 95). -/
def Wait.isStall : Wait → Bool
  | .none => true
  | .token _ => true
  | .retry => true
  | .pending => true
  | .op _ => true
  | .timeline _ _ => true
  | .quiet _ _ _ => true
  | .arrival _ => true
  | .along => true
  | _ => false

/-- Waits that end when the gang's next attempt does not stall. -/
def Wait.mayTry : Wait → Bool
  | .none => true
  | .released => true
  | .token _ => true
  | .retry => true
  | .pending => true
  | .timeline _ _ => true
  | .along => true
  | _ => false

/-- A slice that runs: it has not ended, and no trap waits. -/
def Slice.runs (x : Slice) : Bool := !x.exited && !x.exiting && !x.stopped && x.trapWait.isNone

/-- It may issue: a slice that moves does not (R122). -/
def Slice.live (x : Slice) : Bool := x.runs && x.moveTo.isNone

/-- A gang in the ready set whose slices all wait as `test` allows. -/
def State.gangReady (s : State) (test : Wait → Bool) (clock tid bent : Nat) (g : Gang) : Bool :=
  decide (g.readyAt ≤ clock) && !(s.team tid).stopped && !(s.team tid).held && g.mask != 0
    && (maskRefs tid bent g.mask).all fun r => (s.slice r).live && test (s.slice r).wait

/-- A gang that a merge may take (R112): in the ready set and outside trap mode. -/
def State.gangMerges (s : State) (clock tid bent : Nat) (g : Gang) : Bool :=
  decide (g.readyAt ≤ clock)
    && (maskRefs tid bent g.mask).all fun r => (s.slice r).runs && (s.slice r).wait.isStall && !(s.slice r).tmode

/-! ## Merges (R112) -/

/-- Joins a gang to the one of the list that stands at its PC. -/
def joinGang (s : State) (clock tid bent : Nat) (g : Gang) : List Gang → List Gang
  | [] => [g]
  | h :: hs =>
    if s.gangMerges clock tid bent g && s.gangMerges clock tid bent h
       && gangPc s { tid := tid, bent := bent, mask := g.mask } == gangPc s { tid := tid, bent := bent, mask := h.mask }
    then { mask := g.mask ||| h.mask, waiting := max g.waiting h.waiting, readyAt := 0 } :: hs
    else h :: joinGang s clock tid bent g hs

def mergeGangs (s : State) (clock tid bent : Nat) : List Gang → List Gang
  | [] => []
  | g :: gs => joinGang s clock tid bent g (mergeGangs s clock tid bent gs)

/-- The merges of a bent; n gangs that become one count n - 1 in event 5 (DESIGN CHOICE, log entry 94). -/
def State.mergeBent (s : State) (clock tid bent : Nat) : State :=
  let old := s.gangsOf tid bent
  let new := mergeGangs s clock tid bent old.reverse
  if new.length = old.length then s else (s.setGangs tid bent new).count tid 5 (old.length - new.length)

def mergeAll (clock : Nat) : State → List (Nat × Nat) → State
  | s, [] => s
  | s, (tid, bent) :: bs => mergeAll clock (s.mergeBent clock tid bent) bs

/-- The end of an issue clock of a partition (R112). -/
def State.endClock (s : State) (part : Nat) : State := mergeAll (s.partClock part) s (s.bentsOf part)

/-! ## Selection (R117) -/

structure Cand where
  ref : GangRef
  waiting : Nat
  pc : Quad
  deriving DecidableEq, Repr

def lowestSlice (m : BitVec 8) : Nat := (maskList m.toNat 8).headD 8

/-- Lower PC, then lower bent, then lower lowest logical slice. -/
def Cand.before (a b : Cand) : Bool :=
  decide (a.pc.toNat < b.pc.toNat) || (a.pc == b.pc &&
    (decide (a.ref.bent < b.ref.bent) || (a.ref.bent == b.ref.bent &&
      decide (lowestSlice a.ref.mask < lowestSlice b.ref.mask))))

/-- The candidate with the highest count, ties by `before`; the rule breaks no tie between gangs of two teams that agree in all of
these, and the model takes the first in the order of its list of bents (DESIGN CHOICE, log entry 96). -/
def bestCand : List Cand → Option Cand
  | [] => none
  | c :: cs =>
    match bestCand cs with
    | none => some c
    | some d => if c.waiting > d.waiting ∨ (c.waiting = d.waiting ∧ c.before d) then some c else some d

/-- The last-issued gang, or what has become of it. -/
def Cand.isLast (last : Option GangRef) (c : Cand) : Bool :=
  match last with
  | none => false
  | some g => g.tid == c.ref.tid && g.bent == c.ref.bent && g.mask &&& c.ref.mask != 0

/-- R117; the second part says that a waiting count of 128 forced the choice. -/
def selectGang (last : Option GangRef) (cs : List Cand) : Option Cand × Bool :=
  match bestCand (cs.filter fun c => c.waiting ≥ 128) with
  | some c => (some c, true)
  | none =>
    match bestCand (cs.filter (Cand.isLast last)) with
    | some c => (some c, false)
    | none => (bestCand cs, false)

/-- The gangs of these bents that may issue, but for a stall that their next instruction meets. -/
def State.candsOf (s : State) (test : Wait → Bool) (clock : Nat) : List (Nat × Nat) → List Cand
  | [] => []
  | (tid, bent) :: bs =>
    ((s.gangsOf tid bent).filter (s.gangReady test clock tid bent)).map (fun g =>
        let ref : GangRef := { tid := tid, bent := bent, mask := g.mask }
        { ref := ref, waiting := g.waiting, pc := gangPc s ref }) ++ s.candsOf test clock bs

/-! ## Composite issue (R120) -/

/-- Instructions that a gang issues alone: XL, bent scope (10 R334 of TRD and TWR), MMA, XY and REGANG. -/
def issuesAlone : Instr → Bool
  | .xlShfl _ _ => true
  | .xlVote _ _ => true
  | .xlGred _ _ => true
  | .xlGscan _ _ => true
  | .xlMatch _ _ => true
  | .xqQntz _ _ => true
  | .xqDqnt _ _ => true
  | .xxMma _ _ => true
  | .xxTrd _ _ => true
  | .xxTwr _ _ => true
  | .xyBari _ _ => true
  | .xyBara _ _ => true
  | .xyBarad _ _ => true
  | .xyBarw _ _ => true
  | .xyBart _ _ => true
  | .xyBarx _ _ => true
  | .xyGbara _ _ => true
  | .xyGbard _ _ => true
  | .xyGbarw _ _ => true
  | .bctRegang _ => true
  | _ => false

def slotMask (s : State) (g : GangRef) : BitVec 8 :=
  (g.refs.map fun r => 1#8 <<< (s.slice r).slot).foldl (· ||| ·) 0

def anyTrapMode (s : State) (g : GangRef) : Bool := g.refs.any fun r => (s.slice r).tmode

/-- The gangs that fuse with the selected one: same team, PC and role, slots apart. -/
def fuse (s : State) (sel : Cand) : BitVec 8 → List Cand → List GangRef
  | _, [] => []
  | used, c :: cs =>
    let m := slotMask s c.ref
    if c.ref != sel.ref && c.ref.tid == sel.ref.tid && c.pc == sel.pc
       && ((s.team c.ref.tid).role c.ref.bent).1 == ((s.team sel.ref.tid).role sel.ref.bent).1
       && used &&& m == 0 && !anyTrapMode s c.ref
    then c.ref :: fuse s sel (used ||| m) cs
    else fuse s sel used cs

/-- The instruction that a gang is about to issue, read without effect. -/
def State.peek (s : State) (g : GangRef) : Option Instr :=
  match (s.fetchFor g).1 with
  | .words ws => (decodeWords ws).toOption
  | _ => none

def State.members (s : State) (sel : Cand) (cs : List Cand) : List GangRef :=
  if !(s.team sel.ref.tid).desc.composite || anyTrapMode s sel.ref then []
  else
    match s.peek sel.ref with
    | none => []
    | some i => if issuesAlone i then [] else fuse s sel (slotMask s sel.ref) cs

/-! ## The issue clock -/

/-- The period of a compute die's issue clock (01 R16). -/
def State.period (s : State) (die : Nat) : Nat := Config.periodTicks (smGet 0 die s.dev.steps)

/-- One more clock of a partition; the die's count and the device time follow the partition that is ahead. -/
def State.tickPart (s : State) (part : Nat) : State :=
  let die := part / 4 / Config.clustersPerDie
  let n := s.partClock part + 1
  let c := s.clk
  let c := { c with part := smPut 0 part n c.part }
  if n ≤ smGet 0 die c.die then { s with clk := c }
  else
    let t := smGet 0 die c.dieTicks + s.period die
    { s with clk := { c with die := smPut 0 die n c.die, dieTicks := smPut 0 die t c.dieTicks, ticks := max c.ticks t } }

/-- Waiting counts after a selection (R117): an issued gang's is 0, every other ready one's rises. -/
def bumpWaiting (ready issued : List GangRef) (tid bent : Nat) (g : Gang) : Gang :=
  let r : GangRef := { tid := tid, bent := bent, mask := g.mask }
  if r ∈ issued then { g with waiting := 0 } else if r ∈ ready then { g with waiting := g.waiting + 1 } else g

def bumpAll (ready issued : List GangRef) : State → List (Nat × Nat) → State
  | s, [] => s
  | s, (tid, bent) :: bs =>
    bumpAll ready issued (s.setGangs tid bent ((s.gangsOf tid bent).map (bumpWaiting ready issued tid bent))) bs

/-- Some gang of a team waits in this partition as the test says. -/
def State.someWaits (s : State) (test : Wait → Bool) (bs : List (Nat × Nat)) (tid : Nat) : Bool :=
  bs.any fun (t, bent) => t == tid && (s.gangsOf t bent).any fun g => (maskRefs t bent g.mask).any fun r => test (s.slice r).wait

def Wait.isToken : Wait → Bool
  | .token _ => true
  | _ => false

/-- Clocks that a team's gangs spend stalled by lookahead and on tokens (R138). -/
def countStalls (bs : List (Nat × Nat)) : State → List Nat → State
  | s, [] => s
  | s, tid :: ts =>
    let s := if s.someWaits (· == .pending) bs tid then s.count tid 9 else s
    let s := if s.someWaits Wait.isToken bs tid then s.count tid 0x0A else s
    countStalls bs s ts

/-- A clock of a partition begins: the gangs that may issue in it are chosen next (R117). A die whose clocks relock holds its issue
(01 R18). -/
def State.issueClock (s : State) (part : Nat) : State :=
  if smGet false (part / 4 / Config.clustersPerDie) s.dev.relock then s
  else
    let s := s.tickPart part
    { s with iss := { s.iss with now := [], part := part, opened := true, fused := false, stalled := none } }

/-- The choice of the clock, once it is known which gangs no stall holds (R117, R120). In the second clock of an f64 instruction
nothing issues (05 R148). -/
def State.choose (s : State) (cs : List Cand) : State :=
  let part := s.iss.part
  let bs := s.bentsOf part
  let s := countStalls bs s (bs.map (·.1)).eraseDups
  if smGet 0 part s.iss.second = s.partClock part then (bumpAll (cs.map (·.ref)) [] s bs).endClock part
  else
    match selectGang (smFind part s.iss.last) cs with
    | (none, _) => s.endClock part
    | (some sel, forced) =>
      let mem := s.members sel cs
      let s := (bumpAll (cs.map (·.ref)) (sel.ref :: mem) s bs).count sel.ref.tid 1
      let s := if mem.isEmpty then s else s.count sel.ref.tid 3
      let s := if forced then s.count sel.ref.tid 0x0C else s
      { s with iss := { s.iss with last := smSet part sel.ref s.iss.last, now := sel.ref :: mem, fused := !mem.isEmpty } }

/-! ## Traps of a composite issue (R142) -/

/-- A slice whose trap may be entered. -/
def State.trapReady (s : State) (r : SliceRef) : Bool :=
  (s.slice r).trapWait.isSome && (s.slice r).pend.isEmpty && (s.slice r).moveTo.isNone

/-- Half, cluster partition, slot (R142); then the bent, which the rule leaves open (DESIGN CHOICE, log entry 97). -/
def State.trapOrder (s : State) (r : SliceRef) : Nat :=
  let t := s.team r.tid
  ((t.halfOf r.bent * 4 + t.partOf r.bent) * 8 + (s.slice r).slot) * 64 + r.bent

def State.enterDue (s : State) (r : SliceRef) : State :=
  match (s.slice r).trapWait with
  | some w => if s.trapReady r then s.takeTrap r w else s
  | none => s

def enterAll : State → List SliceRef → State
  | s, [] => s
  | s, r :: rs => enterAll (s.enterDue r) rs

/-- The last gang that issues in a clock has issued: the traps of a composite issue are entered, and the clock ends. -/
def State.endIssue (s : State) : State :=
  let part := s.iss.part
  let s :=
    if s.iss.fused then
      let rs := (s.bentsOf part).flatMap fun (tid, b) => maskRefs tid b 0xFF
      enterAll { s with iss := { s.iss with fused := false } } (slotOrder s rs)
    else s
  s.endClock part

end Sys2Proof.Machine
end

