-- ==== Sys2Proof/Machine/Control.lean ====
section
/-! DEFINITION. Branches, jumps, EXEC, traps, REGANG, YIELD, and special registers (04 R113 to R143): the classes
BBR, BCT, XC and XZ. -/

namespace Sys2Proof.Machine

/-! ## Branches (R125 to R128) -/

/-- s62 and s63, which CALL and CALLR write. -/
def linkRegs : List Reg := [.s 62, .s 63]

/-- A predicate is 1 in some lane, or in every lane, that EXEC enables (R126). -/
def predAny (p : Nat) (x : Slice) : Bool := (List.range 4).any fun j => x.exec.getLsbD j && x.getP p j
def predAll (p : Nat) (x : Slice) : Bool := (List.range 4).all fun j => !x.exec.getLsbD j || x.getP p j

/-- Bit j is the predicate of lane j (R130). -/
def predMask (p : Nat) (x : Slice) : BitVec 4 :=
  BitVec.ofNat 4 (bitVal (x.getP p 0) + 2 * bitVal (x.getP p 1) + 4 * bitVal (x.getP p 2) + 8 * bitVal (x.getP p 3))

/-- A slice's part of a branch: where it goes, or ALIGN with TADDR the target (R125). -/
def branchTo (target : Quad) (s : State) (r : SliceRef) (x : Slice) : SliceStep :=
  if target.toNat % 4 ≠ 0 then .ok s (.trap (faultAll causeAlign 0 target) none)
  else .ok (s.setSlice r x) (.go target)

/-- The target of a BJ form (03 R74, R75). -/
def BJ.target (o : BJ) (pc : Quad) : Quad :=
  match o.lit with
  | some l => l
  | none => pc + (o.off.signExtend 64 <<< 2)

/-- A base branch: `effect` is what it writes whether taken or not. -/
def issueBJ (i : Instr) (o : BJ) (regs : List Reg) (taken : Slice → Bool) (effect : Slice → Slice) (s : State) :
    Host.Outcome State Fault Refusal :=
  issueSlices i { regs := regs, branch := true } (fun s r =>
    let x := s.slice r
    if taken x then branchTo (BJ.target o x.pc) s r (effect x)
    else .ok (s.setSlice r (effect x)) (.go (nextPc i x.pc))) s

/-- BBR_BRA (R126): Base unconditional branch by a word offset. -/
def execBbrBra (o : BJ) (s : State) : Host.Outcome State Fault Refusal :=
  issueBJ (.bbrBra o) o [] (fun _ => true) id s

/-- BBR_BRC_NZ (R126): Base branch taken when the scalar register is nonzero. -/
def execBbrBrcNz (o : BJ) (s : State) : Host.Outcome State Fault Refusal :=
  issueBJ (.bbrBrcNz o) o [.s o.s.toNat] (fun x => x.getS o.s.toNat != 0) id s

/-- BBR_BRC_Z (R126): Base branch taken when the scalar register is zero. -/
def execBbrBrcZ (o : BJ) (s : State) : Host.Outcome State Fault Refusal :=
  issueBJ (.bbrBrcZ o) o [.s o.s.toNat] (fun x => x.getS o.s.toNat == 0) id s

/-- BBR_BRC_ANY (R126): Base branch taken when the predicate is 1 in some EXEC lane. -/
def execBbrBrcAny (o : BJ) (s : State) : Host.Outcome State Fault Refusal :=
  issueBJ (.bbrBrcAny o) o [.p o.s.toNat] (predAny o.s.toNat) id s

/-- BBR_BRC_ALL (R126): Base branch taken when the predicate is 1 in every EXEC lane. -/
def execBbrBrcAll (o : BJ) (s : State) : Host.Outcome State Fault Refusal :=
  issueBJ (.bbrBrcAll o) o [.p o.s.toNat] (predAll o.s.toNat) id s

/-- BBR_BRC_NONE (R126): Base branch taken when the predicate is 1 in no EXEC lane. -/
def execBbrBrcNone (o : BJ) (s : State) : Host.Outcome State Fault Refusal :=
  issueBJ (.bbrBrcNone o) o [.p o.s.toNat] (fun x => !predAny o.s.toNat x) id s

/-- BBR_BREZ (R126): Base branch taken when EXEC is 0. -/
def execBbrBrez (o : BJ) (s : State) : Host.Outcome State Fault Refusal :=
  issueBJ (.bbrBrez o) o [] (fun x => x.exec == 0) id s

/-- BBR_LOOP (R126): Decrements the scalar register and branches while the result is nonzero. -/
def execBbrLoop (o : BJ) (s : State) : Host.Outcome State Fault Refusal :=
  issueBJ (.bbrLoop o) o [.s o.s.toNat] (fun x => x.getS o.s.toNat - 1 != 0) (fun x => x.setS o.s.toNat (x.getS o.s.toNat - 1)) s

/-- BBR_CALL (R126): Base call writing the return address to s62:63. -/
def execBbrCall (o : BJ) (s : State) : Host.Outcome State Fault Refusal :=
  issueBJ (.bbrCall o) o linkRegs (fun _ => true) (fun x => x.setPair 62 (nextPc (.bbrCall o) x.pc)) s

/-- The target of an XC form (R127). -/
def Branch.target (h : Head) (w : Branch) (pc : Quad) : Quad :=
  match h.lit with
  | some l => l
  | none => pc + (w.off.signExtend 64 <<< 2)

def issueXc (i : Instr) (h : Head) (w : Branch) (regs : List Reg) (taken : Slice → Bool) (effect : Slice → Slice) (s : State) :
    Host.Outcome State Fault Refusal :=
  issueSlices i { Head.info h (regs ++ guardRegs h) with branch := true } (fun s r =>
    let x := s.slice r
    if x.sliceOn h.gp h.gn && taken x then branchTo (Branch.target h w x.pc) s r (effect x)
    else .ok s (.go (nextPc i x.pc))) s

/-- The condition of an XC branch: CND 1 to 6 (R126, R127). -/
def condTaken (h : Head) (w : Branch) (x : Slice) : Bool :=
  match w.cnd.toNat with
  | 1 => x.getS h.a.toNat != 0
  | 2 => x.getS h.a.toNat == 0
  | 3 => predAny h.a.toNat x
  | 4 => predAll h.a.toNat x
  | 5 => !predAny h.a.toNat x
  | _ => x.exec == 0

def condRegs (h : Head) (w : Branch) : List Reg :=
  match w.cnd.toNat with
  | 1 => [.s h.a.toNat]
  | 2 => [.s h.a.toNat]
  | 6 => []
  | _ => [.p h.a.toNat]

/-- XC_BRA (R127): Extended unconditional branch. -/
def execXcBra (h : Head) (w : Branch) (s : State) : Host.Outcome State Fault Refusal :=
  issueXc (.xcBra h w) h w [] (fun _ => true) id s

/-- XC_BRC (R127): Extended conditional branch. -/
def execXcBrc (h : Head) (w : Branch) (s : State) : Host.Outcome State Fault Refusal :=
  issueXc (.xcBrc h w) h w (condRegs h w) (condTaken h w) id s

/-- XC_CALL (R127): Extended call. -/
def execXcCall (h : Head) (w : Branch) (s : State) : Host.Outcome State Fault Refusal :=
  issueXc (.xcCall h w) h w linkRegs (fun _ => true) (fun x => x.setPair 62 (nextPc (.xcCall h w) x.pc)) s

/-- RET, JMPR and CALLR: the target is read before the link is written (R128). -/
def issueJump (i : Instr) (info : Info) (target : Slice → Quad) (effect : Slice → Slice) (s : State) :
    Host.Outcome State Fault Refusal :=
  issueSlices i info (fun s r => let x := s.slice r; branchTo (target x) s r (effect x)) s

/-! ## REGANG, YIELD, RFT (R114, R119, R143) -/

/-- REGANG: the slices wait; REGANG_RELEASE moves them on. -/
def issueExplicitRegang (i : Instr) (s : State) : Host.Outcome State Fault Refusal :=
  issueGang i { bentScope := true } (fun s rs => .done s (rs.map fun r => (r, .park (.regang true)))) s

/-- The gang keeps together while it holds: YIELD splits nothing. -/
def holdSlices (i : Instr) (clock : Nat) : State → List SliceRef → State
  | s, [] => s
  | s, r :: rs => (holdSlices i clock s rs).modSlice r fun x => { x with wait := .hold clock }

/-- YIELD: a hold of 32 issue clocks when another gang of the partition is ready (R119). -/
def issueYield (i : Instr) (s : State) : Host.Outcome State Fault Refusal :=
  issueGang i {} (fun s rs =>
    let clock := s.partClock s.iss.part
    let others := (s.candsOf Wait.isNone clock (s.bentsOf s.iss.part)).filter fun c =>
      !(rs.any fun r => r.tid == c.ref.tid && r.bent == c.ref.bent && c.ref.mask.getLsbD r.sl)
    let s' := if others.isEmpty then s else holdSlices i (clock + 32) s rs
    .done s' (allGo i s rs)) s

/-- RFT (R143): ILL outside trap mode; ALIGN, a double fault, for a misaligned TPC. -/
def rftSlice (_i : Instr) (s : State) (r : SliceRef) : SliceStep :=
  let x := s.slice r
  if !x.tmode then .ok s (.trap (faultAll causeIll) none)
  else if x.trap.tpc.toNat % 4 ≠ 0 then .ok s (.trap (faultAll causeAlign 0 x.trap.tpc) none)
  else .ok (s.setSlice r x.returnTrap) (.go x.trap.tpc)

/-! ## Special registers (03 R90, 04 R124, R136 to R140) -/

/-- GWIDTH (R110). -/
def gwidthOf (s : State) (mask : BitVec 8) (r : SliceRef) : Nat :=
  ((maskRefs r.tid r.bent mask).map fun q => countBits (s.slice q).exec.toNat 4).sum

/-- The gang's mask as the slice reads it. -/
def readGmask (s : State) (rs : List SliceRef) (r : SliceRef) : BitVec 8 :=
  if (s.slice r).tmode then 1#8 <<< r.sl else refsMask rs

def slctl (c : Ccb) : Word := BitVec.ofNat 32 (c.migth.toNat + bitVal c.tlogon * 8)

def quadLo (q : Quad) : Word := q.setWidth 32
def quadHi (q : Quad) : Word := (q >>> 32).setWidth 32

/-- The trap state by number (R140). -/
def trapReg (t : TrapRegs) (n : Nat) : Word :=
  match n with
  | 0x20 => BitVec.ofNat 32 (t.cause.toNat + t.sub.toNat * 2 ^ 8 + t.lanes.toNat * 2 ^ 16)
  | 0x21 => quadLo t.tpc
  | 0x22 => quadHi t.tpc
  | 0x23 => quadLo t.tfpc
  | 0x24 => quadHi t.tfpc
  | 0x25 => quadLo t.taddr
  | 0x26 => quadHi t.taddr
  | 0x27 => t.texec.setWidth 32
  | 0x28 => t.tinst
  | 0x29 => t.tgmask.setWidth 32
  | 0x2A => t.tscr
  | _ => t.tcount

/-- A special register as a slice of the issuing gang reads it (R90). -/
def readSr (s : State) (rs : List SliceRef) (r : SliceRef) (n : Nat) : Word :=
  let x := s.slice r
  let t := s.team r.tid
  let c := s.ccb t.hp t.ctx
  match n with
  | 0 => x.fflags.setWidth 32
  | 1 => x.exec.setWidth 32
  | 2 => (readGmask s rs r).setWidth 32
  | 3 => BitVec.ofNat 32 (gwidthOf s (readGmask s rs r) r)
  | 4 => x.tokens.setWidth 32
  | 5 => BitVec.ofNat 32 r.sl
  | 6 => BitVec.ofNat 32 r.bent
  | 7 => BitVec.ofNat 32 (t.role r.bent).1
  | 8 => BitVec.ofNat 32 (r.bent - (t.role r.bent).2)
  | 9 => BitVec.ofNat 32 t.x
  | 0xA => BitVec.ofNat 32 t.y
  | 0xB => BitVec.ofNat 32 t.z
  | 0xC => BitVec.ofNat 32 t.gx
  | 0xD => BitVec.ofNat 32 t.gy
  | 0xE => BitVec.ofNat 32 t.gz
  | 0xF => BitVec.ofNat 32 (t.clusterOf r.bent)
  | 0x10 => BitVec.ofNat 32 (t.halfOf r.bent)
  | 0x11 => BitVec.ofNat 32 (t.ctx + t.hp * 2 ^ 8)
  | 0x12 => quadLo t.args
  | 0x13 => quadHi t.args
  | 0x14 => boolWord x.tmode
  | 0x1000 => slctl c
  | 0x1001 => quadLo c.tlog
  | 0x1002 => quadHi c.tlog
  | n => if 0x100 ≤ n ∧ n ≤ 0x10F then smGet 0 (n - 0x100) t.pmsel else trapReg x.trap n

/-- A TSTO of the slice has flags yet to raise (02 R53, R54). -/
def flagsDue (s : State) (r : SliceRef) : Bool :=
  ((s.team r.tid).tileQ ++ (s.team r.tid).tileQ1).any fun c => c.kind == 4 && c.ref == r

/-- SRD, CSRR, GMASK, GWIDTH: one special register into s[D]. -/
def issueReadSr (i : Instr) (info : Info) (d n : Nat) (s : State) : Host.Outcome State Fault Refusal :=
  issueGang i info (fun s rs =>
    runSlices (fun s r =>
      let x := s.slice r
      if info.waitFlags && flagsDue s r then .stall .retry
      else
        let x' := if x.sliceOn info.gp info.gn then x.setS d (readSr s rs r n) else x
        .ok (s.setSlice r x') (.go (nextPc i x.pc))) s rs) s

/-- The writable special registers (R90, R138, R140); FFLAGS clears the bits that are set in the value. -/
def writeSr (s : State) (r : SliceRef) (n : Nat) (v : Word) : State :=
  match n with
  | 0 => s.modSlice r fun x => { x with fflags := x.fflags &&& ~~~(v.setWidth 6) }
  | 0x21 => s.modSlice r fun x => { x with trap := { x.trap with tpc := quadHi x.trap.tpc ++ v } }
  | 0x22 => s.modSlice r fun x => { x with trap := { x.trap with tpc := v ++ quadLo x.trap.tpc } }
  | 0x27 => s.modSlice r fun x => { x with trap := { x.trap with texec := v.setWidth 4 } }
  | 0x2A => s.modSlice r fun x => { x with trap := { x.trap with tscr := v } }
  | n => s.modTeam r.tid fun t => { t with pmsel := smPut 0 (n - 0x100) (v &&& 0xFF) t.pmsel }

def issueWriteSr (i : Instr) (info : Info) (n a : Nat) (s : State) : Host.Outcome State Fault Refusal :=
  issueSlices i info (fun s r =>
    let x := s.slice r
    let s' := if x.sliceOn info.gp info.gn then writeSr s r n (x.getS a) else s
    .ok s' (.go (nextPc i x.pc))) s

/-- GETT (R137): device time in ns, or the issue clocks of the compute die. -/
def issueTime (i : Instr) (h : Head) (w : Command) (s : State) : Host.Outcome State Fault Refusal :=
  issueSlices i (Head.info h (regGroup true 2 h.d.toNat ++ guardRegs h)) (fun s r =>
    let x := s.slice r
    let v := if w.flg.getLsbD 0 then smGet 0 (dieOfCluster (s.clusterOf r)) s.clk.die else s.ns
    let x' := if x.sliceOn h.gp h.gn then x.setPair h.d.toNat (BitVec.ofNat 64 v) else x
    .ok (s.setSlice r x') (.go (nextPc i x.pc))) s

/-- PMRD (R137): the counter as it stands at issue, into a pending pair. -/
def issueCounter (i : Instr) (h : Head) (w : Command) (s : State) : Host.Outcome State Fault Refusal :=
  let regs := regGroup true 2 h.d.toNat
  issueSlices i (Head.info h (regs ++ guardRegs h)) (fun s r =>
    let x := s.slice r
    if x.sliceOn h.gp h.gn then
      let v := smGet 0 w.imm.toNat (s.team r.tid).counters
      let p := newPending s r i h.la.toNat regs (some (writesFrom true 0 h.d.toNat [quadLo v, quadHi v])) 0 none
      .ok (s.fresh.2.addPending r p) (.go (nextPc i x.pc))
    else .ok s (.go (nextPc i x.pc))) s

/-- WAITK's mask (03 R77). -/
def waitMask (o : BS) : BitVec 8 := BitVec.ofNat 8 (o.a.toNat % 4 * 64 + o.b.toNat)

/-- NOP (R128): No operation. -/
def execBctNop (o : BS) (s : State) : Host.Outcome State Fault Refusal :=
  issueScalar (.bctNop o) {} id s

/-- EXIT (R129): Ends the slice once its pending destinations are written. -/
def execBctExit (o : BS) (s : State) : Host.Outcome State Fault Refusal :=
  issueSlices (.bctExit o) {} (fun s _ => .ok s .exit) s

/-- RET (R128): Jumps to the return address in s62:63. -/
def execBctRet (o : BS) (s : State) : Host.Outcome State Fault Refusal :=
  issueJump (.bctRet o) { regs := linkRegs, branch := true } (fun x => x.getPair 62) id s

/-- JMPR (R128): Jumps to the address held in a scalar pair. -/
def execBctJmpr (o : BS) (s : State) : Host.Outcome State Fault Refusal :=
  issueJump (.bctJmpr o) { regs := regGroup true 2 o.a.toNat, branch := true } (fun x => x.getPair o.a.toNat) id s

/-- CALLR (R128): Calls the address held in a scalar pair, writing s62:63. -/
def execBctCallr (o : BS) (s : State) : Host.Outcome State Fault Refusal :=
  issueJump (.bctCallr o) { regs := regGroup true 2 o.a.toNat ++ linkRegs, branch := true } (fun x => x.getPair o.a.toNat)
    (fun x => x.setPair 62 (nextPc (.bctCallr o) x.pc)) s

/-- YIELD (R119): Holds the gang out of the ready set for 32 ic when another gang is ready. -/
def execBctYield (o : BS) (s : State) : Host.Outcome State Fault Refusal :=
  issueYield (.bctYield o) s

/-- REGANG (R114): Waits at an explicit convergence point until every sibling slice waits at a REGANG. -/
def execBctRegang (o : BS) (s : State) : Host.Outcome State Fault Refusal :=
  issueExplicitRegang (.bctRegang o) s

/-- EXSAVE (R130): Saves EXEC to a scalar and ANDs EXEC with a predicate mask. -/
def execBctExsave (o : BS) (s : State) : Host.Outcome State Fault Refusal :=
  issueScalar (.bctExsave o) { regs := [.s o.d.toNat, .p o.b.toNat] }
    (fun x => { x.setS o.d.toNat (x.exec.setWidth 32) with exec := x.exec &&& predMask o.b.toNat x }) s

/-- EXELSE (R130): Sets EXEC to the saved mask AND NOT EXEC. -/
def execBctExelse (o : BS) (s : State) : Host.Outcome State Fault Refusal :=
  issueScalar (.bctExelse o) { regs := [.s o.a.toNat] }
    (fun x => { x with exec := (x.getS o.a.toNat).setWidth 4 &&& ~~~x.exec }) s

/-- EXREST (R130): Restores EXEC from a scalar. -/
def execBctExrest (o : BS) (s : State) : Host.Outcome State Fault Refusal :=
  issueScalar (.bctExrest o) { regs := [.s o.a.toNat] } (fun x => { x with exec := (x.getS o.a.toNat).setWidth 4 }) s

/-- EXSET (R130): Sets EXEC from a scalar. -/
def execBctExset (o : BS) (s : State) : Host.Outcome State Fault Refusal :=
  issueScalar (.bctExset o) { regs := [.s o.a.toNat] } (fun x => { x with exec := (x.getS o.a.toNat).setWidth 4 }) s

/-- EXGET (R130): Reads EXEC into a scalar. -/
def execBctExget (o : BS) (s : State) : Host.Outcome State Fault Refusal :=
  issueScalar (.bctExget o) { regs := [.s o.d.toNat] } (fun x => x.setS o.d.toNat (x.exec.setWidth 32)) s

/-- GMASK (R136): Reads the gang's slot mask into a scalar. -/
def execBctGmask (o : BS) (s : State) : Host.Outcome State Fault Refusal :=
  issueReadSr (.bctGmask o) { regs := [.s o.d.toNat] } o.d.toNat 2 s

/-- GWIDTH (R136): Reads the gang's active lane count into a scalar. -/
def execBctGwidth (o : BS) (s : State) : Host.Outcome State Fault Refusal :=
  issueReadSr (.bctGwidth o) { regs := [.s o.d.toNat] } o.d.toNat 3 s

/-- SRD (R136): Reads special register A*64+B into a scalar. -/
def execBctSrd (o : BS) (s : State) : Host.Outcome State Fault Refusal :=
  issueReadSr (.bctSrd o) { regs := [.s o.d.toNat], waitFlags := BS.srNum o == 0 } o.d.toNat (BS.srNum o) s

/-- WAITK (R136): Waits until the named tokens are clear, as an acquire. -/
def execBctWaitk (o : BS) (s : State) : Host.Outcome State Fault Refusal :=
  issueScalar (.bctWaitk o) { wk := waitMask o } id s

/-- TRAP (R143): Raises TRAPI with a 6-bit code. -/
def execBctTrap (o : BS) (s : State) : Host.Outcome State Fault Refusal :=
  issueSlices (.bctTrap o) {} (fun s r => .ok s (.trap (faultAll causeTrapi o.b.toNat) (some (nextPc (.bctTrap o) (s.slice r).pc)))) s

/-- RFT (R143): Returns from the trap handler, restoring EXEC and PC. -/
def execBctRft (o : BS) (s : State) : Host.Outcome State Fault Refusal :=
  issueSlices (.bctRft o) {} (rftSlice (.bctRft o)) s

/-- BRKPT (R143): Raises BREAK with a 6-bit tag. -/
def execBctBrkpt (o : BS) (s : State) : Host.Outcome State Fault Refusal :=
  issueSlices (.bctBrkpt o) {} (fun s _ => .ok s (.trap (faultAll causeBreak o.b.toNat) none)) s

/-- CSRR (R137): Reads a special register. -/
def execXzCsrr (h : Head) (w : Command) (s : State) : Host.Outcome State Fault Refusal :=
  issueReadSr (.xzCsrr h w) { Head.info h ([.s h.d.toNat] ++ guardRegs h) with waitFlags := w.imm == 0 } h.d.toNat w.imm.toNat s

/-- CSRW (R137): Writes a special register by its access code. -/
def execXzCsrw (h : Head) (w : Command) (s : State) : Host.Outcome State Fault Refusal :=
  issueWriteSr (.xzCsrw h w) (Head.info h ([.s h.a.toNat] ++ guardRegs h)) w.imm.toNat h.a.toNat s

/-- GETT (R137): Reads device time or the issue clock count. -/
def execXzGett (h : Head) (w : Command) (s : State) : Host.Outcome State Fault Refusal :=
  issueTime (.xzGett h w) h w s

/-- PMRD (R137): Reads a team performance counter. -/
def execXzPmrd (h : Head) (w : Command) (s : State) : Host.Outcome State Fault Refusal :=
  issueCounter (.xzPmrd h w) h w s

end Sys2Proof.Machine
end

