-- ==== Sys2Proof/Machine/SliceEvents.lean ====
section
/-! DEFINITION. Steps of the slice engine: the issue clock, releases, moves, landings, trap entry and retirement
(04 R114, R117, R119, R122, R129, R139; 03 R93, R96). A step whose object is absent, or whose condition does not
hold, leaves the machine as it is (log entry 1). -/

namespace Sys2Proof.Machine

/-- ISSUE_CLOCK (R117): Each issue clock, a cluster partition selects and issues at most one gang instruction or
composite issue. The clock begins here; `step` makes the selection and issues. -/
def execEvIssueClock (cl pt : Nat) (s : State) : Host.Outcome State Fault Refusal :=
  .next (if cl < Config.clusters ∧ pt < Config.partitionsPerCluster then s.issueClock (4 * cl + pt) else s)

/-! ## REGANG (R114) -/

def bentRefs (tid bent : Nat) : List SliceRef := maskRefs tid bent 0xFF

def Wait.isRegang : Wait → Bool
  | .regang _ => true
  | _ => false

/-- The siblings that count: those that have not exited. -/
def State.present (s : State) (tid bent : Nat) : List SliceRef :=
  (bentRefs tid bent).filter fun r => !(s.slice r).exited && !(s.slice r).exiting

/-- The slices that wait, by the PC they wait at. -/
def regangGroups (s : State) : List SliceRef → List (Quad × BitVec 8)
  | [] => []
  | r :: rs => addGroup (s.slice r).pc (1#8 <<< r.sl) (regangGroups s rs)

/-- A waiting slice moves on past REGANG, which counts in the windows open before it (03 R93), or may issue its bent-scope
instruction. -/
def Slice.releaseRegang (n : Nat) (x : Slice) : Slice :=
  match x.wait with
  | .regang true => { x.passed n with wait := .none, pc := x.pc + 4 }
  | .regang false => { x with wait := .released }
  | _ => x

def releaseAll (f : Slice → Slice) (s : State) : List SliceRef → State
  | [] => s
  | r :: rs => (releaseAll f s rs).modSlice r f

/-- REGANG_RELEASE (R114): When every non-exited sibling slice waits at a REGANG, the waiting slices form gangs
and continue. One release of a bent counts 1 in event 6, at however many addresses its slices wait (DESIGN CHOICE, log
entry 94). -/
def execEvRegangRelease (tid bent : Nat) (s : State) : Host.Outcome State Fault Refusal :=
  let rs := s.present tid bent
  if rs.isEmpty || !(rs.all fun r => (s.slice r).wait.isRegang) then .next s
  else
    let gangs := (regangGroups s rs).map fun p => ({ mask := p.2, waiting := 0, readyAt := 0 } : Gang)
    .next (((releaseAll (Slice.releaseRegang s.mem.nextOp) s rs).setGangs tid bent gangs).count tid 6)

/-! ## YIELD (R119) -/

def State.gangRefs (s : State) (r : SliceRef) : List SliceRef :=
  match s.gangOf r with
  | some g => maskRefs r.tid r.bent g.mask
  | none => [r]

/-- The partition's clock is at least `n`. -/
def State.reachClock (s : State) (part n : Nat) : State :=
  { s with clk := { s.clk with part := smPut 0 part (max n (s.partClock part)) s.clk.part } }

def Slice.endHold (x : Slice) : Slice :=
  match x.wait with
  | .hold _ => { x with wait := .none }
  | _ => x

/-- YIELD_HOLD_EXPIRY (R119): After 32 issue clocks a yielded gang re-enters the ready set. -/
def execEvYieldHoldExpiry (r : SliceRef) (s : State) : Host.Outcome State Fault Refusal :=
  match (s.slice r).wait with
  | .hold n => .next (releaseAll Slice.endHold (s.reachClock (s.partOfSlice r) n) (s.gangRefs r))
  | _ => .next s

/-! ## Slot migration (R122) -/

/-- The exited slice of the bent that has a physical slot. -/
def State.exitedAt (s : State) (r : SliceRef) (slot : Nat) : Option SliceRef :=
  (bentRefs r.tid r.bent).find? fun q => (s.slice q).exited && (s.slice q).slot == slot

/-- The slots of the gang of `r` once `r` stands in another. -/
def State.slotsAfter (s : State) (r : SliceRef) (slot : Nat) : BitVec 8 :=
  ((maskRefs r.tid r.bent (s.gangMask r)).map fun q => 1#8 <<< (if q = r then slot else (s.slice q).slot)).foldl (· ||| ·) 0

/-- The move lets the slice's gang and one of another bent of its partition, of the same team and role, meet the slot condition of
R120. -/
def State.moveHelps (s : State) (r : SliceRef) (slot : Nat) : Bool :=
  let t := s.team r.tid
  let mine := slotMask s { tid := r.tid, bent := r.bent, mask := s.gangMask r }
  (s.bentsOf (s.partOfSlice r)).any fun (tid, b) =>
    tid == r.tid && b != r.bent && (t.role b).1 == (t.role r.bent).1 &&
      (s.gangsOf tid b).any fun h =>
        let m := slotMask s { tid := tid, bent := b, mask := h.mask }
        mine &&& m != 0 && s.slotsAfter r slot &&& m == 0

/-- No other slice of the bent is on its way to the slot. -/
def State.slotFree (s : State) (r : SliceRef) (slot : Nat) : Bool := (bentRefs r.tid r.bent).all fun q => (s.slice q).moveTo != some slot

/-- SLOT_MIGRATION_START (R122): The slice engine begins moving a slice to an exited slice's physical slot, so that gangs of two
bents of one role may fuse. -/
def execEvSlotMigrationStart (r : SliceRef) (slot : Nat) (s : State) : Host.Outcome State Fault Refusal :=
  let t := s.team r.tid
  let n := (s.present r.tid r.bent).length
  let x := s.slice r
  if 1 ≤ n ∧ n ≤ (s.ccb t.hp t.ctx).migth.toNat ∧ x.live ∧ (s.exitedAt r slot).isSome ∧ s.slotFree r slot ∧ s.moveHelps r slot then
    .next ((s.modSlice r fun x => { x with moveTo := some slot }).count r.tid 7)
  else .next s

/-- SLOT_MIGRATION_END (R122): A slot move finishes and the slice issues again from its new slot. -/
def execEvSlotMigrationEnd (r : SliceRef) (s : State) : Host.Outcome State Fault Refusal :=
  let x := s.slice r
  match x.moveTo with
  | none => .next s
  | some slot =>
    let s' := match s.exitedAt r slot with
      | some q => s.modSlice q fun y => { y with slot := x.slot }
      | none => s
    .next ((s'.modSlice r fun x => { x with slot := slot, moveTo := none }).count r.tid 8
      ((s.team r.tid).budget r.bent / 4))

/-! ## Landings, tokens, traps, retirement -/

/-- CLASS_L_RESULT_WRITE (R93): A class L instruction's result lands in its pending destination. -/
def execEvClassLResultWrite (r : SliceRef) (pid : Nat) (s : State) : Host.Outcome State Fault Refusal :=
  .next (s.land r pid)

/-- The tokens that a slice waits for are clear. -/
def Slice.tokensClear (x : Slice) : Bool :=
  match x.wait with
  | .token m => x.tokens &&& m == 0
  | _ => true

def Slice.endToken (x : Slice) : Slice :=
  match x.wait with
  | .token _ => { x with wait := .none }
  | _ => x

/-- TOKEN_WAIT_RELEASE (R96): A gang waiting on tokens issues once every named token is clear. -/
def execEvTokenWaitRelease (r : SliceRef) (s : State) : Host.Outcome State Fault Refusal :=
  let rs := s.gangRefs r
  .next (if rs.all fun q => (s.slice q).tokensClear then releaseAll Slice.endToken s rs else s)

/-- TRAP_ENTRY (R139): After pending destinations are written, the slice enters trap mode and jumps to its
handler. -/
def execEvTrapEntry (r : SliceRef) (s : State) : Host.Outcome State Fault Refusal :=
  let x := s.slice r
  match x.trapWait with
  | none => .next s
  | some w => .next (if x.pend.isEmpty && x.moveTo.isNone then s.enterTrap r w else s)

/-- SLICE_RETIRE (R129): An exiting slice retires once its pending destinations are written. -/
def execEvSliceRetire (r : SliceRef) (s : State) : Host.Outcome State Fault Refusal :=
  let x := s.slice r
  .next (if x.exiting && x.pend.isEmpty then s.modSlice r fun x => { x with exited := true } else s)

end Sys2Proof.Machine
end

