-- ==== Sys2Proof/Machine/SyncEvents.lean ====
section
/-! DEFINITION. Steps of the sync engine, the group barrier unit and the queue engines (08 R263 to R282). -/

namespace Sys2Proof.Machine

/-! ## Barrier arrivals (R263, R271) -/

/-- The half of the word on which an arrival acts. -/
def State.arrivalHalf (s : State) (r : SliceRef) (what half off : Nat) : Nat :=
  if what ≤ 1 then (s.team r.tid).barHalf r.bent half off else half

/-- The operations of one gang issue that name the same word. -/
def State.sameWord (s : State) (o : Op) (what half off : Nat) : List Op :=
  s.mem.ops.filter fun p => p.grp == o.grp &&
    (match p.kind with
     | .barrier _ h f _ _ => f == off && s.arrivalHalf p.ref what h f == s.arrivalHalf o.ref what half off
     | _ => false)

def dropOps : State → List Op → State
  | s, [] => s
  | s, o :: os => dropOps (s.dropOp o.id) os

def recordDrops (key : Nat) : State → List SliceRef → State
  | s, [] => s
  | s, r :: rs => recordDrops key (s.modSlice r (Slice.recordDrop key)) rs

/-- The arrival of one or more slices of a gang at a word: counted, or a fault on each. -/
def State.countArrival (s : State) (o : Op) (refs : List SliceRef) (half off n : Nat) (bent drop : Bool) : State :=
  let tid := o.ref.tid
  let w := (s.team tid).barWord half off
  let key := scratchKey half off
  let dropped := refs.any fun r => (s.slice r).drops.contains key
  match arrivalFault w n bent drop dropped with
  | some sub => faultBehind (barrierFault sub) o.pc o.inst s (slotOrder s refs)
  | none =>
    let s := if drop then recordDrops key s refs else s
    s.arrive tid half off n drop

/-- When every arrival of a gang issue has been counted or rejected, its gang goes on (R263). -/
def State.endArrivals (s : State) (o : Op) : State :=
  if s.mem.ops.any fun p => p.grp == o.grp then s
  else (maskRefs o.ref.tid o.ref.bent 0xFF).foldl
    (fun s r => if (s.slice r).wait == .arrival o.grp then s.modSlice r (fun x => { x with wait := .none }) else s) s

/-- BARRIER_ARRIVAL_COUNT (R263): The sync engine counts or rejects a sealed arrival on a barrier word. -/
def execEvBarrierArrivalCount (op : Nat) (s : State) : Host.Outcome State Fault Refusal :=
  match s.op? op with
  | none => .next s
  | some o =>
    match o.kind with
    | .barrier what half off flag v =>
      if (s.team o.ref.tid).away then .next s else
      let half' := s.arrivalHalf o.ref what half off
      let tid := o.ref.tid
      if what ≤ 1 then
        let all := s.sameWord o what half off
        if all.any fun p => !p.performed then .next s
        else
          let s := dropOps s all
          let n := if flag then 1 else all.length
          .next ((s.countArrival o (all.map (·.ref)) half' off n flag (what == 1)).endArrivals o).retire
      else if !o.performed then .next s
      else
        let s := s.dropOp o.id
        let s := if what = 2 then s.bari tid half' off flag v.toNat else s.barx tid half' off
        .next (s.endArrivals o).retire
    | _ => .next s

/-- BARRIER_WAKE (R266): A parked gang re-enters the ready set two clocks after its satisfying completion. -/
def execEvBarrierWake (r : SliceRef) (s : State) : Host.Outcome State Fault Refusal :=
  match (s.slice r).wait with
  | .wake n sc =>
    let rs := s.gangRefs r
    let s := s.reachClock (s.partOfSlice r) n
    .next (acquireEach sc (releaseAll Slice.passThree s rs) rs)
  | _ => .next s

def removeFirst (p : Nat × Nat) : List (Nat × Nat) → List (Nat × Nat)
  | [] => []
  | q :: qs => if q = p then qs else q :: removeFirst p qs

/-! ## Groups (R275) -/

/-- An arrival of a slice for its team at a group. -/
def State.groupStep (s : State) (o : Op) (slot : Nat) (drop : Bool) : State :=
  let r := o.ref
  let t := s.team r.tid
  if t.dropped.getLsbD slot || t.arrived.getLsbD slot then faultBehind (barrierFault 1) o.pc o.inst s [r]
  else s.groupArrive r.tid slot drop

/-- GROUP_ARRIVAL (R275): The group barrier unit counts a team arrival at a group. -/
def execEvGroupArrival (op : Nat) (s : State) : Host.Outcome State Fault Refusal :=
  match s.op? op with
  | none => .next s
  | some o =>
    match o.kind with
    | .group slot drop =>
      if !o.performed || (s.team o.ref.tid).away then .next s
      else .next (((s.dropOp o.id).groupStep o slot drop).endArrivals o).retire
    | _ => .next s

/-! ## Queues (R278 to R282) -/

/-- The pushes of a request, lanes ascending: each lane with what its predicate becomes. -/
def State.pushAll (q : Nat) : State → List Elem → List (Nat × Bool) × State
  | s, [] => ([], s)
  | s, e :: es =>
    let (ok, s) := s.pushOne q e.data
    let (xs, s) := State.pushAll q s es
    ((e.lane, ok) :: xs, s)

def predWrites (p : Nat) (xs : List (Nat × Bool)) : List RegWrite :=
  xs.map fun x => { reg := .p p, lane := x.1, val := boolWord x.2 }

/-- QUEUE_PUSH_ARRIVAL (R279): A queue push is accepted into the on-chip or spill ring, or fails when full. -/
def execEvQueuePushArrival (op : Nat) (s : State) : Host.Outcome State Fault Refusal :=
  match s.op? op with
  | none => .next s
  | some o =>
    match o.kind with
    | .push q pred =>
      if !o.performed then .next s
      else
        let (xs, s) := State.pushAll q s o.elems
        .next ((s.settleOp o (predWrites pred xs) none).finishOp o)
    | _ => .next s

def State.popAll (q : Nat) : State → List Elem → List (Nat × Option (List Byte)) × State
  | s, [] => ([], s)
  | s, e :: es =>
    let (x, s) := s.popOne q
    let (xs, s) := State.popAll q s es
    ((e.lane, x) :: xs, s)

/-- A popped entry, or zeros, and whether there was one. -/
def popWrites (dst pred : Nat) (xs : List (Nat × Option (List Byte))) : List RegWrite :=
  xs.flatMap fun x => resultWrites .b128 false x.1 dst (natOfBytes (x.2.getD []))
    ++ [{ reg := .p pred, lane := x.1, val := boolWord x.2.isSome }]

/-- QUEUE_POP_ARRIVAL (R280): A queue pop returns the oldest entry per lane, or empty. Each entry is an acquire of its
push (R281). -/
def execEvQueuePopArrival (op : Nat) (s : State) : Host.Outcome State Fault Refusal :=
  match s.op? op with
  | none => .next s
  | some o =>
    match o.kind with
    | .pop q dst pred =>
      if !(s.ready o) then .next s
      else
        let (xs, s) := State.popAll q s o.elems
        .next (((s.settleOp o (popWrites dst pred xs) none).finishOp o).acquire o.ref .dev)
    | _ => .next s

/-- QUEUE_STAT_ARRIVAL (R280): A queue status request returns the count and status fields. -/
def execEvQueueStatArrival (op : Nat) (s : State) : Host.Outcome State Fault Refusal :=
  match s.op? op with
  | none => .next s
  | some o =>
    match o.kind with
    | .stat q dst =>
      if !(s.ready o) then .next s
      else .next ((s.settleOp o (writesFrom true 0 dst (s.queue q).stat) none).finishOp o)
    | _ => .next s

/-- SPILL_MOVE (R279): The queue engine moves spilled entries to the on-chip ring as pops free room. -/
def execEvSpillMove (q : Nat) (s : State) : Host.Outcome State Fault Refusal :=
  .next (if (s.queue q).valid then s.moveSpill q 256 else s)

/-- The quad of a queue's control record that holds VALID, ERR, CTX and SPLOG (R277): CTX and SPLOG hold while VALID is
1; VALID = 0 discards every entry; 1 in ERR clears it, with the spill ring emptied. -/
def Queue.writeLow (x : Queue) (v : Nat) : Queue :=
  let y := if x.valid then x else { x with ctx := bitsOf v 13 8, splog := bitsOf v 20 16 }
  let y := if bitOf v 1 then { y with err := false, shead := 0, scount := 0 } else y
  if bitOf v 0 then { y with valid := true } else { y with valid := false, ring := [], shead := 0, scount := 0 }

def Queue.writeBase (x : Queue) (v : Nat) : Queue :=
  if x.valid then x else { x with spbase := BitVec.ofNat 64 (v / 4096 * 4096) }

/-- QCR_WRITE (R277): Host configuration of a hardware task queue, discarding entries when VALID is cleared. -/
def execEvQcrWrite (q off : Nat) (v : Quad) (s : State) : Host.Outcome State Fault Refusal :=
  if q ≥ 4096 then .next s
  else
    match off with
    | 0 => .next (s.setQueue q ((s.queue q).writeLow v.toNat))
    | 8 => .next (s.setQueue q ((s.queue q).writeBase v.toNat))
    | _ => .next s

/-- The control record as the host reads it. -/
def Queue.qcr (x : Queue) (off : Nat) : Nat :=
  match off with
  | 0 => bitVal x.valid + 2 * bitVal x.err + x.ctx * 2 ^ 8 + x.splog * 2 ^ 16
  | 8 => x.spbase.toNat
  | 16 => x.ring.length + x.scount * 2 ^ 32
  | _ => 0

end Sys2Proof.Machine
end

