-- ==== Sys2Proof/Machine/Pool.lean ====
section
/-! DEFINITION. Packets and their entries: fields of the header, interrupts, completion and rejection (01 R34 to R39, 11
R341, R342, R351). -/

namespace Sys2Proof.Machine

/-! ## Interrupts (R37, R341, 14 R426) -/

def State.raiseIrq (s : State) (port fn vec : Nat) : State := { s with dev := { s.dev with irqs := s.dev.irqs ++ [{ port := port, fn := fn, vec := vec }] } }

/-- The MSI-X table of every function has 2,048 entries (14 R424). -/
def msixSize : Nat := 2048

/-- FN is the physical function, or one that FNMAP binds to the context. -/
def State.fnBinds (s : State) (hp ctx port fn : Nat) : Bool :=
  let m := (smGet 0 (128 * port + fn) s.dev.fnmap).toNat
  fn == 0 || (bitOf m 10 && bitsOf m 5 0 == ctx && bitsOf m 9 8 == hp)

/-- An event of the device as a whole: class 0 context, 1 fabric, 2 management. -/
def State.portIrq (s : State) (cls port v : Nat) : State :=
  if bitOf v (48 + cls) then
    let vec := bitsOf v (10 + 16 * cls) (16 * cls)
    if vec < msixSize then s.raiseIrq port 0 vec else s.bumpErr 22
  else s

def State.devIrq (s : State) (cls : Nat) : State :=
  (s.portIrq cls 0 s.dev.irqvec0.toNat).portIrq cls 1 s.dev.irqvec1.toNat

/-! ## Queues -/

def queueKey (hp ctx q : Nat) : Nat := 65536 * ccbKey hp ctx + q

def State.userQueue (s : State) (hp ctx q : Nat) : Option QueueReg := smFind (queueKey hp ctx q) s.dist.queues

def State.setUserQueue (s : State) (hp ctx q : Nat) (x : QueueReg) : State :=
  { s with dist := { s.dist with queues := smSet (queueKey hp ctx q) x s.dist.queues } }

/-- The interrupt of a completion, by the entry of its queue. -/
def State.queueIrq (s : State) (hp ctx q : Nat) : State :=
  match s.userQueue hp ctx q with
  | none => s.bumpErr 22
  | some x => if s.fnBinds hp ctx x.port x.fn && decide (x.vec < msixSize) then s.raiseIrq x.port x.fn x.vec else s.bumpErr 22

/-- The queue enters the error state (R36, 09 R290): ERR and ERRIDX. -/
def State.queueError (s : State) (hp ctx q idx : Nat) : State :=
  match s.userQueue hp ctx q with
  | none => s
  | some x =>
    let s := match s.tryRead hp ctx (x.hdr + 9) 1 with
      | .ok (b, s) => s.putLost hp ctx (x.hdr + 9) (bytesOfNat 1 (natOfBytes b / 2 * 2 + 1)) q idx
      | .error (c, s) => s.countMiss c
    s.putLost hp ctx (x.hdr + 24) (bytesOfNat 8 idx) q idx

/-! ## Headers (R34) -/

def Entry.n (e : Entry) : Nat := natOfBytes e.pkt
def Entry.kind (e : Entry) : Nat := e.n % 256
def Entry.irq (e : Entry) : Bool := bitOf e.n 9
def Entry.cls (e : Entry) : Nat := bitsOf e.n 17 16
def Entry.tlid (e : Entry) : Nat := bitsOf e.n 63 32
def Entry.tlval (e : Entry) : Nat := bitsOf e.n 127 64
def Entry.field (e : Entry) (hi lo : Nat) : Nat := bitsOf e.n hi lo

def State.entry? (s : State) (eid : Nat) : Option Entry := s.dist.entries.find? fun e => e.eid == eid
/-- An entry that may start: nothing of a saved context does (11 R358). -/
def State.toStart? (s : State) (eid : Nat) : Option Entry := (s.entry? eid).filter fun e => (s.ccb e.hp e.ctx).state != 3
def State.setEntry (s : State) (e : Entry) : State :=
  { s with dist := { s.dist with entries := s.dist.entries.map fun x => if x.eid = e.eid then e else x } }
def State.addEntry (s : State) (e : Entry) : State := { s with dist := { s.dist with entries := s.dist.entries ++ [e] } }
def State.dropEntry (s : State) (eid : Nat) : State :=
  { s with dist := { s.dist with entries := s.dist.entries.filter fun x => x.eid != eid } }

def State.graph? (s : State) (gid : Nat) : Option Graph := s.dist.graphs.find? fun g => g.gid == gid
def State.setGraph (s : State) (g : Graph) : State :=
  { s with dist := { s.dist with graphs := s.dist.graphs.map fun x => if x.gid = g.gid then g else x } }

/-- The address of a node's record (R346). -/
def Graph.nodeVa (g : Graph) (k : Nat) : Nat := g.gobj + 256 * (k + 1)

/-- WHERE of a record: the packet index, or the address of the node record. -/
def State.entryWhere (s : State) (e : Entry) : Nat :=
  match e.node with
  | some (gid, k) => match s.graph? gid with | some g => g.nodeVa k | none => 0
  | none => e.idx

/-- SRCKIND of the engine that works on a packet (R441). -/
def Entry.srcKind (e : Entry) : Nat :=
  match e.kind with
  | 2 => 1
  | 3 => 3
  | 4 => 3
  | 5 => 4
  | 6 => 1
  | _ => 7

/-- The pool entries of a context that have not been dispatched (R351). -/
def State.poolCount (s : State) (hp ctx : Nat) : Nat :=
  (s.dist.entries.filter fun e => e.hp == hp && e.ctx == ctx && decide (e.stage ≤ 2)).length

def poolSize : Nat := 4096

/-! ## Completion and rejection -/

/-- The work of an entry ends: its node completes, or it leaves the pool. -/
def State.endEntry (s : State) (e : Entry) (err : Bool) : State :=
  let s := s.dropEntry e.eid
  match e.node with
  | none => s
  | some (gid, k) =>
    match s.graph? gid with
    | none => s
    | some g => s.setGraph { g with nodes := smPut 0 k (if err then 3 else 2) g.nodes, ran := smPut 0 k (e.die + 1) g.ran }

/-- A packet or a node completes: its timeline advances, then its interrupt (R37, R39). -/
def State.completeEntry (s : State) (e : Entry) (err : Bool) : State :=
  let s := s.advance e.hp e.ctx e.tlid e.tlval err { kind := e.srcKind, source := e.q, where_ := s.entryWhere e }
  let s := if e.irq then s.queueIrq e.hp e.ctx e.q else s
  s.endEntry e err

/-- A rejection (R36): the record, nothing executed, no advance, the queue in error. A node that is rejected completes in
error, so that its graph can end. -/
def State.rejectEntry (s : State) (e : Entry) (cause : Nat) : State :=
  let s := s.logError e.hp e.ctx (wdRecord 1 cause e.q (s.entryWhere e) (e.pkt.take 16) s.ns)
  let s := match e.node with | none => s.queueError e.hp e.ctx e.q e.idx | some _ => s
  s.endEntry e true

/-- Device time has reached `ns`. -/
def State.reachNs (s : State) (ns : Nat) : State := s.reach (nsTicks ns)

end Sys2Proof.Machine
end

