-- ==== Sys2Proof/Machine/Copies.lean ====
section
/-! DEFINITION. Copies: descriptors, chunks, the bytes that a chunk moves, and what stops one (09 R293 to R299, R304,
R311 to R314). -/

namespace Sys2Proof.Machine

/-! ## Tile descriptors (R295, R296) -/

def intOf64 (n : Nat) : Int := if n ≥ 2 ^ 63 then (n : Int) - 2 ^ 64 else n

/-- The descriptor in 128 bytes; none when it is malformed for these bases. -/
def tileDescOf (bs : List Byte) (src dst : Nat) : Option TileDesc :=
  let n := natOfBytes bs
  let es : Nat := 2 ^ bitsOf n 2 0
  let dim := bitsOf n 10 8
  let ext := (List.range 5).map fun d => bitsOf n (63 + 32 * d) (32 + 32 * d)
  let sstr := (List.range 4).map fun d => bitsOf n (319 + 64 * d) (256 + 64 * d)
  let dstr := (List.range 4).map fun d => bitsOf n (575 + 64 * d) (512 + 64 * d)
  let strides := (sstr ++ dstr).map intOf64
  let low := ext.take dim
  if bitsOf n 2 0 > 4 ∨ bitsOf n 7 3 ≠ 0 ∨ bitsOf n 31 11 ≠ 0 ∨ bitsOf n 255 192 ≠ 0 ∨ n / 2 ^ 768 ≠ 0 then none
  else if dim = 0 ∨ dim > 5 ∨ low.any (· == 0) ∨ (ext.drop dim).any (· != 0) then none
  else if (sstr.drop (dim - 1)).any (· != 0) ∨ (dstr.drop (dim - 1)).any (· != 0) then none
  else if strides.any (fun x => x % (es : Int) != 0) ∨ src % es ≠ 0 ∨ dst % es ≠ 0 ∨ low.prod > 2 ^ 32 then none
  else some { es := es, ext := low, sstr := (sstr.take (dim - 1)).map intOf64, dstr := (dstr.take (dim - 1)).map intOf64 }

/-- The indices of an element by its linear index, i0 fastest. -/
def coordsOf : List Nat → Nat → List Nat
  | [], _ => []
  | e :: es, k => k % e :: coordsOf es (k / e)

def dotStride : List Nat → List Int → Int
  | i :: is, s :: ss => (i : Int) * s + dotStride is ss
  | _, _ => 0

/-- The byte offset of an element on a side. -/
def TileDesc.offset (t : TileDesc) (str : List Int) (k : Nat) : Int :=
  match coordsOf t.ext k with
  | [] => 0
  | i :: is => (i * t.es : Nat) + dotStride is str

/-- The lowest and highest of (extent − 1) × stride, summed. -/
def strideSpan : List Nat → List Int → Int × Int
  | e :: es, s :: ss =>
    let (lo, hi) := strideSpan es ss
    let x := ((e : Int) - 1) * s
    (lo + min 0 x, hi + max 0 x)
  | _, _ => (0, 0)

/-- The bounding interval of a side (R296). -/
def TileDesc.bounds (t : TileDesc) (base : Nat) (str : List Int) : Int × Int :=
  match t.ext with
  | [] => (base, base)
  | e :: es =>
    let (lo, hi) := strideSpan es str
    ((base : Int) + lo, (base : Int) + hi + (e * t.es : Nat))

/-! ## A copy's sides -/

def Copy.dstBounds (c : Copy) : Int × Int :=
  match c.desc with
  | some t => t.bounds c.dst t.dstr
  | none => (c.dst, (c.dst + c.len : Nat))

def Copy.srcBounds (c : Copy) : Int × Int :=
  match c.desc with
  | some t => t.bounds c.src t.sstr
  | none => (c.src, (c.src + c.len : Nat))

def intervalsMeet (a b : Int × Int) : Bool := decide (a.1 < b.2 ∧ b.1 < a.2)

/-- R294: intervals of one space that overlap. -/
def Copy.overlaps (c : Copy) : Bool := c.dsp == c.ssp && intervalsMeet c.dstBounds c.srcBounds

/-- The element size of a page format, in bits. -/
def fmtBits (fmt : Nat) : Nat := tyWidth (pageTy fmt .z8)

/-- The format by which a convert reads: a raw page holds the type asked for (02 R64). -/
def readFmt (f f' : Nat) : Nat := if f = 0 then f' else f

/-- How many chunks a copy has (R299). -/
def Copy.chunks (c : Copy) : Nat :=
  match c.desc with
  | some t => (t.ext.prod * t.es + 2047) / 2048
  | none => if c.len = 0 then 0 else (c.dst + c.len - 1) / 2048 - c.dst / 2048 + 1

/-- The bytes of a chunk, as the deficits count them. -/
def Copy.chunkBytes (c : Copy) (k : Nat) : Nat :=
  match c.desc with
  | some t => min 2048 (t.ext.prod * t.es - 2048 * k)
  | none =>
    let base := (c.dst / 2048 + k) * 2048
    min (c.dst + c.len) (base + 2048) - max c.dst base

/-! ## Units: bytes that move together -/

structure CopyUnit where
  src : Nat
  sn : Nat
  dst : Nat
  dn : Nat

/-- A run of bytes cut so that neither side crosses a multiple of 32. -/
def cutRun (s d n : Nat) : Nat → List CopyUnit
  | 0 => []
  | k + 1 =>
    if n = 0 then []
    else
      let m := min n (min (32 - s % 32) (32 - d % 32))
      { src := s, sn := m, dst := d, dn := m } :: cutRun (s + m) (d + m) (n - m) k

def wrap64 (x : Int) : Nat := (x % (2 ^ 64 : Int)).toNat

/-- Element e of a tile copy. -/
def Copy.element (c : Copy) (t : TileDesc) (e : Nat) : CopyUnit :=
  { src := wrap64 (c.src + t.offset t.sstr e), sn := t.es, dst := wrap64 (c.dst + t.offset t.dstr e), dn := t.es }

/-- The destination sectors of the elements of a tile from a up to b: each element lies in one. -/
def Copy.tileSectors (c : Copy) (t : TileDesc) (a b : Nat) : List Nat := (List.range (b - a)).map fun j => (c.element t (a + j)).dst / 32

/-- The elements of a tile before `b` whose destination sectors are named by `here` and not by `later`. -/
def Copy.tileUnits (c : Copy) (t : TileDesc) (b : Nat) (here later : List Nat) : List CopyUnit :=
  ((List.range b).map (c.element t)).filter fun u => here.contains (u.dst / 32) && !(later.contains (u.dst / 32))

/-- The units of a chunk. A destination sector of a tile is written whole, with the last chunk that names it, so that no load sees a
mixture (R311). -/
def Copy.units (c : Copy) (k : Nat) : List CopyUnit :=
  match c.desc with
  | some t =>
    let per := 2048 / t.es
    let n := t.ext.prod
    let b := min n (per * (k + 1))
    if n ≤ per then (List.range n).map (c.element t)
    else c.tileUnits t b (c.tileSectors t (per * k) b) (c.tileSectors t b n)
  | none =>
    let base := (c.dst / 2048 + k) * 2048
    let lo := max c.dst base
    let n := min (c.dst + c.len) (base + 2048) - lo
    let s := c.src + (lo - c.dst)
    if c.op = 2 then
      let es := tyBytes c.ety
      (List.range (n / es)).map fun j => { src := s + es * j, sn := es, dst := lo + es * j, dn := es }
    else cutRun s lo n (n / 16 + 4)

/-- The units of the chunks before chunk k of a tile that are still to be written. -/
def Copy.lateUnits (c : Copy) (k : Nat) : List CopyUnit :=
  match c.desc with
  | some t =>
    let b := 2048 / t.es * k
    c.tileUnits t b (c.tileSectors t b t.ext.prod) []
  | none => []

/-! ## Places -/

/-- A run of bytes that a copy reaches: memory under a KEYID, with its page's attributes; scratchpad or Plate. -/
inductive Place where
  | mem (pa n key fmt geom : Nat)
  | scratch (half off n : Nat)
  | plate (half off n : Nat)
  deriving DecidableEq, Repr

/-- Why a chunk does not go on: a recoverable fault, an error, or a line that is held. -/
inductive CopyStop where
  | absent (fid va : Nat)
  | error (status va : Nat)
  | held
  deriving DecidableEq, Repr

/-- A fault record of an engine (06 R176). -/
def State.engineFault (s : State) (hp ctx source unit level : Nat) (mig : Bool) (va : Nat) (acc : Access) : Nat × State :=
  s.openFault { fid := 0, hp := hp, ctx := ctx, level := level, va := faultKey level va, mig := mig, access := accessBit acc,
                source := source, unit_ := unit, team := ctx, bent := 0, slice := 0, tag := none }

/-- The number by which a copy engine's held writes are known (06 R208). -/
def engineSource (engine : Nat) : Nat := 1000 + engine

/-- A run within one page of a copy's global side. -/
def State.copyPage (s : State) (c : Copy) (acc : Access) (va n : Nat) : Except CopyStop Place × State :=
  match s.xlate c.hp c.ctx va acc with
  | (.ok e pa, s) =>
    let rt := if isWrite acc then s.writeRoute (engineSource c.engine) pa else s.readRoute (engineSource c.engine) pa
    let pa := rt.addr pa
    if rt.isHeld || s.rangeHeld pa n then (.error .held, s)
    else if s.reachable c.hp e.keyid pa then (.ok (.mem pa n e.keyid e.fmt e.geom), s)
    else (.error (.error 8 va), (s.countKey e.keyid).bumpErr 7)
  | (.absent level mig, s) =>
    let (fid, s) := s.engineFault c.hp c.ctx 1 c.engine level mig va acc
    (.error (.absent fid va), s)
  | (_, s) => (.error (.error 7 va), s)

/-- A global run over page boundaries. -/
def State.copyGlobal (c : Copy) (acc : Access) : Nat → State → Nat → Nat → Except CopyStop (List Place) × State
  | 0, s, _, _ => (.ok [], s)
  | k + 1, s, va, n =>
    if n = 0 then (.ok [], s)
    else
      let m := min n (4096 - va % 4096)
      match s.copyPage c acc va m with
      | (.error e, s) => (.error e, s)
      | (.ok p, s) =>
        match State.copyGlobal c acc k s ((va + m) % 2 ^ 64) (n - m) with
        | (.error e, s) => (.error e, s)
        | (.ok ps, s) => (.ok (p :: ps), s)

/-- A run of a side: R32 and R33 bound the scratchpad and the Plate (status 6). -/
def State.copyPlaces (s : State) (c : Copy) (space : Nat) (acc : Access) (va n : Nat) : Except CopyStop (List Place) × State :=
  let t := s.team c.ref.tid
  match space with
  | 0 => State.copyGlobal c acc 3 s va n
  | 1 =>
    match scratchAt t c.ref.bent n va with
    | some (half, off) => (.ok [.scratch half off n], s)
    | none => (.error (.error 6 va), s)
  | _ => if va + n ≤ t.desc.plate then (.ok [.plate (t.halfOf c.ref.bent) va n], s) else (.error (.error 6 va), s)

def plateKey (half off : Nat) : Nat := half * 2 ^ 24 + off

/-- The bytes at a place, and whether a sector of them is poisoned. -/
def State.readPlace (s : State) (tid : Nat) : Place → List Byte × Bool
  | .mem pa n _ _ _ => (memReadN s.mem.bytes pa n, s.poisoned pa n)
  | .scratch half off n => ((s.team tid).scratchBytes half off n, false)
  | .plate half off n => (bytesGet (s.team tid).plate (plateKey half off) n, false)

def State.readPlaces (s : State) (tid : Nat) (ps : List Place) : List Byte × Bool :=
  (ps.flatMap fun p => (s.readPlace tid p).1, ps.any fun p => (s.readPlace tid p).2)

def poisonRun (p : SMap Bool) (pa n : Nat) : Nat → SMap Bool
  | 0 => p
  | k + 1 => let q := poisonRun p pa n k; if (sectorOf pa + k) * 32 < pa + n then setPoison q (sectorOf pa + k) true else q

/-- What stands in place of bytes whose sector is poisoned, in a memory that keeps no poison: free values. -/
def State.lostBytes (s : State) (off n : Nat) : List Byte := (List.range n).map fun i => Config.freeByte s.free (off + i)

/-- Bytes performed at a place; `bad` carries poison with them (06 R188). The scratchpad and the Plate keep no poison: what they
receive of a poisoned sector is a free value (DEDUCED, log entry 53). -/
def State.writePlace (s : State) (client : Client) (hp tid : Nat) (bs : List Byte) (bad : Bool) : Place → State
  | .mem pa n key _ _ =>
    let s := s.commitAll (homeWriter (s.region hp pa).home) pa bs key client
    if bad then { s with mem := { s.mem with poison := poisonRun s.mem.poison pa n (n / 32 + 2) } } else s
  | .scratch half off n =>
    if bad then { s.modTeam tid (fun t => t.putScratch half off (s.lostBytes off n)) with free := s.free + 1 }
    else s.modTeam tid fun t => t.putScratch half off bs
  | .plate half off n =>
    if bad then { s.modTeam tid (fun t => { t with plate := bytesPut t.plate (plateKey half off) (s.lostBytes off n) }) with free := s.free + 1 }
    else s.modTeam tid fun t => { t with plate := bytesPut t.plate (plateKey half off) bs }

def Place.size : Place → Nat
  | .mem _ n _ _ _ => n
  | .scratch _ _ n => n
  | .plate _ _ n => n

def State.writePlaces (client : Client) (hp tid : Nat) (bad : Bool) : State → List Byte → List Place → State
  | s, _, [] => s
  | s, bs, p :: ps => State.writePlaces client hp tid bad (s.writePlace client hp tid (bs.take p.size) bad p) (bs.drop p.size) ps

/-- A page of other attributes (02 R65). -/
def Place.differs (fmt geom : Nat) : Place → Bool
  | .mem _ _ _ f g => f != fmt || g != geom
  | _ => false

/-- The lines of a place in memory. -/
def Place.lines : Place → List Nat
  | .mem pa n _ _ _ => (List.range (lineOf (pa + n - 1) + 1 - lineOf pa)).map fun k => lineOf pa + k
  | _ => []

/-- A place in host memory: what goes there leaves the device. -/
def State.leaves (s : State) (hp : Nat) : Place → Bool
  | .mem pa _ _ _ _ => (s.region hp pa).isHost
  | _ => false

/-- Data leave the device only after the deferred windows that hold their lines have closed (07 R235). -/
def State.windowsKeep (s : State) (hp : Nat) (src dest : List Place) : Bool :=
  dest.any (s.leaves hp) && !(s.openWindows (some (src.flatMap Place.lines))).isEmpty

/-! ## Converting (R294, 02 R60, R64) -/

/-- The exact value of an element of a page format, by its code. -/
def codeValue (ty : Ty) (code : Nat) : FVal :=
  match tyFmt ty with
  | some f => f.operand false code
  | none => .fin (Dyad.ofInt (intVal ty code))

/-- The types that R50's table covers take its saturation. -/
def narrowTy (t : Ty) : Bool := tyWidth t ≤ 8

/-- A value as the code of a page format. -/
def cvtCode (t : Ty) (v : FVal) : Nat :=
  let m : FMode := { rnd := .rn, sat := narrowTy t, ftz := false }
  match tyFmt t with
  | some f => (convertTo f m v).1
  | none => wrapInt (tyWidth t) (floatToInt .rn (tySigned t) (tyWidth t) v).1

/-- Codes of `w` bits packed from the lowest bit up. -/
def packCodes (w : Nat) : List Nat → Nat
  | [] => 0
  | c :: cs => c % 2 ^ w + 2 ^ w * packCodes w cs

/-- A fixed-geometry segment by the block rule of R60, with the layout of R55. -/
def fixedSegment (geom : Nat) (xs : List FVal) : List Byte :=
  let step := if geom = 1 then 4 else 2
  let blocks := quantBlocks xs ((List.range (32 / step)).map (· * step))
  let codes := pairCodes (blocks.flatMap (·.codes))
  let scales := blocks.map fun b => BitVec.ofNat 8 b.scale
  let extras := blocks.map fun b => BitVec.ofNat 8 b.extra
  if geom = 1 then codes ++ scales ++ extras ++ List.replicate 16 0 else codes ++ scales ++ extras

/-- A whole segment of values. -/
def segmentBytes (geom thresh : Nat) (xs : List FVal) : List Byte := if geom = 3 then (quantise xs thresh).1 else fixedSegment geom xs

/-- Values as elements of `w` half bytes each, from half byte `off` on of what stands there. -/
def elementBytes (fmt off w : Nat) (xs : List FVal) (old : List Byte) : List Byte :=
  bytesOfNat old.length (setBits (natOfBytes old) (4 * (off + w * xs.length) - 1) (4 * off) (packCodes (4 * w) (xs.map (cvtCode (pageTy fmt .z8)))))

/-! ## A chunk, prepared and applied -/

/-- A unit whose sides are translated: the source bytes, or for a convert what it stores; the poison of the source. -/
structure Ready where
  u : CopyUnit
  data : List Byte
  bad : Bool
  dest : List Place

def State.prepare (c : Copy) : State → List CopyUnit → Except CopyStop (List Ready) × State
  | s, [] => (.ok [], s)
  | s, u :: us =>
    match s.copyPlaces c c.ssp .read u.src u.sn with
    | (.error e, s) => (.error e, s)
    | (.ok src, s) =>
      match s.copyPlaces c c.dsp (if c.op = 2 then .atomic else .write) u.dst u.dn with
      | (.error e, s) => (.error e, s)
      | (.ok dest, s) =>
        let (bs, bad) := s.readPlaces c.ref.tid src
        if s.windowsKeep c.hp src dest then (.error .held, s)
        else
          match State.prepare c s us with
          | (.error e, s) => (.error e, s)
          | (.ok rs, s) => (.ok ({ u := u, data := bs, bad := bad, dest := dest } :: rs), s)

/-! ### A convert: elements one after another, each by the page that holds its byte 0 (R294, 02 R64 to R66) -/

/-- The address of a half byte. -/
def halfAt (base h : Nat) : Nat := (base + h / 2) % 2 ^ 64

/-- Half bytes of an element. -/
def fmtHalves (fmt : Nat) : Nat := fmtBits fmt / 4

/-- An element of whole bytes begins on one. -/
def wholeByte (w h : Nat) : Nat := if w = 1 then h else (h + 1) / 2 * 2

/-- The attributes of the page that holds a byte. -/
def State.cvtPage (s : State) (c : Copy) (acc : Access) (va : Nat) : Except CopyStop (Nat × Nat) × State :=
  match s.copyPage c acc va 1 with
  | (.ok (.mem _ _ _ f g), s) => (.ok (f, g), s)
  | (.ok _, s) => (.ok (0, 0), s)
  | (.error e, s) => (.error e, s)

/-- Values read, the poison among them, the lines they come from, and where the convert then stands. -/
structure CvtRead where
  vals : List FVal
  bad : Bool
  src : List Place
  pos : CvtPos

/-- How many elements of `w` half bytes end in the sector of a half byte, at least one. -/
def sectorElems (base h w : Nat) : Nat := max 1 ((64 - (2 * base + h) % 64) / w)

/-- At most `n` elements from where the convert stands: of one segment, or of one sector. A segment that reaches a page of other
attributes, or is malformed, is a format error (02 R57, R65). -/
def State.cvtRun (s : State) (c : Copy) (want : Nat) (p : CvtPos) (n : Nat) : Except CopyStop CvtRead × State :=
  match s.cvtPage c .read (halfAt c.src p.src) with
  | (.error e, s) => (.error e, s)
  | (.ok (f, g), s) =>
    let w := fmtHalves (readFmt f want)
    let h := if g = 0 then wholeByte w p.src else p.src
    let va := halfAt c.src h
    let m := if g = 0 then min n (sectorElems c.src h w) else min n (256 - p.seg)
    match State.copyGlobal c .read 3 s va (if g = 0 then (h % 2 + m * w + 1) / 2 else 160) with
    | (.error e, s) => (.error e, s)
    | (.ok src, s) =>
      let (bs, bad) := s.readPlaces c.ref.tid src
      if g = 0 then
        let vals := (List.range m).map fun j => codeValue (pageTy (readFmt f want) .z8) (natOfBytes bs / 2 ^ (4 * (h % 2 + j * w)) % 2 ^ (4 * w))
        (.ok { vals := vals, bad := bad, src := src, pos := { p with idx := p.idx + m, src := h + m * w, seg := 0 } }, s)
      else if src.any (Place.differs f g) || (g == 3 && svbMalformed bs) then (.error (.error 9 va), s)
      else
        let p := { p with idx := p.idx + m }
        (.ok { vals := (List.range m).map fun j => segValue g bs (p.seg + j), bad := bad, src := src
               pos := if p.seg + m = 256 then { p with src := p.src + 320, seg := 0 } else { p with seg := p.seg + m } }, s)

/-- `n` elements. -/
def State.cvtGather (c : Copy) (want : Nat) : Nat → State → CvtPos → Nat → Except CopyStop CvtRead × State
  | 0, s, p, _ => (.ok { vals := [], bad := false, src := [], pos := p }, s)
  | k + 1, s, p, n =>
    if n = 0 then (.ok { vals := [], bad := false, src := [], pos := p }, s)
    else
      match s.cvtRun c want p n with
      | (.error e, s) => (.error e, s)
      | (.ok x, s) =>
        match State.cvtGather c want k s x.pos (n - x.vals.length) with
        | (.error e, s) => (.error e, s)
        | (.ok y, s) => (.ok { vals := x.vals ++ y.vals, bad := x.bad || y.bad, src := x.src ++ y.src, pos := y.pos }, s)

/-- The elements of one destination sector, or one destination segment, read and encoded. A raw destination, or a block-scaled one
that is not whole segments on 32 bytes of one page format, is a format error. -/
def State.cvtUnit (s : State) (c : Copy) (p : CvtPos) : Except CopyStop (Ready × CvtPos) × State :=
  match s.cvtPage c .write (halfAt c.dst p.dst) with
  | (.error e, s) => (.error e, s)
  | (.ok (f, g), s) =>
    let w := fmtHalves f
    let h := if g = 0 then wholeByte w p.dst else p.dst
    let va := halfAt c.dst h
    if f = 0 ∨ (g ≠ 0 ∧ (c.len % 256 ≠ 0 ∨ c.dst % 32 ≠ 0 ∨ p.dst % 64 ≠ 0 ∨ c.len < p.idx + 256)) then (.error (.error 9 va), s)
    else
      let n := if g = 0 then min (c.len - p.idx) (sectorElems c.dst h w) else 256
      match State.cvtGather c f 257 s p n with
      | (.error e, s) => (.error e, s)
      | (.ok x, s) =>
        match State.copyGlobal c .write 3 s va (if g = 0 then (h % 2 + n * w + 1) / 2 else 160) with
        | (.error e, s) => (.error e, s)
        | (.ok dest, s) =>
          if g ≠ 0 ∧ dest.any (Place.differs f g) then (.error (.error 9 va), s)
          else if s.windowsKeep c.hp x.src dest then (.error .held, s)
          else
            let old := (s.readPlaces c.ref.tid dest).1
            let bs := if g = 0 then elementBytes f (h % 2) w x.vals old else segmentBytes g c.thresh x.vals
            (.ok ({ u := { src := halfAt c.src p.src, sn := 0, dst := va, dn := bs.length }, data := bs, bad := x.bad, dest := dest },
                  { x.pos with dst := if g = 0 then h + n * w else h + 320 }), s)

/-- Units until the destination has reached a half byte, each with where the convert then stands. -/
def State.cvtUnits (c : Copy) (till : Nat) : Nat → State → CvtPos → Except CopyStop (List (Ready × CvtPos)) × State
  | 0, s, _ => (.ok [], s)
  | k + 1, s, p =>
    if c.len ≤ p.idx ∨ till ≤ p.dst then (.ok [], s)
    else
      match s.cvtUnit c p with
      | (.error e, s) => (.error e, s)
      | (.ok (r, p), s) =>
        match State.cvtUnits c till k s p with
        | (.error e, s) => (.error e, s)
        | (.ok rs, s) => (.ok ((r, p) :: rs), s)

/-- The units up to the last that ends on a sector: what follows is written with the next chunk, so that no load sees a mixture
(R311). -/
def wholeSectors (base : Nat) : List (Ready × CvtPos) → List (Ready × CvtPos)
  | [] => []
  | x :: xs => if (x :: xs).any fun y => (2 * base + y.2.dst) % 64 == 0 then x :: wholeSectors base xs else []

/-- More units than a chunk has. -/
def cvtFuel : Nat := 8192

/-! ### Chunks -/

/-- A chunk that may go: its units, its bytes as the deficits count them, and the copy once it has been sent. -/
structure Chunk where
  units : List Ready
  bytes : Nat
  copy : Copy

/-- The next chunk of a convert: the elements whose destination bytes first fill 2,048 (R299). -/
def State.cvtChunk (s : State) (c : Copy) : Except CopyStop Chunk × State :=
  match State.cvtUnits c (c.pos.mark + 4096) cvtFuel s c.pos with
  | (.error e, s) => (.error e, s)
  | (.ok xs, s) =>
    let stop := match xs.getLast? with | some x => x.2 | none => c.pos
    let ys := if stop.idx < c.len then wholeSectors c.dst xs else xs
    let p := match ys.getLast? with | some y => y.2 | none => c.pos
    (.ok { units := ys.map (·.1), bytes := (stop.dst + 1) / 2 - (c.pos.mark + 1) / 2, copy := { c with pos := { p with mark := stop.dst } } }, s)

/-- What a unit stores. -/
def State.unitBytes (s : State) (c : Copy) (r : Ready) : List Byte :=
  if c.op = 2 then bytesOfNat r.u.dn (atomNew c.rop c.ety (natOfBytes (s.readPlaces c.ref.tid r.dest).1) (natOfBytes r.data) 0) else r.data

/-- Applies the units; the second part is the first address at which poison was met. A reduce leaves a poisoned element as it was. -/
def State.applyUnits (c : Copy) : State → List Ready → State × Option Nat
  | s, [] => (s, none)
  | s, r :: rs =>
    let badTo := c.op == 2 && (s.readPlaces c.ref.tid r.dest).2
    let s := if r.bad || badTo then s.bumpErr 6 else s
    let s := if c.op == 2 && (r.bad || badTo) then s else State.writePlaces (.copy c.cid) c.hp c.ref.tid r.bad s (s.unitBytes c r) r.dest
    let (s, b) := State.applyUnits c s rs
    (s, if r.bad then some r.u.src else if badTo then some r.u.dst else b)

/-! ## The list of copies -/

def State.copy? (s : State) (cid : Nat) : Option Copy := s.copy.copies.find? fun c => c.cid == cid
def State.setCopy (s : State) (c : Copy) : State :=
  { s with copy := { s.copy with copies := s.copy.copies.map fun x => if x.cid = c.cid then c else x } }
def State.dropCopy (s : State) (cid : Nat) : State :=
  { s with copy := { s.copy with copies := s.copy.copies.filter fun x => x.cid != cid } }

/-- The first failing address stands. -/
def Copy.failAt (c : Copy) (va : Nat) : Copy := if c.status = 0 ∧ c.bad.isNone then { c with failva := va } else c

/-- An error stops the unsent chunks (R312). -/
def Copy.fail (c : Copy) (status va : Nat) : Copy := { c.failAt va with halted := true, status := status }

/-- Poison met, in the source or under a reduce. -/
def Copy.spoil (c : Copy) (va : Option Nat) : Copy :=
  match va with
  | some va => { c.failAt va with bad := some (c.bad.getD va) }
  | none => c

/-- The status with which a copy completes. -/
def Copy.final (c : Copy) : Copy := if c.status = 0 ∧ c.bad.isSome then { c with status := 8 } else c

/-- A recoverable fault abandons the copy until its answer (R312). -/
def Copy.pause (c : Copy) (fid va : Nat) : Copy :=
  { c.failAt va with waits := [fid], abandoned := true }

/-- A chunk has been sent and has performed. The chunks of a reduce that are applied are noted: all of an instruction's, those of its
segment of a packet's (R314). -/
def Copy.sent (c : Copy) (k : Nat) : Copy :=
  let c := { c with next := k + 1 }
  if c.op = 2 then
    if c.eid.isSome ∧ c.segbase + 8192 ≤ k + 1 then { c with applied := [], segbase := c.segbase + 8192 } else { c with applied := c.applied ++ [k] }
  else c

/-- The next chunk of a copy, with those that are applied passed over. -/
def Copy.nextChunk (c : Copy) : Nat → Nat
  | 0 => c.next
  | f + 1 =>
    let c' := { c with next := c.next + 1 }
    if c.applied.contains c.next || (c.op == 2 && decide (c.next < c.segbase)) then Copy.nextChunk c' f else c.next

def Copy.head (c : Copy) : Nat := if c.op = 2 then max c.segbase (Copy.nextChunk { c with next := max c.next c.segbase } 8193) else c.next

/-- Something is left to send. -/
def Copy.more (c : Copy) : Bool := if c.op = 3 then decide (c.pos.idx < c.len) else decide (c.head < c.chunks)

/-- A copy has a chunk to send. -/
def Copy.ready (c : Copy) : Bool := c.started && !c.abandoned && !c.halted && c.waits.isEmpty && c.lost.isNone && c.more

/-- Every chunk has performed, or no more will be sent. -/
def Copy.moved (c : Copy) : Bool := c.started && !c.abandoned && c.waits.isEmpty && (c.halted || c.lost.isSome || !c.more)

def State.prepareChunk (s : State) (c : Copy) : Except CopyStop Chunk × State :=
  if c.op = 3 then s.cvtChunk c
  else
    match State.prepare c s (c.units c.head) with
    | (.error e, s) => (.error e, s)
    | (.ok rs, s) => (.ok { units := rs, bytes := c.chunkBytes c.head, copy := c.sent c.head }, s)

/-- The chunks in flight finish as a copy stops: what is sent of its last sectors is written (R312). -/
def State.flushLate (s : State) (c : Copy) : State :=
  if c.op = 3 then
    match State.cvtUnits c c.pos.mark cvtFuel s c.pos with
    | (.ok xs, s) => (State.applyUnits c s (xs.map (·.1))).1
    | _ => s
  else
    match State.prepare c s (c.lateUnits c.head) with
    | (.ok rs, s) => (State.applyUnits c s rs).1
    | _ => s

/-- Sends the next chunk of a copy: the bytes that the deficits count, and the state. None where it has to wait. -/
def State.sendChunk (s : State) (c : Copy) : Option (Nat × State) :=
  match s.prepareChunk c with
  | (.error .held, _) => none
  | (.error (.absent fid va), s) => some (0, (s.flushLate c).setCopy (c.pause fid va))
  | (.error (.error st va), s) => some (0, (s.flushLate c).setCopy (c.fail st va))
  | (.ok k, s) =>
    let (s, bad) := State.applyUnits c s k.units
    some (k.bytes, s.setCopy (k.copy.spoil bad))

end Sys2Proof.Machine
end

