-- ==== Sys2Proof/Machine/CopyIssue.lean ====
section
/-! DEFINITION. The class XP: CPY, CPYT, CPYR, CPYM, TLWT and TLRD (09 R300 to R309). -/

namespace Sys2Proof.Machine

/-! ## Issue of a copy -/

def copyFault (sub : Nat) : FaultInfo := faultAll causeCopy sub

/-- s(n) to s(n+7). -/
def blockRegs (a : BitVec 8) : List Reg := regGroup true 8 (a.toNat - 128)
def Slice.block (x : Slice) (a : BitVec 8) : List Word := (List.range 8).map fun i => x.getS (a.toNat - 128 + i)
def wordAt (b : List Word) (i : Nat) : Nat := (b.getD i 0).toNat
def pairAt (b : List Word) (i : Nat) : Nat := wordAt b i + wordAt b (i + 1) * 2 ^ 32

/-- The copy engine of a cluster's instructions (R289). -/
def clusterEngine (cl : Nat) : Nat := 4 * (cl / 48) + cl % 48 / 12

def engineRoom : Nat := 4096

/-- Pending copies of an engine context, the packets that it has taken and not started among them. -/
def State.pendingCopies (s : State) (engine hp ctx : Nat) : Nat :=
  (s.copy.copies.filter fun c => c.engine == engine && c.hp == hp && c.ctx == ctx).length
    + (s.dist.entries.filter fun e => e.kind == 2 && (e.stage == 3 || e.stage == 5) && e.engine == engine && e.hp == hp && e.ctx == ctx).length

/-- The barrier word that BAR and BOFF name (R300): R32 over 8 bytes. -/
def copyBar (s : State) (r : SliceRef) (w : Mem) : Except FaultInfo (Option (Nat × Nat)) :=
  if w.ord == .acq then
    match checkScratch (s.team r.tid) r.bent 8 8 [(0, (w.off.toInt % (2 ^ 32 : Int)).toNat)] with
    | .error f => .error { f with lanes := 15 }
    | .ok (a :: _) => .ok (some (a.half, a.off))
    | .ok [] => .ok none
  else .ok none

/-- What a descriptor read at issue gives. -/
inductive DescRead where
  | ok (d : Option TileDesc) (s : State)
  | bad (x : SliceStep)

/-- The descriptor of CPYT or CPYM, read by an acquire-free load at dev scope (R302). -/
def readDesc (i : Instr) (s : State) (r : SliceRef) (va src dst : Nat) : DescRead :=
  if va % 64 ≠ 0 then .bad (.ok s (.trap (copyFault 1) none))
  else
    let tm := s.team r.tid
    let (c, s) := s.checkLanes r .read 1 (fun _ => false) [(0, va), (0, (va + 64) % 2 ^ 64)]
    match c with
    | .ok accs =>
      let o := newOp s r i .l .dev (.load .b128 true 0) (accs.map fun a => a.elem 64 [] []) false (s.anyHost tm.hp accs) none
      if s.mustWait o false then .bad (.stall .retry)
      else
        let (xs, s) := State.readLanes { s.loadOf r false 0 with via := if o.host || s.anyMsa accs then .home else .l1, client := .none } 64 s accs
        match poisonFault xs with
        | some f => .bad (.ok s (.trap { f with lanes := 15 } none))
        | none =>
          match tileDescOf (xs.flatMap fun p => p.2.getD []) src dst with
          | none => .bad (.ok s (.trap (copyFault 1) none))
          | some d => .ok (some d) s
    | .fault f => .bad (.ok s (.trap { f with lanes := 15 } none))
    | .absent fids _ addr => .bad (.ok s (.park (.fault fids 15 (BitVec.ofNat 64 addr))))

/-- Status 1 of a copy block (R302): `op` 2 is CPYR, `follow` CPYM. -/
def blockMalformed (op : Nat) (follow : Bool) (b : List Word) : Bool :=
  let ctl := wordAt b 0
  bitsOf ctl 15 8 != 0 || bitsOf ctl 1 0 == 3 || decide (bitsOf ctl 3 2 ≥ 2) || decide (bitsOf ctl 7 4 > 5)
    || (bitsOf ctl 7 4 != 0 && op != 2) || (follow && bitsOf ctl 1 0 == 0)

/-- The faults of R302 from status 2 on. -/
def copyStatus (s : State) (c : Copy) : Option Nat :=
  let es := tyBytes c.ety
  if c.op = 2 ∧ (c.dst % es ≠ 0 ∨ c.src % es ≠ 0 ∨ c.len % es ≠ 0 ∨ c.len > 2 ^ 24) then some 2
  else if c.overlaps then some 3
  else if c.scope = .team ∧ (c.dsp = 0 ∨ c.ssp = 0) then some 4
  else if c.tlid ≠ 0 ∧ (s.timelineVa c.hp c.ctx c.tlid).isNone then some 5
  else none

/-- The copy that a block describes. -/
def blockCopy (s : State) (r : SliceRef) (i : Instr) (w : Mem) (op token : Nat) (b : List Word) (desc : Option TileDesc)
    (bar : Option (Nat × Nat)) (follow : Option (List Word)) : Copy :=
  let tm := s.team r.tid
  let x := s.slice r
  { cid := s.mem.nextOp, engine := clusterEngine (s.clusterOf r), hp := tm.hp, ctx := tm.ctx, cls := 1, eid := none, ref := r,
    token := token, op := op, scope := w.scope, dsp := bitsOf (wordAt b 0) 1 0, ssp := bitsOf (wordAt b 0) 3 2,
    dst := pairAt b 2, src := pairAt b 4, len := wordAt b 1, ety := w.ty, rop := bitsOf (wordAt b 0) 7 4, thresh := 0,
    desc := desc, tlid := bitsOf (wordAt b 0) 31 16, tlval := BitVec.ofNat 64 (pairAt b 6), bar := bar, marked := false,
    follow := follow, block := b, pc := x.pc, inst := instrWord i, tag := x.tag, started := false, next := 0, applied := [],
    segbase := 0, status := 0, failva := 0, bad := none, halted := false, pos := CvtPos.zero, waits := [], abandoned := false, placing := false,
    arrived := false, lost := none }

/-! ## The range scoreboard (06 R182) -/

/-- The interval of a side in its half. -/
def halfRange (o : Nat) (b : Int × Int) : Nat × Nat :=
  let base : Int := (o / 2 ^ 19 * 2 ^ 19 : Nat)
  ((b.1 - base).toNat, (b.2 - base).toNat)

/-- The entry of one side of a copy. -/
def oneRange (t : Team) (c : Copy) (plate dest : Bool) (o : Nat) (b : Int × Int) : ScoreRange :=
  let mine := t.halfOf c.ref.bent
  let iv := if plate then (b.1.toNat, b.2.toNat) else halfRange o b
  { cid := c.cid, tid := c.ref.tid, plate := plate, half := if !plate && bitOf o 19 then 1 - mine else mine, dest := dest, lo := iv.1, hi := iv.2 }

/-- The entries that a copy holds. -/
def Copy.ranges (t : Team) (c : Copy) : List ScoreRange :=
  (if c.dsp = 0 then [] else [oneRange t c (c.dsp == 2) true c.dst c.dstBounds])
    ++ (if c.ssp = 0 then [] else [oneRange t c false false c.src c.srcBounds])

def rangeCluster (s : State) (e : ScoreRange) : Nat := let t := s.team e.tid; if e.half = 1 then t.cluster1 else t.cluster

/-- Sixteen entries per cluster. -/
def State.rangesFit (s : State) (es : List ScoreRange) : Bool :=
  es.all fun e => decide (((s.mem.ranges ++ es).filter fun x => rangeCluster s x == rangeCluster s e).length ≤ 16)

def State.takeRanges (s : State) (es : List ScoreRange) : State := { s with mem := { s.mem with ranges := s.mem.ranges ++ es } }
def State.freeRanges (s : State) (cid : Nat) : State :=
  { s with mem := { s.mem with ranges := s.mem.ranges.filter fun e => e.cid != cid } }

/-! ## The copy instructions -/

/-- Steps 1 to 3 of R303, when the checks have passed. -/
def launchCopy (i : Instr) (s : State) (r : SliceRef) (c : Copy) : SliceStep :=
  match copyStatus s c with
  | some st => .ok s (.trap (copyFault st) none)
  | none =>
    let es := c.ranges (s.team r.tid)
    if s.squareFull (s.clusterOf r) [] || !(s.rangesFit es) || decide (engineRoom ≤ s.pendingCopies c.engine c.hp c.ctx) then .stall .retry
    else
      let s := s.fresh.2.takeRanges es
      let s := { s with copy := { s.copy with copies := s.copy.copies ++ [c] } }
      let s := s.addOp (newOp s r i .r c.scope (.copyIssue c.cid) [] false false none)
      .ok (s.modSlice r fun x => x.setToken c.token c.scope) (.go (nextPc i (s.slice r).pc))

/-- A copy instruction of one slice. -/
def copySlice (i : Instr) (h : Head) (w : Mem) (op : Nat) (desc follow : Bool) (s : State) (r : SliceRef) : SliceStep :=
  let x := s.slice r
  if !x.sliceOn h.gp h.gn then skipSlice i s r
  else
    match copyBar s r w with
    | .error f => .ok s (.trap f none)
    | .ok bar =>
      let b := x.block h.a
      if blockMalformed op follow b then .ok s (.trap (copyFault 1) none)
      else
        let cmd := if follow then some (x.block h.c) else none
        if desc then
          match readDesc i s r (x.getPair (h.b.toNat - 128)).toNat (pairAt b 4) (pairAt b 2) with
          | .bad st => st
          | .ok d s => launchCopy i s r (blockCopy s r i w 1 (h.d.toNat % 8) b d bar cmd)
        else launchCopy i s r (blockCopy s r i w op (h.d.toNat % 8) b none bar cmd)

def copyInfo (h : Head) (desc follow : Bool) : Info :=
  { memInfo h (blockRegs h.a ++ (if desc then regGroup true 2 (h.b.toNat - 128) else []) ++ (if follow then blockRegs h.c else []))
      with token := some (h.d.toNat % 8) }

/-- CPY (R304): Issues an asynchronous byte copy. -/
def execXpCpy (h : Head) (w : Mem) (s : State) : Host.Outcome State Fault Refusal :=
  issueSlices (.xpCpy h w) (copyInfo h false false) (copySlice (.xpCpy h w) h w 0 false false) s

/-- CPYT (R304): Issues an asynchronous tile copy by descriptor. -/
def execXpCpyt (h : Head) (w : Mem) (s : State) : Host.Outcome State Fault Refusal :=
  issueSlices (.xpCpyt h w) (copyInfo h true false) (copySlice (.xpCpyt h w) h w 1 true false) s

/-- CPYR (R304): Issues an asynchronous reduce-copy. -/
def execXpCpyr (h : Head) (w : Mem) (s : State) : Host.Outcome State Fault Refusal :=
  issueSlices (.xpCpyr h w) (copyInfo h false false) (copySlice (.xpCpyr h w) h w 2 false false) s

/-- CPYM (R305): Issues a copy with a follow-on matrix command; B = 0 names no descriptor. -/
def execXpCpym (h : Head) (w : Mem) (s : State) : Host.Outcome State Fault Refusal :=
  let desc := h.b != 0
  issueSlices (.xpCpym h w) (copyInfo h desc true) (copySlice (.xpCpym h w) h w 0 desc true) s

/-! ## Timelines (R308, R309) -/

/-- TLID in s(n)<15:0>. -/
def tlidOf (x : Slice) (a : BitVec 8) : Nat := (x.getS (a.toNat - 128)).toNat % 65536

def tlwtCond (h : Head) (s : State) (r : SliceRef) : Option (Except FaultInfo Cond) :=
  let x := s.slice r
  let t := s.team r.tid
  if !x.sliceOn h.gp h.gn then none
  else
    let n := tlidOf x h.a
    match s.timelineVa t.hp t.ctx n with
    | none => some (.error (copyFault 5))
    | some va =>
      let v := x.getPair (h.b.toNat - 128)
      let got := match s.timeline t.hp t.ctx va with | some (value, _, _) => value | none => 0
      some (.ok { wait := .timeline n v, holds := decide (v.toNat ≤ got) })

/-- The scope at which the return of a slice's TLWT acquires (07 R215): sys where the timeline lies in host memory. -/
def State.tlwtScope (s : State) (r : SliceRef) : Scope :=
  match (s.slice r).wait with
  | .timeline n _ => s.timelineScope (s.team r.tid).hp (s.team r.tid).ctx n
  | _ => .dev

/-- TLWT (R308): Stalls the gang until a timeline reaches a value. -/
def execXpTlwt (h : Head) (w : Mem) (s : State) : Host.Outcome State Fault Refusal :=
  let i : Instr := .xpTlwt h w
  issueGang i (memInfo h ([.s (h.a.toNat - 128)] ++ regGroup true 2 (h.b.toNat - 128))) (stallBody i (fun s r => s.timelineScope (s.team r.tid).hp (s.team r.tid).ctx (tlidOf (s.slice r) h.a)) (tlwtCond h)) s

/-- TLRD of one slice: a relaxed load at dev scope of the selected field. -/
def tlrdSlice (i : Instr) (h : Head) (w : Mem) (s : State) (r : SliceRef) : SliceStep :=
  let x := s.slice r
  let t := s.team r.tid
  if !x.sliceOn h.gp h.gn then skipSlice i s r
  else
    match s.timelineVa t.hp t.ctx (tlidOf x h.a) with
    | none => .ok s (.trap (copyFault 5) none)
    | some va =>
      let (c, s') := s.checkLanes r .read 8 (fun _ => false) [(0, va + 8 * w.ty.code.toNat)]
      match c with
      | .ok accs => loadAccs i h.la.toNat .z64 true h.d.toNat .dev false 3 accs s' r
      | .fault f => .ok s' (.trap { f with lanes := 15 } none)
      | c => checkFailed s' c

/-- TLRD (R309): Reads a timeline field. -/
def execXpTlrd (h : Head) (w : Mem) (s : State) : Host.Outcome State Fault Refusal :=
  let i : Instr := .xpTlrd h w
  issueSlices i (memInfo h ([.s (h.a.toNat - 128)] ++ regGroup true 2 h.d.toNat)) (tlrdSlice i h w) s

end Sys2Proof.Machine
end

