-- ==== Sys2Proof/Machine/Narrow.lean ====
section
/-! DEFINITION. The XQ instructions: CVT, QNTZ, DQNT, DOT4 and DOT8 (05 R162 to R165). -/

namespace Sys2Proof.Machine

def cvtRule (h : Head) : ArithRule :=
  { tys := fun t => t != .b128, readsB := false, c := .code 14, rnd := true, sat := true, ftz := true,
    nA := fun _ => h.srcTy.regs }

/-- CVT (R162): Converts a value between two types. -/
def execXqCvt (h : Head) (w : Arith) (s : State) : Host.Outcome State Fault Refusal :=
  issueArith (.xqCvt h w) (cvtRule h) h.srcTy w.ty w.ty h w
    (fun _ u a _ _ =>
      let (r, fl) := convert h.srcTy w.ty (Arith.mode w) a
      (resultWrites w.ty w.dk u h.d.toNat r, fl)) s

def dotRule : ArithRule :=
  { tys := fun _ => true, rnd := true, sat := true, c := .reg 1, nD := fun _ => 1, nA := fun _ => 1, nB := fun _ => 1 }

/-- A DOT instruction: packed words a and b, and a 32-bit accumulator c (R163). -/
def issueDot (i : Instr) (h : Head) (w : Arith) (s : State) : Host.Outcome State Fault Refusal :=
  issueArith i dotRule .z32 .z32 .z32 h w
    (fun _ u a b c =>
      let (r, fl) := opDot (Arith.mode w) w.ty a b c
      (writesFrom w.dk u h.d.toNat [BitVec.ofNat 32 r], fl)) s

/-- DOT4 (R163): Four-element packed dot product into an accumulator. -/
def execXqDot4 (h : Head) (w : Arith) (s : State) : Host.Outcome State Fault Refusal := issueDot (.xqDot4 h w) h w s

/-- DOT8 (R163): Eight-element e2m1 dot product into an f32 accumulator. -/
def execXqDot8 (h : Head) (w : Arith) (s : State) : Host.Outcome State Fault Refusal := issueDot (.xqDot8 h w) h w s

/-! ## Segments across the lanes of a bent -/

/-- The lane at a bent position, if it is present. -/
def laneAt (present : List (SliceRef × Nat)) (q : Nat) : Option (SliceRef × Nat) :=
  present.find? fun p => bentPos p.1 p.2 == q

/-- A register at a bent position, 0 for an absent lane. -/
def vAt (s : State) (present : List (SliceRef × Nat)) (q reg : Nat) : Word :=
  match laneAt present q with
  | some (r, j) => (s.slice r).getV reg j
  | none => 0

/-- A word of a segment's bytes. -/
def segWord (bs : List Byte) (at_ : Nat) : Word := BitVec.ofNat 32 (natOfBytes ((bs.drop at_).take 4))

/-- The 256 inputs of QNTZ: granule q in the lane at position q (R164). -/
def qntzInputs (s : State) (present : List (SliceRef × Nat)) (f : Fmt) (a : Nat) : List FVal :=
  (List.range 32).flatMap fun q => (List.range 8).map fun k =>
    f.decode ((vAt s present q (a + k)).toNat % 2 ^ f.width)

/-- The threshold of QNTZ: from the lowest logical slice that takes part, at most 31. -/
def qntzThr (s : State) (h : Head) (w : Arith) (rs : List SliceRef) : Nat :=
  min 31 (if w.bi then (if h.lit.isSome then litBits h.lit % 2 ^ 32 else (w.imm.signExtend 32).toNat)
          else match rs with
            | [] => 0
            | r :: _ => ((s.slice r).getS h.b.toNat).toNat)

/-- Pending results of a bent-scope instruction: `ws r j` are the writes of lane j of slice r, and the flags go
to every slice that takes part. -/
def addBentPending (i : Instr) (la : Nat) (regs : List Reg) (present : List (SliceRef × Nat))
    (ws : SliceRef → Nat → List RegWrite) (fl : SliceRef → FFlags) (flt : Option FaultInfo) : State → List SliceRef → State
  | s, [] => s
  | s, r :: rs =>
    let mine := (present.filter fun p => p.1 == r).flatMap fun p => ws p.1 p.2
    let p := newPending s r i la regs (some mine) (fl r) flt
    addBentPending i la regs present ws fl flt (s.fresh.2.addPending r p) rs

/-- QNTZ (R164): Bent-scope quantisation of 256 values into one SVB segment. -/
def execXqQntz (h : Head) (w : Arith) (s : State) : Host.Outcome State Fault Refusal :=
  let i : Instr := .xqQntz h w
  let d := h.d.toNat
  issueBent i (Head.info h (regGroup false 2 d ++ regGroup false 8 h.a.toNat ++ (if w.bi then [] else [.s h.b.toNat]) ++ guardRegs h))
    (fun s rs =>
      let present := presentLanes s h.gp h.gn rs
      let (seg, fl) := quantise (qntzInputs s present (fmtOf h.srcTy) h.a.toNat) (qntzThr s h w rs)
      let ws := fun (r : SliceRef) (j : Nat) =>
        let q := bentPos r j
        writesFrom false j d [segWord seg (4 * q), if q < 8 then segWord seg (128 + 4 * q) else 0]
      .done (addBentPending i h.la.toNat (regGroup false 2 d) present ws (fun _ => fl) none s rs) (allGo i s rs)) s

/-- The segment that DQNT reads: codes in A, header words in A+1 of lanes 0 to 7 (R165). -/
def dqntSegment (s : State) (present : List (SliceRef × Nat)) (a : Nat) : List Byte :=
  ((List.range 32).flatMap fun q => bytesOfNat 4 (vAt s present q a).toNat)
    ++ (List.range 8).flatMap fun q => bytesOfNat 4 (vAt s present q (a + 1)).toNat

/-- One lane of DQNT: element 8q + k in D + k, and the flags of the rounding. -/
def dqntLane (geom : Nat) (seg : List Byte) (t : Ty) (m : FMode) (d lane q : Nat) : Nat → List RegWrite × FFlags
  | 0 => ([], 0)
  | k + 1 =>
    let (ws, fl) := dqntLane geom seg t m d lane q k
    let (c, f) := convertTo (fmtOf t) m (segValue geom seg (8 * q + k))
    (ws ++ resultWrites t false lane (d + k) c, fl ||| f)

/-- MATRIX subcode 4: a malformed segment (R57, 10 R327). -/
def malformedFault : FaultInfo := faultAll causeMatrix 4

/-- DQNT (R165): Bent-scope decode of one block-scaled segment. -/
def execXqDqnt (h : Head) (w : Arith) (s : State) : Host.Outcome State Fault Refusal :=
  let i : Instr := .xqDqnt h w
  let d := h.d.toNat
  let geom := h.c.toNat % 4
  issueBent i (Head.info h (regGroup false 8 d ++ regGroup false 2 h.a.toNat ++ guardRegs h))
    (fun s rs =>
      let present := presentLanes s h.gp h.gn rs
      let seg := dqntSegment s present h.a.toNat
      let bad := geom == 3 && svbMalformed seg
      let lane := fun (r : SliceRef) (j : Nat) => dqntLane geom seg w.ty (Arith.mode w) d j (bentPos r j) 8
      let fl := fun (r : SliceRef) => orFlags ((present.filter fun p => p.1 == r).map fun p => (lane p.1 p.2).2)
      .done (addBentPending i h.la.toNat (regGroup false 8 d) present (fun r j => (lane r j).1)
        (fun r => if bad then 0 else fl r) (if bad then some malformedFault else none) s rs) (allGo i s rs)) s

end Sys2Proof.Machine
end

