-- ==== Sys2Proof/Machine/Matrix.lean ====
section
/-! DEFINITION. The class XX: MMA, TMMA, TZRO, TRD, TWR and TSTO, and the arithmetic of the matrix engines (10, 02 R67). -/

namespace Sys2Proof.Machine

def matrixFault (sub : Nat) (addr : Nat := 0) : FaultInfo := faultAll causeMatrix sub (BitVec.ofNat 64 addr)

/-! ## Sums (02 R67) -/

def roundF32 (v : FVal) : FVal := fmtF32.decode (fmtF32.write .rn false false v).1

/-- One level of the tree: adjacent pairs are added and rounded; a last one without a partner passes up unchanged. -/
def pairSums : List FVal → List FVal
  | a :: b :: vs => roundF32 (sumVals .rn [a, b]).1 :: pairSums vs
  | vs => vs

def treeSum : Nat → List FVal → FVal
  | 0, vs => vs.headD (.fin (Dyad.zero false))
  | k + 1, vs => if vs.length ≤ 1 then vs.headD (.fin (Dyad.zero false)) else treeSum k (pairSums vs)

/-- The sum of a chunk's products. -/
def chunkSum (tree : Bool) (as bs : List FVal) : FVal :=
  let ps := (mulVals as bs).1
  if tree then treeSum 8 ps else (sumVals .rn ps).1

/-- An accumulator after a chunk. -/
def accumulate (f : Fmt) (base s : FVal) : Nat := (f.write .rn false false (sumVals .rn [base, s]).1).1

/-! ## MMA (R338, R339) -/

/-- Elements per register, and per operand row, of an MMA. -/
def mmaK (t : Ty) : Nat := 256 / tyWidth t

/-- Element e of the part that the lane at position q holds. -/
def mmaElem (s : State) (present : List (SliceRef × Nat)) (f : Fmt) (w q reg e : Nat) : FVal :=
  match laneAt present q with
  | none => .fin (Dyad.zero false)
  | some (r, j) =>
    let per := 32 / w
    f.decode (((s.slice r).getV (reg + e / per) j).toNat / 2 ^ (w * (e % per)) % 2 ^ w)

/-- Row or column i of an operand: the first half in lane i, the second in lane i + 16. -/
def mmaVec (s : State) (present : List (SliceRef × Nat)) (t : Ty) (reg i : Nat) : List FVal :=
  let k := mmaK t
  (List.range k).map fun e => mmaElem s present (fmtOf t) (tyWidth t) (i + 16 * (e / (k / 2))) reg (e % (k / 2))

/-- Element (i, j) of the result, which the lane j + 16 × (i / 8) holds in register D + i mod 8. -/
def mmaOut (s : State) (present : List (SliceRef × Nat)) (ta tb : Ty) (d a b i j : Nat) : Nat :=
  let old := match laneAt present (j + 16 * (i / 8)) with
    | some (r, l) => fmtF32.decode ((s.slice r).getV (d + i % 8) l).toNat
    | none => .fin (Dyad.zero false)
  (fmtF32.write .rn false false (sumVals .rn (old :: (mulVals (mmaVec s present ta a i) (mmaVec s present tb b j)).1)).1).1

/-- The registers that a lane of an MMA writes. -/
def mmaWrites (s : State) (present : List (SliceRef × Nat)) (h : Head) (w : Command) (r : SliceRef) (lane : Nat) : List RegWrite :=
  let q := bentPos r lane
  writesFrom false lane h.d.toNat ((List.range 8).map fun i =>
    BitVec.ofNat 32 (mmaOut s present w.ta w.tb h.d.toNat h.a.toNat h.b.toNat (i + 8 * (q / 16)) (q % 16)))

/-- MMA (R338): Bent-scope 16x16 matrix multiply-add on the partition unit. -/
def execXxMma (h : Head) (w : Command) (s : State) : Host.Outcome State Fault Refusal :=
  let i : Instr := .xxMma h w
  let d := h.d.toNat
  issueBent i (Head.info h (regGroup false 8 d ++ regGroup false 4 h.a.toNat ++ regGroup false 4 h.b.toNat ++ guardRegs h))
    (fun s rs =>
      let present := presentLanes s h.gp h.gn rs
      .done (addBentPending i h.la.toNat (regGroup false 8 d) present (mmaWrites s present h w) (fun _ => 0) none s rs) (allGo i s rs)) s

/-! ## Tiles (R321) -/

def tileKey (half tile : Nat) : Nat := half * 2 ^ 24 + tile * 2 ^ 16

/-- The place of element (i, j), with its size. -/
def tileElemKey (half tile : Nat) (f64 : Bool) (i j : Nat) : Nat := tileKey half tile + (if f64 then 8 else 4) * (128 * i + j)

def Team.tileElem (t : Team) (half tile : Nat) (f64 : Bool) (i j : Nat) : Nat :=
  natOfBytes (bytesGet t.tiles (tileElemKey half tile f64 i j) (if f64 then 8 else 4))

def Team.putTileElem (t : Team) (half tile : Nat) (f64 : Bool) (i j v : Nat) : Team :=
  { t with tiles := bytesPut t.tiles (tileElemKey half tile f64 i j) (bytesOfNat (if f64 then 8 else 4) v) }

/-- Every element of a tile is +0 (R334). -/
def Team.zeroTile (t : Team) (half tile : Nat) : Team :=
  { t with tiles := t.tiles.filter fun p => !decide (tileKey half tile ≤ p.1 ∧ p.1 < tileKey half tile + 2 ^ 16) }

/-! ## Queues (R322) -/

def Team.queueOf (t : Team) (half : Nat) : List TileCmd := if half = 1 then t.tileQ1 else t.tileQ
def Team.setQueueOf (t : Team) (half : Nat) (q : List TileCmd) : Team := if half = 1 then { t with tileQ1 := q } else { t with tileQ := q }
def Team.seqOf (t : Team) (half : Nat) : TileSeq := if half = 1 then t.seq1 else t.seq
def Team.setSeqOf (t : Team) (half : Nat) (x : TileSeq) : Team := if half = 1 then { t with seq1 := x } else { t with seq := x }

def queueDepth : Nat := 64

/-! ## The command block of a TMMA (R326, R327) -/

structure Tmma where
  tile : Nat
  acc : Bool
  vault : Bool
  bar : Bool
  rows : Nat
  k : Nat
  a : Nat
  astr : Nat
  boff : Nat
  baroff : Nat
  ta : Nat
  tb : Nat
  tc : Nat
  ageom : Nat
  bgeom : Nat

def tmmaOf (b : List Word) : Tmma :=
  let c := wordAt b 0
  let f := wordAt b 7
  { tile := bitsOf c 3 0, acc := bitOf c 4, vault := bitOf c 5, bar := bitOf c 6, rows := bitsOf c 15 8, k := wordAt b 1,
    a := pairAt b 2, astr := wordAt b 4, boff := wordAt b 5, baroff := wordAt b 6, ta := bitsOf f 3 0, tb := bitsOf f 7 4,
    tc := bitsOf f 11 8, ageom := bitsOf f 13 12, bgeom := bitsOf f 15 14 }

/-- Reserved bits of the block. -/
def tmmaReserved (b : List Word) : Bool := bitOf (wordAt b 0) 7 || bitsOf (wordAt b 0) 31 16 != 0 || bitsOf (wordAt b 7) 31 16 != 0

def Tmma.tyA (m : Tmma) : Ty := Ty.ofCode m.ta
def Tmma.tyB (m : Tmma) : Ty := Ty.ofCode m.tb
def Tmma.tyC (m : Tmma) : Ty := Ty.ofCode m.tc
def Tmma.f64 (m : Tmma) : Bool := m.tyC == .f64

/-- The combinations of R316 and R317. -/
def Tmma.typesOk (m : Tmma) : Bool :=
  let a := m.tyA
  let b := m.tyB
  (((a == .e4m3 || a == .e5m2) && (b == .e4m3 || b == .e5m2) && m.tyC == .f32 && m.ageom == 0 && m.bgeom == 0)
    || (a == .e2m1 && b == .e2m1 && m.tyC == .f32 && (m.ageom == 0) == (m.bgeom == 0))
    || ((a == .f16 || a == .bf16) && b == a && m.tyC == .f32 && m.ageom == 0 && m.bgeom == 0)
    || (a == .f64 && b == .f64 && m.tyC == .f64 && m.ageom == 0 && m.bgeom == 0))

/-- K per chunk (R316). -/
def Tmma.kc (m : Tmma) : Nat :=
  match m.tyA with
  | .f16 => 128
  | .bf16 => 128
  | .f64 => 4
  | _ => 256

/-- The bytes of n elements of a row or a column of a chunk (R319, R320). -/
def chunkLen (t : Ty) (geom n : Nat) : Nat := if geom ≠ 0 then 160 else (n * tyWidth t + 7) / 8

def Tmma.granules (m : Tmma) : Nat := (chunkLen m.tyB m.bgeom m.kc + 31) / 32
def Tmma.chunks (m : Tmma) : Nat := (m.k + m.kc - 1) / m.kc
/-- The elements of chunk c. -/
def Tmma.len (m : Tmma) (c : Nat) : Nat := min m.kc (m.k - c * m.kc)
def Tmma.rowStep (m : Tmma) : Nat := chunkLen m.tyA m.ageom m.kc
def Tmma.slabAt (m : Tmma) (c : Nat) : Nat := m.boff + c * 4096 * m.granules

/-- The bytes of A from the first to the last that the command reads. -/
def Tmma.spanA (m : Tmma) : Nat :=
  (m.rows - 1) * m.astr + (m.chunks - 1) * m.rowStep + chunkLen m.tyA m.ageom (m.len (m.chunks - 1))

/-- The bytes of a column's part that slab c holds. -/
def Tmma.colLen (m : Tmma) (c : Nat) : Nat := chunkLen m.tyB m.bgeom (m.len c)

/-- The slab bytes that chunk c needs, from its first to its last (R319). -/
def Tmma.slabLen (m : Tmma) (c : Nat) : Nat := 4096 * ((m.colLen c + 31) / 32)

def Tmma.malformed (m : Tmma) (b : List Word) (acc : Nat) : Bool :=
  let al := if m.ageom ≠ 0 then 32 else max 1 (tyBytes m.tyA)
  tmmaReserved b || decide (acc ≤ m.tile + (if m.f64 then 1 else 0)) || (m.f64 && m.tile % 2 == 1)
    || decide (m.rows < 16 ∨ m.rows > 128 ∨ m.rows % 16 ≠ 0) || decide (m.k = 0 ∨ m.k > 2 ^ 20)
    || (m.ageom != 0 && m.k % 256 != 0) || !m.typesOk || (!m.bar && m.baroff != 0) || m.boff % 4096 != 0
    || m.a % al != 0 || m.astr % al != 0

/-- The checks of R327 that need no translation: the subcode and the address of the first that fails. -/
def tmmaFault (t : Team) (bent : Nat) (b : List Word) : Option (Nat × Nat) :=
  let m := tmmaOf b
  let last := m.chunks - 1
  if m.malformed b t.desc.acc then some (1, 0)
  else if m.slabAt last + m.slabLen last > t.desc.plate then some (2, 0)
  else if !m.vault && (scratchAt t bent m.spanA m.a).isNone then some (3, m.a)
  else if m.bar && (m.baroff % 8 != 0 || (scratchAt t bent 8 m.baroff).isNone) then some (6, 0)
  else none

/-- The barrier word that a TMMA names. -/
def tmmaBar (t : Team) (bent : Nat) (b : List Word) : Option (Nat × Nat) :=
  let m := tmmaOf b
  if m.bar && m.baroff % 8 == 0 then (scratchAt t bent 8 m.baroff).map fun p => (t.barHalf bent p.1 p.2, p.2) else none

/-! ## Commands -/

/-- A command of a slice, with its own fields empty. -/
def newCmd (s : State) (r : SliceRef) (i : Instr) (kind : Nat) (token : Option Nat) (block : List Word) (imm : Nat) (ta tc : Ty) (flg : Nat) : TileCmd :=
  { id := s.mem.nextOp, kind := kind, ref := r, token := token, block := block, imm := imm, ta := ta, tc := tc, flg := flg,
    lanes := [], data := [], pids := [], dreg := 0, bar := none, marked := false, pc := (s.slice r).pc, inst := instrWord i,
    tag := (s.slice r).tag, clock := s.partClock s.iss.part + 1 }

/-- Where a command enters its queue: behind the others, but before those of a higher slot that the same clock of its partition has
brought (R322). -/
def State.queued (s : State) (c : TileCmd) : List TileCmd → List TileCmd
  | [] => [c]
  | d :: ds =>
    let t := s.team c.ref.tid
    if c.clock ≠ 0 ∧ d.clock = c.clock ∧ t.partOf d.ref.bent = t.partOf c.ref.bent ∧ (s.slice c.ref).slot < (s.slice d.ref).slot then c :: d :: ds
    else d :: s.queued c ds

def State.enqueue (s : State) (tid half : Nat) (c : TileCmd) : State :=
  s.fresh.2.modTeam tid fun t => t.setQueueOf half (s.queued c (t.queueOf half))

/-- The half of a slice's team whose engine serves it. -/
def State.halfOfSlice (s : State) (r : SliceRef) : Nat := (s.team r.tid).halfOf r.bent

def State.queueFull (s : State) (r : SliceRef) : Bool :=
  decide (queueDepth ≤ ((s.team r.tid).queueOf (s.halfOfSlice r)).length)

/-- A command of one slice by rising physical slot (R322). -/
def issueTile (i : Instr) (info : Info) (f : State → SliceRef → SliceStep) (s : State) : Host.Outcome State Fault Refusal :=
  issueGang i info (fun s rs => runSlices f s (slotOrder s rs)) s

/-- TMMA of one slice: a release over A, and a command in the queue. -/
def tmmaSlice (i : Instr) (h : Head) (s : State) (r : SliceRef) : SliceStep :=
  let x := s.slice r
  let t := s.team r.tid
  if !x.sliceOn h.gp h.gn then skipSlice i s r
  else
    let b := x.block h.a
    match tmmaFault t r.bent b with
    | some (sub, va) => .ok s (.trap (matrixFault sub va) none)
    | none =>
      if s.queueFull r || s.squareFull (s.clusterOf r) [] then .stall .retry
      else
        let sc : Scope := if (tmmaOf b).vault then .dev else .team
        let k := h.d.toNat % 8
        let c := { newCmd s r i 0 (some k) b 0 .f32 .f32 0 with bar := tmmaBar t r.bent b }
        let s := s.enqueue r.tid (s.halfOfSlice r) c
        let s := s.addOp (newOp s r i .r sc (.copyIssue c.id) [] false false none)
        .ok (s.modSlice r fun x => x.setToken k sc) (.go (nextPc i x.pc))

/-- TMMA (R325): Queues a tile matrix multiply on the cluster engine. -/
def execXxTmma (h : Head) (w : Command) (s : State) : Host.Outcome State Fault Refusal :=
  let i : Instr := .xxTmma h w
  issueTile i { Head.info h (blockRegs h.a ++ guardRegs h) with token := some (h.d.toNat % 8) } (tmmaSlice i h) s

/-- TZRO (R334): Queues zeroing of an accumulator tile. -/
def execXxTzro (h : Head) (w : Command) (s : State) : Host.Outcome State Fault Refusal :=
  let i : Instr := .xxTzro h w
  issueTile i (Head.info h (guardRegs h))
    (fun s r =>
      if !(s.slice r).sliceOn h.gp h.gn then skipSlice i s r
      else if (s.team r.tid).desc.acc ≤ w.imm.toNat % 16 then .ok s (.trap (matrixFault 1) none)
      else if s.queueFull r then .stall .retry
      else .ok (s.enqueue r.tid (s.halfOfSlice r) (newCmd s r i 1 none [] w.imm.toNat .f32 .f32 0)) (.go (nextPc i (s.slice r).pc))) s

/-- The results of a bent's slices when those that execute trap. -/
def trapOn (i : Instr) (h : Head) (f : FaultInfo) (s : State) (rs : List SliceRef) : List (SliceRef × SliceRes) :=
  rs.map fun r => (r, if (s.slice r).lanesOn h.gp h.gn = [] then .go (nextPc i (s.slice r).pc) else .trap f none)

/-- A TRD or TWR of a bent, queued for its half's engine. -/
def bentTile (i : Instr) (h : Head) (imm : Nat) (make : State → List (SliceRef × Nat) → SliceRef → TileCmd × State)
    (s : State) (rs : List SliceRef) : Attempt :=
  let present := presentLanes s h.gp h.gn rs
  match present with
  | [] => .done s (allGo i s rs)
  | (r, _) :: _ =>
    if (s.team r.tid).desc.acc ≤ imm % 16 then .done s (trapOn i h (matrixFault 1) s rs)
    else if s.queueFull r then .stall .retry
    else
      let (c, s') := make s present r
      .done (s'.enqueue r.tid (s'.halfOfSlice r) { c with id := s'.mem.nextOp }) (allGo i s rs)

/-- A queued pending destination for each slice. -/
def queuePending (i : Instr) (la : Nat) (regs : List Reg) : State → List SliceRef → List (Nat × Nat) × State
  | s, [] => ([], s)
  | s, r :: rs =>
    let p := { newPending s r i la regs none 0 none with queued := true }
    let (xs, s) := queuePending i la regs (s.fresh.2.addPending r p) rs
    ((r.sl, p.pid) :: xs, s)

def trdCmd (i : Instr) (h : Head) (imm : Nat) (s : State) (present : List (SliceRef × Nat)) (r : SliceRef) : TileCmd × State :=
  let d := h.d.toNat
  let (ps, s') := queuePending i h.la.toNat (regGroup false 8 d) s (present.map (·.1)).eraseDups
  ({ newCmd s r i 2 none [] imm .f32 .f32 0 with lanes := present.map fun p => (p.1.sl, p.2), pids := ps, dreg := d }, s')

def twrCmd (i : Instr) (h : Head) (imm : Nat) (s : State) (present : List (SliceRef × Nat)) (r : SliceRef) : TileCmd × State :=
  ({ newCmd s r i 3 none [] imm .f32 .f32 0 with
       lanes := present.map fun p => (p.1.sl, p.2),
       data := present.map fun p => (List.range 8).map fun k => (s.slice p.1).getV (h.a.toNat + k) p.2 }, s)

/-- TRD (R334): Queues a read of a 16x16 tile block into registers. -/
def execXxTrd (h : Head) (w : Command) (s : State) : Host.Outcome State Fault Refusal :=
  let i : Instr := .xxTrd h w
  issueBent i (Head.info h (regGroup false 8 h.d.toNat ++ guardRegs h)) (bentTile i h w.imm.toNat (trdCmd i h w.imm.toNat)) s

/-- TWR (R334): Queues a write of registers into a 16x16 tile block. -/
def execXxTwr (h : Head) (w : Command) (s : State) : Host.Outcome State Fault Refusal :=
  let i : Instr := .xxTwr h w
  issueBent i (Head.info h (regGroup false 8 h.a.toNat ++ guardRegs h)) (bentTile i h w.imm.toNat (twrCmd i h w.imm.toNat)) s

/-! ## TSTO (R335) -/

structure Tsto where
  tile : Nat
  scratch : Bool
  rows : Nat
  rstr : Nat
  dst : Nat

def tstoOf (b : List Word) : Tsto :=
  { tile := bitsOf (wordAt b 0) 3 0, scratch := bitOf (wordAt b 0) 4, rows := bitsOf (wordAt b 0) 15 8, rstr := wordAt b 1,
    dst := pairAt b 2 }

/-- The bytes from the first to the last that a TSTO stores. -/
def Tsto.span (m : Tsto) (es : Nat) : Nat := (m.rows - 1) * m.rstr + 128 * es

/-- The checks at issue. -/
def tstoFault (t : Team) (bent : Nat) (ta tc : Ty) (b : List Word) : Option (Nat × Nat) :=
  let m := tstoOf b
  let f64 := ta == .f64
  let es := tyBytes tc
  if bitsOf (wordAt b 0) 7 5 ≠ 0 ∨ bitsOf (wordAt b 0) 31 16 ≠ 0 ∨ t.desc.acc ≤ m.tile + (if f64 then 1 else 0) ∨ (f64 ∧ m.tile % 2 = 1)
     ∨ m.rows = 0 ∨ m.rows > 128 ∨ m.dst % es ≠ 0 ∨ m.rstr % es ≠ 0 ∨ (m.rows > 1 ∧ m.rstr < 128 * es) then some (1, 0)
  else if m.scratch && (scratchAt t bent (m.span es) m.dst).isNone then some (3, m.dst)
  else none

/-- The scoreboard entry of a TSTO to scratchpad (R336). -/
def tstoRange (t : Team) (r : SliceRef) (cid es : Nat) (m : Tsto) : List ScoreRange :=
  if m.scratch then
    let mine := t.halfOf r.bent
    let lo := m.dst % 2 ^ 19
    [{ cid := cid, tid := r.tid, plate := false, half := if bitOf m.dst 19 then 1 - mine else mine, dest := true, lo := lo, hi := lo + m.span es }]
  else []

def tstoSlice (i : Instr) (h : Head) (w : Command) (s : State) (r : SliceRef) : SliceStep :=
  let x := s.slice r
  let t := s.team r.tid
  if !x.sliceOn h.gp h.gn then skipSlice i s r
  else
    let b := (x.block h.a).take 4
    match tstoFault t r.bent w.ta w.tc b with
    | some (sub, va) => .ok s (.trap (matrixFault sub va) none)
    | none =>
      let k := h.d.toNat % 8
      let c := newCmd s r i 4 (some k) b 0 w.ta w.tc w.flg.toNat
      let es := tstoRange t r c.id (tyBytes w.tc) (tstoOf b)
      if s.queueFull r || !(s.rangesFit es) then .stall .retry
      else
        let sc : Scope := if (tstoOf b).scratch then .team else .dev
        .ok (((s.enqueue r.tid (s.halfOfSlice r) c).takeRanges es).modSlice r fun x => x.setToken k sc) (.go (nextPc i x.pc))

/-- TSTO (R335): Queues a converted store of tile rows. -/
def execXxTsto (h : Head) (w : Command) (s : State) : Host.Outcome State Fault Refusal :=
  let i : Instr := .xxTsto h w
  issueTile i { Head.info h (regGroup true 4 (h.a.toNat - 128) ++ guardRegs h) with token := some (h.d.toNat % 8) } (tstoSlice i h w) s

end Sys2Proof.Machine
end

