-- ==== Sys2Proof/Machine/MatrixEvents.lean ====
section
/-! DEFINITION. Steps of the cluster engines: the rotation, the states of a TMMA, tile commands and their completion (10
R323, R327 to R336). -/

namespace Sys2Proof.Machine

/-! ## Records (09 R307, R331) -/

/-- The record of a copy or a matrix command that completes in error. -/
def copyRecord (rtype status : Nat) (pkt : Bool) (source where_ failva tlval engine time : Nat) : List Byte :=
  bytesOfNat 4 (rtype + status * 2 ^ 8 + bitVal pkt * 2 ^ 16) ++ bytesOfNat 4 source ++ bytesOfNat 8 where_ ++ bytesOfNat 8 failva
    ++ bytesOfNat 8 tlval ++ bytesOfNat 8 engine ++ List.replicate 16 0 ++ bytesOfNat 8 time

/-! ## The end of a command -/

def State.clearToken (s : State) (r : SliceRef) (k : Option Nat) : State :=
  match k with
  | some k => s.modSlice r fun x => x.clearToken k
  | none => s

/-- The head command leaves its queue. -/
def State.popTile (s : State) (tid half : Nat) : State :=
  s.modTeam tid fun t => (t.setQueueOf half (t.queueOf half).tail).setSeqOf half TileSeq.zero

/-- The release that the issue of a command made is no longer needed. -/
def State.dropIssue (s : State) (id : Nat) : State :=
  { s with mem := { s.mem with ops := s.mem.ops.filter fun o => o.kind != .copyIssue id } }

/-- The failure of a command that has left the queue: the record, the token, MATRIX on its slice (R331). -/
def State.reportTile (s : State) (c : TileCmd) (sub va : Nat) : State :=
  let t := s.team c.ref.tid
  let cl := s.clusterOf c.ref
  let s := s.logError t.hp t.ctx (copyRecord 0x0B sub false t.linear c.pc.toNat va 0 cl s.ns)
  let s := (((s.dropIssue c.id).freeRanges c.id).clearToken c.ref c.token)
  if c.kind = 0 ∨ c.kind = 4 then s.completionFault c.ref (matrixFault sub va) c.pc c.inst else s

/-- The head command fails. -/
def State.failTile (s : State) (tid half : Nat) (c : TileCmd) (sub va : Nat) : State :=
  ((s.popTile tid half).reportTile c sub va).retire

/-! ## Places that the engine reaches -/

/-- The number by which a matrix engine's accesses are known (06 R208). -/
def matrixSource (cl : Nat) : Nat := 2000 + cl

/-- A global operand lies in vault memory where the engine reads it (R320). -/
def State.inVault (s : State) (hp pa : Nat) : Bool := match s.region hp pa with | .vault _ _ => true | _ => false

/-- A run within a page of a global operand, through the cluster's L1 TLB; what is read comes past the L1, at dev scope. A decode error
carries its address. -/
def State.matPage (s : State) (hp ctx cl : Nat) (acc : Access) (va n : Nat) : Except CopyStop Place × State :=
  match s.xlate hp ctx va acc (some cl) with
  | (.ok e pa, s) =>
    let rt := if isWrite acc then s.writeRoute (matrixSource cl) pa else s.readRoute (matrixSource cl) pa
    let pa := rt.addr pa
    if rt.isHeld || s.rangeHeld pa n then (.error .held, s)
    else if !(isWrite acc) && !(s.inVault hp pa) then (.error (.error 3 va), s)
    else if s.reachable hp e.keyid pa then
      (.ok (.mem pa n e.keyid e.fmt e.geom),
        if isWrite acc || (e.msa && !(s.cached (lineOf pa))) then s else s.readL2 (dieOfCluster cl) pa n e.keyid 0 .none)
    else (.error (.error 5 va), if isWrite acc then s.countKey e.keyid else (s.countKey e.keyid).bumpErr 7)
  | (.absent level mig, s) =>
    let (fid, s) := s.engineFault hp ctx 2 cl level mig va acc
    (.error (.absent fid va), s)
  | (_, s) => (.error (.error 3 va), s)

/-- Bytes of a global operand, with the format and geometry of each page that they lie in. -/
def State.vaultBytes (hp ctx cl : Nat) : Nat → State → Nat → Nat → Except CopyStop (List Byte × List (Nat × Nat)) × State
  | 0, s, _, _ => (.ok ([], []), s)
  | k + 1, s, va, n =>
    if n = 0 then (.ok ([], []), s)
    else
      let m := min n (4096 - va % 4096)
      match s.matPage hp ctx cl .read va m with
      | (.error e, s) => (.error e, s)
      | (.ok (.mem pa _ _ f g), s) =>
        if s.poisoned pa m then (.error (.error 5 va), s.bumpErr 6)
        else
          match State.vaultBytes hp ctx cl k s ((va + m) % 2 ^ 64) (n - m) with
          | (.ok (bs, as), s) => (.ok (memReadN s.mem.bytes pa m ++ bs, (f, g) :: as), s)
          | (.error e, s) => (.error e, s)
      | (.ok _, s) => (.ok ([], []), s)

/-- The values of a row or a column part of the command's own format. -/
def partValues (t : Ty) (geom n : Nat) (bs : List Byte) : List FVal :=
  if geom ≠ 0 then (List.range n).map (segValue geom bs)
  else
    let w := tyWidth t
    let v := natOfBytes bs
    (List.range n).map fun k => (fmtOf t).decode (v / 2 ^ (w * k) % 2 ^ w)

/-- A value of the page's format as an element of the command's (02 R64): one that a block scales stays as it is where the command asks
for a block-scaled operand. -/
def Tmma.asA (m : Tmma) (scaled : Bool) (v : FVal) : FVal :=
  if scaled && m.ageom != 0 then v else (fmtOf m.tyA).decode (cvtCode m.tyA v)

/-- A segment of a row, by the attributes of the page that holds its byte 0 (02 R59, R65). -/
def State.vaultSegment (s : State) (hp ctx cl : Nat) (m : Tmma) (fmt geom va n : Nat) : Except CopyStop (List FVal) × State :=
  match State.vaultBytes hp ctx cl 3 s va 160 with
  | (.error e, s) => (.error e, s)
  | (.ok (bs, as), s) =>
    if as.any (· != (fmt, geom)) || ((if fmt = 0 then m.ageom else geom) == 3 && svbMalformed bs) then (.error (.error 4 va), s)
    else if fmt = 0 then (.ok (partValues m.tyA m.ageom n bs), s)
    else (.ok ((partValues .e2m1 geom n bs).map (m.asA true)), s)

/-- `n` elements of a row in vault memory from half byte `h` behind an address on, each by the page that holds its byte 0 (02 R64). Its
chunks start where R320 puts them, and in each the elements follow one another in the page's format (DESIGN CHOICE, log entry 115). -/
def State.vaultRow (hp ctx cl : Nat) (m : Tmma) (at_ : Nat) : Nat → State → Nat → Nat → Except CopyStop (List FVal) × State
  | 0, s, _, _ => (.ok [], s)
  | k + 1, s, h, n =>
    if n = 0 then (.ok [], s)
    else
      match s.matPage hp ctx cl .read (halfAt at_ h) 1 with
      | (.error e, s) => (.error e, s)
      | (.ok (.mem _ _ _ f g), s) =>
        if g ≠ 0 ∨ (f = 0 ∧ m.ageom ≠ 0) then s.vaultSegment hp ctx cl m f g (halfAt at_ h) n
        else
          let ty := if f = 0 then m.tyA else pageTy f .z8
          let w := tyWidth ty / 4
          let h := wholeByte w h
          let va := halfAt at_ h
          let cnt := min n ((2 * (4096 - va % 4096) - h % 2 + w - 1) / w)
          match State.vaultBytes hp ctx cl 3 s va ((h % 2 + cnt * w + 1) / 2) with
          | (.error e, s) => (.error e, s)
          | (.ok (bs, _), s) =>
            let codes := (List.range cnt).map fun j => natOfBytes bs / 2 ^ (4 * (h % 2 + j * w)) % 2 ^ (4 * w)
            let vals := if f = 0 then codes.map (fmtOf ty).decode else codes.map fun c => m.asA false (codeValue ty c)
            match State.vaultRow hp ctx cl m at_ k s (h + cnt * w) (n - cnt) with
            | (.error e, s) => (.error e, s)
            | (.ok vs, s) => (.ok (vals ++ vs), s)
      | (.ok _, s) => (.ok [], s)

/-- A row in scratchpad: its elements as the command names them (02 R66). -/
def State.scratchRow (s : State) (c : TileCmd) (m : Tmma) (chunk at_ : Nat) : Except CopyStop (List FVal) :=
  let t := s.team c.ref.tid
  let n := chunkLen m.tyA m.ageom (m.len chunk)
  match scratchAt t c.ref.bent n at_ with
  | none => .error (.error 3 at_)
  | some (half, off) =>
    let bs := t.scratchBytes half off n
    if m.ageom = 3 ∧ svbMalformed bs then .error (.error 4 at_) else .ok (partValues m.tyA m.ageom (m.len chunk) bs)

/-- The first address of row i of chunk c (R320). -/
def Tmma.rowAt (m : Tmma) (c i : Nat) : Nat := (m.a + i * m.astr + c * m.rowStep) % 2 ^ 64

/-- The rows of a group from row i on. -/
def State.readRows (s : State) (c : TileCmd) (m : Tmma) (chunk i : Nat) : Nat → Except CopyStop (List (List FVal)) × State
  | 0 => (.ok [], s)
  | k + 1 =>
    let t := s.team c.ref.tid
    let at_ := m.rowAt chunk i
    let (x, s) := if m.vault then State.vaultRow t.hp t.ctx (s.clusterOf c.ref) m at_ 4 s 0 (m.len chunk) else (s.scratchRow c m chunk at_, s)
    match x with
    | .error e => (.error e, s)
    | .ok vs =>
      match State.readRows s c m chunk (i + 1) k with
      | (.error e, s) => (.error e, s)
      | (.ok rs, s) => (.ok (vs :: rs), s)

/-! ## The states of a TMMA (R329) -/

/-- The B slab of a chunk by columns (R319). -/
def Team.slabColumns (t : Team) (half : Nat) (m : Tmma) (chunk : Nat) : List (List Byte) :=
  let n := m.colLen chunk
  (List.range 128).map fun j =>
    (((List.range ((n + 31) / 32)).flatMap fun q => bytesGet t.plate (plateKey half (m.slabAt chunk + 32 * (128 * q + j))) 32)).take n

/-- A slab load that overlaps a copy's destination waits (R318). -/
def State.slabWaits (s : State) (tid half : Nat) (m : Tmma) (chunk : Nat) : Bool :=
  s.rangeStall tid true half (m.slabAt chunk) (m.slabLen chunk) false

/-- A row of A that overlaps a copy's destination waits (R320). -/
def State.rowsWait (s : State) (c : TileCmd) (m : Tmma) (chunk group : Nat) : Bool :=
  !m.vault && (List.range 16).any fun i =>
    let n := chunkLen m.tyA m.ageom (m.len chunk)
    match scratchAt (s.team c.ref.tid) c.ref.bent n (m.rowAt chunk (16 * group + i)) with
    | some (half, off) => s.rangeStall c.ref.tid false half off n false
    | none => false

/-- One row of the group rounded into the tile, from column j on. -/
def Team.writeRow (t : Team) (half : Nat) (m : Tmma) (fresh : Bool) (row : Nat) (a : List FVal) : Nat → List (List FVal) → Team
  | _, [] => t
  | j, b :: bs =>
    let f := if m.f64 then fmtF64 else fmtF32
    let base := if fresh then .fin (Dyad.zero false) else f.decode (t.tileElem half m.tile m.f64 row j)
    let tree := m.tyA == .f16 || m.tyA == .bf16
    (t.putTileElem half m.tile m.f64 row j (accumulate f base (chunkSum tree a b))).writeRow half m fresh row a (j + 1) bs

def Team.writeGroup (t : Team) (half : Nat) (m : Tmma) (fresh : Bool) (cols : List (List FVal)) : Nat → List (List FVal) → Team
  | _, [] => t
  | row, a :: as => (t.writeRow half m fresh row a 0 cols).writeGroup half m fresh cols (row + 1) as

/-- WB: the group's sums are rounded into the tile, and the sequencer moves on. -/
def State.roundGroup (s : State) (tid half : Nat) (c : TileCmd) : State :=
  let t := s.team tid
  let q := t.seqOf half
  let m := tmmaOf c.block
  let n := m.len q.chunk
  let cols := q.slab.map (partValues m.tyB m.bgeom n)
  let t := t.writeGroup half m (q.chunk == 0 && !m.acc) cols (16 * q.group) q.rows
  let q := { q with rows := [] }
  let q :=
    if q.group + 1 < m.rows / 16 then { q with group := q.group + 1, phase := 2 }
    else if q.chunk + 1 < m.chunks then { q with group := 0, chunk := q.chunk + 1, phase := 1, started := false, slab := q.next, next := [] }
    else { q with phase := 4, started := false, slab := [], next := [] }
  s.setTeam tid (t.setSeqOf half q)

/-- The array clock of a cluster stands still while its die relocks: a TMMA pauses between two of its steps (01 R18). -/
def State.arrayStopped (s : State) (cl : Nat) : Bool := smGet false (dieOfCluster cl) s.dev.relock

/-- The cluster of a half. -/
def Team.clusterAt (t : Team) (half : Nat) : Nat := if half = 1 then t.cluster1 else t.cluster

/-- The half of a team whose head command is a TMMA in a phase. -/
def State.tmmaIn (s : State) (tid phase : Nat) : Option (Nat × TileCmd) :=
  let t := s.team tid
  let pick := fun h => match t.queueOf h with
    | c :: _ => if c.kind == 0 && (t.seqOf h).phase == phase && ((t.seqOf h).started || phase == 4) && !(s.arrayStopped (t.clusterAt h)) then some (h, c)
      else none
    | [] => none
  match pick 0 with
  | some x => some x
  | none => if t.desc.pair then pick 1 else none

/-- The engine is given up until what the command waits for has ended. -/
def State.yieldEngine (s : State) (tid half : Nat) (waits : List Nat) (va : Nat := 0) : State :=
  s.modTeam tid fun t => t.setSeqOf half { t.seqOf half with started := false, waits := waits, failva := va }

/-- The slab of the next chunk loads alongside, unless a copy's destination holds it back (R316, R318). One that is malformed is left
for its own LOAD to find. -/
def State.loadNext (s : State) (tid half : Nat) (m : Tmma) : State :=
  let t := s.team tid
  let q := t.seqOf half
  if !q.next.isEmpty || m.chunks ≤ q.chunk + 1 || s.slabWaits tid half m (q.chunk + 1) then s
  else
    let cols := t.slabColumns half m (q.chunk + 1)
    if m.bgeom = 3 ∧ cols.any svbMalformed then s else s.setTeam tid (t.setSeqOf half { q with next := cols })

/-- TMMA_SLAB_LOAD (R329): Loads a B slab from the Plate, unless it is already loaded. A segment that is malformed fails the command. -/
def execEvTmmaSlabLoad (tid : Nat) (s : State) : Host.Outcome State Fault Refusal :=
  match s.tmmaIn tid 1 with
  | none => .next s
  | some (half, c) =>
    let t := s.team tid
    let q := t.seqOf half
    let m := tmmaOf c.block
    if !q.slab.isEmpty then .next (s.setTeam tid (t.setSeqOf half { q with phase := 2 }))
    else if s.slabWaits tid half m q.chunk then .next (s.yieldEngine tid half [])
    else
      let cols := t.slabColumns half m q.chunk
      if m.bgeom = 3 ∧ cols.any svbMalformed then .next (s.failTile tid half c 4 0)
      else .next (s.setTeam tid (t.setSeqOf half { q with slab := cols, phase := 2 }))

/-- TMMA_STREAM (R329): Streams one row group of A through the array, and loads the next slab alongside. -/
def execEvTmmaStream (tid : Nat) (s : State) : Host.Outcome State Fault Refusal :=
  match s.tmmaIn tid 2 with
  | none => .next s
  | some (half, c) =>
    let q := (s.team tid).seqOf half
    let m := tmmaOf c.block
    let s := s.loadNext tid half m
    if s.rowsWait c m q.chunk q.group then .next (s.yieldEngine tid half [])
    else
      match State.readRows s c m q.chunk (16 * q.group) 16 with
      | (.error (.absent fid va), s) => .next (s.yieldEngine tid half [fid] va)
      | (.error (.error sub va), s) => .next (s.failTile tid half c sub va)
      | (.error .held, s) => .next (s.yieldEngine tid half [])
      | (.ok rows, s) => .next (s.modTeam tid fun t => t.setSeqOf half { t.seqOf half with rows := rows, phase := 3 })

/-- TMMA_WRITEBACK (R329): Rounds a group's sums into the tile. -/
def execEvTmmaWriteback (tid : Nat) (s : State) : Host.Outcome State Fault Refusal :=
  match s.tmmaIn tid 3 with
  | none => .next s
  | some (half, c) => .next (s.roundGroup tid half c)

/-- The barrier arrival of a command; false when the word refuses it or the command is marked (08 R267, R268). -/
def State.tileArrive (s : State) (tid : Nat) (c : TileCmd) : Bool × State :=
  match c.bar with
  | none => (!(tmmaOf c.block).bar, s)
  | some (half, off) => if c.marked then (false, s) else s.engineArrive tid half off

/-- TMMA_DONE (R329): Makes the barrier arrival and clears the token. -/
def execEvTmmaDone (tid : Nat) (s : State) : Host.Outcome State Fault Refusal :=
  match s.tmmaIn tid 4 with
  | none => .next s
  | some (half, c) =>
    match s.tileArrive tid c with
    | (true, s) => .next (((s.popTile tid half).dropIssue c.id).clearToken c.ref c.token).retire
    | (false, s) => .next (s.failTile tid half c 6 0)

/-! ## Whole commands -/

/-- Element (i, j) of the block that a TRD or TWR names, for register k of the lane at position q (R338). -/
def blockRow (imm q k : Nat) : Nat := 16 * bitsOf imm 6 4 + k + 8 * (q / 16)
def blockCol (imm q : Nat) : Nat := 16 * bitsOf imm 9 7 + q % 16

/-- What a lane of a TRD receives. -/
def trdWrites (t : Team) (half : Nat) (c : TileCmd) (sl lane : Nat) : List RegWrite :=
  let q := 4 * sl + lane
  writesFrom false lane c.dreg ((List.range 8).map fun k =>
    BitVec.ofNat 32 (t.tileElem half (c.imm % 16) false (blockRow c.imm q k) (blockCol c.imm q)))

def State.settleTrd (c : TileCmd) (half : Nat) : State → List (Nat × Nat) → State
  | s, [] => s
  | s, (sl, pid) :: ps =>
    let ws := (c.lanes.filter fun p => p.1 == sl).flatMap fun p => trdWrites (s.team c.ref.tid) half c p.1 p.2
    State.settleTrd c half (s.settle { c.ref with sl := sl } pid ws 0 none) ps

def Team.twrLane (t : Team) (half : Nat) (c : TileCmd) (q : Nat) : Nat → List Word → Team
  | _, [] => t
  | k, w :: ws => (t.putTileElem half (c.imm % 16) false (blockRow c.imm q k) (blockCol c.imm q) w.toNat).twrLane half c q (k + 1) ws

def Team.twr (t : Team) (half : Nat) (c : TileCmd) : List (Nat × Nat) → List (List Word) → Team
  | p :: ps, d :: ds => (t.twrLane half c (4 * p.1 + p.2) 0 d).twr half c ps ds
  | _, _ => t

/-- Row i of a TSTO: the bytes and the flags of their rounding. -/
def tstoRow (t : Team) (half : Nat) (c : TileCmd) (m : Tsto) (i : Nat) : List Byte × FFlags :=
  let f64 := c.ta == .f64
  let md : FMode := { rnd := Rnd.ofCode (c.flg % 4), sat := bitOf c.flg 2, ftz := false }
  let xs := (List.range 128).map fun j => convertTo (fmtOf c.tc) md ((fmtOf c.ta).decode (t.tileElem half m.tile f64 i j))
  (xs.flatMap fun x => bytesOfNat (tyBytes c.tc) x.1, orFlags (xs.map (·.2)))

/-- What a TSTO stores to: the places of a row, or none of it where its line does not decode (01 R29). -/
inductive TstoDest where
  | places (ps : List Place)
  | dropped (n pa : Nat)

def State.tstoGlobal (hp ctx cl : Nat) : Nat → State → Nat → Nat → Except CopyStop (List TstoDest) × State
  | 0, s, _, _ => (.ok [], s)
  | k + 1, s, va, n =>
    if n = 0 then (.ok [], s)
    else
      let m := min n (4096 - va % 4096)
      let (x, s) := s.matPage hp ctx cl .write va m
      let here : Except CopyStop TstoDest := match x with
        | .ok p => .ok (.places [p])
        | .error (.error 5 _) => .ok (.dropped m (s.paOf hp ctx va .write))
        | .error e => .error e
      match here with
      | .error e => (.error e, s)
      | .ok d =>
        match State.tstoGlobal hp ctx cl k s ((va + m) % 2 ^ 64) (n - m) with
        | (.error e, s) => (.error e, s)
        | (.ok ds, s) => (.ok (d :: ds), s)

/-- The places of rows i to i + k − 1. -/
def State.tstoPlaces (s : State) (c : TileCmd) (m : Tsto) (i : Nat) : Nat → Except CopyStop (List (Nat × List TstoDest)) × State
  | 0 => (.ok [], s)
  | k + 1 =>
    let t := s.team c.ref.tid
    let n := 128 * tyBytes c.tc
    let at_ := (m.dst + i * m.rstr) % 2 ^ 64
    let (x, s) := if m.scratch then
        match scratchAt t c.ref.bent n at_ with
        | some (half, off) => (.ok [.places [.scratch half off n]], s)
        | none => (.error (.error 3 at_), s)
      else State.tstoGlobal t.hp t.ctx (s.clusterOf c.ref) 3 s at_ n
    match x with
    | .error e => (.error e, s)
    | .ok ds =>
      match State.tstoPlaces s c m (i + 1) k with
      | (.error e, s) => (.error e, s)
      | (.ok rest, s) => (.ok ((at_, ds) :: rest), s)

/-- Stores a row; what does not decode is dropped and logged (01 R29, R441). -/
def State.tstoStore (c : TileCmd) : State → Nat → List Byte → List TstoDest → State
  | s, _, _, [] => s
  | s, va, bs, d :: ds =>
    let t := s.team c.ref.tid
    match d with
    | .places ps =>
      let n := (ps.map Place.size).sum
      State.tstoStore c (State.writePlaces (.copy c.id) t.hp c.ref.tid false s (bs.take n) ps) (va + n) (bs.drop n) ds
    | .dropped n pa =>
      let s := (s.bumpErr 8).logError t.hp t.ctx (accessRecord 1 2 0 t.linear va pa 0 s.ns)
      State.tstoStore c s (va + n) (bs.drop n) ds

def State.tstoRows (c : TileCmd) (half : Nat) (m : Tsto) : State → Nat → List (Nat × List TstoDest) → FFlags × State
  | s, _, [] => (0, s)
  | s, i, (va, ds) :: rest =>
    let (bs, fl) := tstoRow (s.team c.ref.tid) half c m i
    let (fl', s) := State.tstoRows c half m (State.tstoStore c s va bs ds) (i + 1) rest
    (fl ||| fl', s)

/-- A TSTO runs whole: its stores perform, and TSTO_COMPLETE ends it. -/
def State.runTsto (s : State) (tid half : Nat) (c : TileCmd) : State :=
  let m := tstoOf c.block
  match State.tstoPlaces s c m 0 m.rows with
  | (.error (.absent fid va), s) => s.yieldEngine tid half [fid] va
  | (.error (.error sub va), s) => s.failTile tid half c sub va
  | (.error .held, s) => s
  | (.ok rows, s) =>
    let (fl, s) := State.tstoRows c half m s 0 rows
    s.modTeam tid fun t => t.setSeqOf half { t.seqOf half with phase := 4, flags := fl }

/-! ## The rotation (R323) -/

/-- The release over A has been sealed. -/
def State.issueSealed (s : State) (id : Nat) : Bool := s.mem.ops.all fun o => o.kind != .copyIssue id || o.performed

/-- The head command may begin or go on. -/
def State.tileReady (s : State) (tid half : Nat) : Bool :=
  let t := s.team tid
  let q := t.seqOf half
  match t.queueOf half with
  | [] => false
  | c :: _ =>
    !t.stopped && !t.held && !t.away && !t.ended && q.waits.isEmpty && q.phase != 4 && s.issueSealed c.id &&
      (c.kind != 0 ||
        (let m := tmmaOf c.block
         let checked := q.phase != 0 || (tmmaFault t c.ref.bent c.block).isNone
         !checked || !((q.phase ≤ 1 && q.slab.isEmpty && s.slabWaits tid half m q.chunk) || s.rowsWait c m q.chunk q.group)))

/-- A team's place in the rotation: by linear index. -/
def rotationKey (t : Team) (tid : Nat) : Nat := t.linear * 2 ^ 40 + tid

/-- The halves of the resident teams that a cluster serves. -/
def State.served (s : State) (cl : Nat) : List (Nat × Nat) :=
  s.teams.flatMap fun (tid, t) =>
    (if t.cluster == cl && !t.ended then [(tid, 0)] else []) ++ (if t.desc.pair && t.cluster1 == cl && !t.ended then [(tid, 1)] else [])

def State.engineHeld (s : State) (cl : Nat) : Bool := (s.served cl).any fun p => ((s.team p.1).seqOf p.2).started

/-- The lowest place above the last one served, or the lowest. -/
def nextInRotation (s : State) (last : Nat) (ps : List (Nat × Nat)) : Option (Nat × Nat) :=
  let key := fun (p : Nat × Nat) => rotationKey (s.team p.1) p.1 + 1
  let least := fun (qs : List (Nat × Nat)) => qs.foldl (fun b p => match b with
    | none => some p
    | some q => if key p < key q then some p else some q) none
  match least (ps.filter fun p => key p > last) with
  | some p => some p
  | none => least ps

/-- What a team's command loses when another team takes the engine: its slabs. -/
def TileSeq.dropSlabs (q : TileSeq) : TileSeq := { q with slab := [], next := [], rows := [], phase := if q.phase = 2 then 1 else q.phase }

/-- A TMMA takes the engine of its cluster. -/
def State.takeEngine (s : State) (tid half : Nat) : State :=
  let cl := (s.team tid).clusterAt half
  let others := (s.served cl).filter fun p => p != (tid, half) && !((s.team p.1).seqOf p.2).slab.isEmpty
  let s := others.foldl (fun s p => s.modTeam p.1 fun t => t.setSeqOf p.2 (t.seqOf p.2).dropSlabs) s
  s.modTeam tid fun t => t.setSeqOf half { t.seqOf half with started := true }

/-- One tile step of a command, or the start of one: TMMA's K-chunks go on by their own steps. -/
def State.tileStep (s : State) (tid half : Nat) (c : TileCmd) : State :=
  let t := s.team tid
  let q := t.seqOf half
  match c.kind with
  | 0 =>
    if q.phase = 0 then
      match tmmaFault t c.ref.bent c.block with
      | some (sub, va) => s.failTile tid half c sub va
      | none => ((s.dropIssue c.id).setTeam tid (t.setSeqOf half { q with phase := 1 })).takeEngine tid half
    else s.takeEngine tid half
  | 1 => (s.modTeam tid fun t => t.zeroTile half (c.imm % 16)).popTile tid half
  | 2 => (State.settleTrd c half s c.pids).popTile tid half
  | 3 => (s.modTeam tid fun t => t.twr half c c.lanes c.data).popTile tid half
  | _ => s.runTsto tid half c

/-- TILE_ROTATION (R323): The cluster engine runs one tile step of the next ready team's head command. -/
def execEvTileRotation (cl : Nat) (s : State) : Host.Outcome State Fault Refusal :=
  if s.engineHeld cl || s.arrayStopped cl then .next s
  else
    match nextInRotation s (smGet 0 cl s.mat.last) ((s.served cl).filter fun p => s.tileReady p.1 p.2) with
    | none => .next s
    | some (tid, half) =>
      let s := { s with mat := { s.mat with last := smPut 0 cl (rotationKey (s.team tid) tid + 1) s.mat.last } }
      match (s.team tid).queueOf half with
      | c :: _ => .next (s.tileStep tid half c).retire
      | [] => .next s

/-! ## The end of a TSTO (R336) -/

/-- The half whose head command is this one. -/
def headHalf (t : Team) (id : Nat) : Option (Nat × TileCmd) :=
  match t.tileQ, t.tileQ1 with
  | c :: _, d :: _ => if c.id = id then some (0, c) else if d.id = id then some (1, d) else none
  | c :: _, [] => if c.id = id then some (0, c) else none
  | [], d :: _ => if d.id = id then some (1, d) else none
  | [], [] => none

/-- TSTO_COMPLETE (R336): A TSTO's stores have performed and passed their checks, and its token clears. Its flags reach the slice that issued it,
unless that has exited. -/
def execEvTstoComplete (id : Nat) (s : State) : Host.Outcome State Fault Refusal :=
  match s.teams.find? fun p => ((headHalf p.2 id).any fun x => x.2.kind == 4 && (p.2.seqOf x.1).phase == 4)
      && s.mem.xfers.all (fun x => x.client != .copy id) with
  | none => .next s
  | some (tid, t) =>
    match headHalf t id with
    | none => .next s
    | some (half, c) =>
      let fl := (t.seqOf half).flags
      let s := s.modSlice c.ref fun x => if x.exited then x else x.raise fl
      .next (((s.popTile tid half).freeRanges c.id).clearToken c.ref c.token)

/-! ## Follow-ons (R322) -/

/-- A captured command enters the queue of its team, when there is room. -/
def State.placeFollow (s : State) (r : SliceRef) (b : List Word) (pc : Quad) (inst : Word) (tag : Bool) : Option State :=
  if s.queueFull r then none
  else
    let t := s.team r.tid
    let c : TileCmd := { id := s.mem.nextOp, kind := 0, ref := r, token := none, block := b, imm := 0, ta := .f32, tc := .f32, flg := 0, lanes := [],
                         data := [], pids := [], dreg := 0, bar := tmmaBar t r.bent b, marked := false, pc := pc, inst := inst, tag := tag, clock := 0 }
    some (s.enqueue r.tid (s.halfOfSlice r) c)

/-! ## Stopping (R329, R332, R337) -/

/-- The running TMMA is brought to its next interruptible point, and gives its engine up. -/
def State.haltTile (s : State) (tid half : Nat) : State :=
  let q := (s.team tid).seqOf half
  let s := match (s.team tid).queueOf half with
    | c :: _ => if c.kind == 0 && q.phase == 3 then s.roundGroup tid half c else s
    | [] => s
  s.modTeam tid fun t =>
    t.setSeqOf half { (t.seqOf half).dropSlabs with started := false, waits := [] }

end Sys2Proof.Machine
end

