-- ==== Sys2Proof/Machine/CopyEvents.lean ====
section
/-! DEFINITION. Steps of the copy engines: service, completion, abandonment and replay, scrubs, and the return of TLWT (09
R297 to R299, R305 to R308, R312 to R314). -/

namespace Sys2Proof.Machine

/-! ## Service (R299) -/

/-- A copy instruction's issue has been sealed: it reaches its engine (R303). -/
def State.issueDone (s : State) (c : Copy) : Bool := s.mem.ops.any fun o => o.kind == .copyIssue c.cid && o.performed

def State.beginCopies (s : State) : State :=
  let begun := s.copy.copies.filter fun c => !c.started && s.issueDone c
  let cids := begun.map (·.cid)
  let s := { s with copy := { s.copy with copies := s.copy.copies.map fun c => if cids.contains c.cid then { c with started := true } else c } }
  (cids.foldl State.dropIssue s).retire

def quantum (cls : Nat) : Nat :=
  match cls with
  | 0 => 16384
  | 1 => 8192
  | 2 => 4096
  | _ => 2048

def engineCtxKey (engine k : Nat) : Nat := 256 * engine + k

def State.engineCtx (s : State) (engine k : Nat) : EngineCtx := smGet EngineCtx.reset (engineCtxKey engine k) s.copy.engines
def State.setEngineCtx (s : State) (engine k : Nat) (x : EngineCtx) : State :=
  { s with copy := { s.copy with engines := smPut EngineCtx.reset (engineCtxKey engine k) x s.copy.engines } }

/-- The copies of an engine context that have a chunk to send. -/
def State.readyCopies (s : State) (engine k : Nat) : List Copy :=
  s.copy.copies.filter fun c => c.engine == engine && ccbKey c.hp c.ctx == k && c.ready

def leastCid : List Copy → Option Copy
  | [] => none
  | c :: cs =>
    match leastCid cs with
    | none => some c
    | some d => if c.cid ≤ d.cid then some c else some d

/-- The copy of a class whose turn it is: the one after the last served, in order of arrival. -/
def nextCopy (last : Nat) (cs : List Copy) : Option Copy :=
  match leastCid (cs.filter fun c => c.cid > last) with
  | some c => some c
  | none => leastCid cs

/-- The next class is visited; one that has no chunk ready loses its deficit. -/
def EngineCtx.leave (x : EngineCtx) (empty : Bool) : EngineCtx :=
  { x with visit := (x.visit + 1) % 4, credited := false, deficit := if empty then x.deficit.set x.visit 0 else x.deficit }

/-- The deficit round-robin of an engine context: the copy that sends, and what the engine remembers. Each copy stands with the bytes of
its next chunk. -/
def pickCopy (ready : List (Copy × Nat)) : Nat → EngineCtx → Option Copy × EngineCtx
  | 0, x => (none, x)
  | k + 1, x =>
    match nextCopy (x.last.getD x.visit 0) ((ready.map (·.1)).filter fun c => c.cls == x.visit) with
    | none => pickCopy ready k (x.leave true)
    | some c =>
      let x := if x.credited then x else { x with credited := true, deficit := x.deficit.set x.visit (x.deficit.getD x.visit 0 + quantum x.visit) }
      let n := match ready.find? fun p => p.1.cid == c.cid with | some p => p.2 | none => 0
      let d := x.deficit.getD x.visit 0
      if n ≤ d then (some c, { x with deficit := x.deficit.set x.visit (d - n), last := x.last.set x.visit c.cid })
      else pickCopy ready k (x.leave false)

/-- The bytes of the next chunk of a copy: none where it has to wait, 0 for one that stops instead. -/
def State.nextBytes (s : State) (c : Copy) : Option Nat :=
  match (s.prepareChunk c).1 with
  | .error .held => none
  | .error _ => some 0
  | .ok k => some k.bytes

/-- The copies of an engine context that may send, each with the bytes of its next chunk. -/
def State.sendable (s : State) (engine k : Nat) : List (Copy × Nat) :=
  (s.readyCopies engine k).filterMap fun c => (s.nextBytes c).map fun n => (c, n)

/-- A class that runs out of ready chunks: its deficit is 0, and its visit is over. -/
def EngineCtx.rest (x : EngineCtx) (classes : List Nat) : EngineCtx :=
  let x := { x with deficit := (List.range 4).map fun c => if classes.contains c then x.deficit.getD c 0 else 0 }
  if classes.contains x.visit then x else { x with credited := false }

/-- Every class of every engine context that has run out. -/
def State.restClasses (s : State) : State :=
  { s with copy := { s.copy with engines := s.copy.engines.filterMap fun p =>
      let x := p.2.rest ((s.readyCopies (p.1 / 256) (p.1 % 256)).map (·.cls))
      if x = EngineCtx.reset then none else some (p.1, x) } }

/-- The engine context that is served next: the one after the last, round-robin. -/
def nextKey (last : Nat) (ks : List Nat) : Option Nat :=
  let least := fun (l : List Nat) => l.foldl (fun b k => match b with | none => some k | some j => some (min j k)) none
  match least (ks.filter fun k => k + 1 > last) with
  | some k => some k
  | none => least ks

/-- COPY_CHUNK_SEND (R299): The copy engine sends the next chunk by deficit round-robin. -/
def execEvCopyChunkSend (engine : Nat) (s : State) : Host.Outcome State Fault Refusal :=
  let s := s.beginCopies
  let keys := ((s.copy.copies.filter fun c => c.engine == engine && c.ready).filter fun c => (s.nextBytes c).isSome).map fun c => ccbKey c.hp c.ctx
  match nextKey (smGet 0 engine s.copy.lastCtx) (keys.filter fun k => k < 256) with
  | none => .next s
  | some k =>
    let (c, x) := pickCopy (s.sendable engine k) 16 (s.engineCtx engine k)
    let s := s.setEngineCtx engine k x
    let s := { s with copy := { s.copy with lastCtx := smPut 0 engine (k + 1) s.copy.lastCtx } }
    match c.bind s.sendChunk with
    | none => .next s
    | some (_, s) => .next s.restClasses

/-! ## Completion (R306, R307) -/

/-- The record of a copy in error. -/
def State.logCopy (s : State) (c : Copy) : State :=
  let (source, at_) := match c.eid.bind s.entry? with
    | some e => (e.q, s.entryWhere e)
    | none => ((s.team c.ref.tid).linear, c.pc.toNat)
  s.logError c.hp c.ctx (copyRecord 0x0C c.status c.eid.isSome source at_ c.failva c.tlval.toNat c.engine s.ns)

/-- Step 3: the barrier arrival; a refusal is status 10, a mark 11 (08 R267, R268). -/
def State.copyArrive (s : State) (c : Copy) : Copy × State :=
  match c.bar with
  | none => (c, s)
  | some (half, off) =>
    if c.arrived || c.status ≠ 0 then (c, s)
    else if c.marked then ({ c with status := 11 }, s)
    else
      match s.engineArrive c.ref.tid ((s.team c.ref.tid).barHalf c.ref.bent half off) off with
      | (true, s) => ({ c with arrived := true }, s)
      | (false, s) => ({ c with status := 10 }, s)

/-- Steps 3 to 5 of a slice's copy. -/
def State.endCopy (s : State) (c : Copy) : State :=
  let (c, s) := s.copyArrive c
  let err := c.status != 0
  let s := if err then s.logCopy c else s
  let s := s.advance c.hp c.ctx c.tlid c.tlval.toNat err { kind := 1, source := 0xFFFFFFFF, where_ := 0 }
  let s := (((s.dropCopy c.cid).freeRanges c.cid).dropIssue c.cid).clearToken c.ref (some c.token)
  if err then s.completionFault c.ref (copyFault c.status) c.pc c.inst else s

/-- Step 2: the follow-on is placed, or waits for room. -/
def State.placeAndEnd (s : State) (c : Copy) : State :=
  match c.follow with
  | some b =>
    if c.status ≠ 0 then s.endCopy c
    else
      match s.placeFollow c.ref b c.pc c.inst c.tag with
      | some s => s.endCopy { c with follow := none }
      | none => s.setCopy { c with placing := true }
  | none => s.endCopy c

/-- A copy whose bytes have moved completes. -/
def State.finishCopy (s : State) (c : Copy) : State :=
  match c.eid with
  | none => s.placeAndEnd c
  | some eid =>
    let s := if c.status ≠ 0 then s.logCopy c else s
    let s := s.dropCopy c.cid
    match s.entry? eid with
    | some e => s.completeEntry e (c.status != 0)
    | none => s

/-! ### Containment (07 R239, R240) -/

/-- A copy whose transfer a Scribe has refused, as the record names it: its completion is the release. -/
def Copy.affected (c : Copy) : Affected :=
  { scope := c.scope.rank, source := 1, lclass := .r, line := none, interval := 0, team := ccbKey c.hp c.ctx, bent := 0, sl := 0, half := 0,
    cluster := c.engine, pc := 0 }

/-- What the chunks sent so far have written. -/
def Copy.written (c : Copy) : List (Nat × Nat) :=
  if c.op = 3 then (List.range ((c.pos.dst + 1) / 2 / 32 + 1)).map fun k => (c.dst + 32 * k, min 32 ((c.pos.dst + 1) / 2 - 32 * k))
  else ((List.range c.next).flatMap c.units).map fun u => (u.dst, u.dn)

def State.poisonPlaces (s : State) : List Place → State
  | [] => s
  | .mem pa n _ _ _ :: ps => State.poisonPlaces { s with mem := { s.mem with poison := poisonRun s.mem.poison pa n (n / 32 + 2) } } ps
  | _ :: ps => s.poisonPlaces ps

def State.poisonWritten (c : Copy) : State → List (Nat × Nat) → State
  | s, [] => s
  | s, (va, n) :: ws =>
    State.poisonWritten c (match s.copyPlaces c c.dsp .write va n with | (.ok ps, s) => s.poisonPlaces ps | (.error _, s) => s) ws

/-- A copy is contained: its record, its destination chunks poisoned, status 12. -/
def State.containCopy (s : State) (c : Copy) (viol line : Nat) : State × Copy :=
  let off : Offender := { id := c.cid, cls := .s, pa := line * 128, interval := 0, done := false }
  let s := s.logError c.hp c.ctx (containRecord c.affected viol (s.homeScribe c.hp line) (some off) false s.ns)
  (State.poisonWritten c s c.written, { c.failAt (match c.written with | (va, _) :: _ => va | [] => c.dst) with status := 12, lost := none, halted := true })

/-- COPY_COMPLETE (R306): A copy's chunks have performed; it places follow-ons, arrives, advances its timeline and clears
its token. It waits for the receipts of what it wrote (07 R236), and at sys scope for its deferred windows (07 R235). -/
def execEvCopyComplete (cid : Nat) (s : State) : Host.Outcome State Fault Refusal :=
  let s := s.beginCopies
  match s.copy? cid with
  | none => .next s
  | some c =>
    if !c.moved || c.placing || s.windowsHold c.scope || s.mem.xfers.any (fun x => x.client == .copy cid) then .next s
    else
      let (s, c) := match c.lost with | some (viol, line) => s.containCopy c viol line | none => (s, c.final)
      .next (s.finishCopy c).retire.restClasses

/-- FOLLOWON_ENTER (10 R322): A waiting follow-on command enters its team queue when there is room. -/
def execEvFollowonEnter (cid : Nat) (s : State) : Host.Outcome State Fault Refusal :=
  match s.copy? cid with
  | none => .next s
  | some c => .next (if c.placing then (s.placeAndEnd { c with placing := false }).retire else s)

/-! ## Abandonment and replay (R312 to R315) -/

/-- COPY_ABANDON (R312): A retryable transfer error abandons a copy. -/
def execEvCopyAbandon (cid : Nat) (s : State) : Host.Outcome State Fault Refusal :=
  match s.copy? cid with
  | none => .next s
  | some c => .next (if c.started && !c.halted && !c.placing then (s.setCopy { c with abandoned := true }).restClasses else s)

/-- A copy from its first chunk; a reduce keeps what it has applied, and the poison that it met there. -/
def Copy.again (c : Copy) : Copy :=
  let c := { c with abandoned := false, halted := false, status := 0 }
  if c.op = 2 then { c with next := c.segbase, failva := c.bad.getD 0 } else { c with next := 0, pos := CvtPos.zero, bad := none, failva := 0 }

/-- The scoreboard entries that a copy of a restored context still needs (R315). -/
def State.rangesLacking (s : State) (c : Copy) : List ScoreRange :=
  if c.eid.isSome || s.mem.ranges.any (fun e => e.cid == c.cid) then [] else c.ranges (s.team c.ref.tid)

/-- No save holds the copy back, and its team is on the device (R315, 11 R359). -/
def State.mayReplay (s : State) (c : Copy) : Bool :=
  smGet 0 (ccbKey c.hp c.ctx) s.dist.saving == 0 && (c.eid.isSome || !(s.team c.ref.tid).away)

/-- COPY_REPLAY (R313): An abandoned copy is replayed from its first chunk, once its cause is answered. -/
def execEvCopyReplay (cid : Nat) (s : State) : Host.Outcome State Fault Refusal :=
  match s.copy? cid with
  | none => .next s
  | some c =>
    let es := s.rangesLacking c
    .next (if s.mayReplay c && c.abandoned && c.waits.isEmpty && s.rangesFit es then (s.takeRanges es).setCopy c.again else s)

/-! ## Scrubs (R297, R298) -/

def State.scrub? (s : State) (sid : Nat) : Option Scrub := s.copy.scrubs.find? fun x => x.sid == sid
def State.setScrub (s : State) (x : Scrub) : State :=
  { s with copy := { s.copy with scrubs := s.copy.scrubs.map fun y => if y.sid = x.sid then x else y } }

def State.endScrub (s : State) (x : Scrub) (err : Bool) : State :=
  let s := { s with copy := { s.copy with scrubs := s.copy.scrubs.filter fun y => y.sid != x.sid } }
  match s.entry? x.eid with
  | some e => s.completeEntry e err
  | none => s

/-- A sector of the range is poisoned now. One that has no translation any more is as the scrub left it; host lines are skipped. -/
def State.scrubPoisoned (s : State) (x : Scrub) (k : Nat) : Bool :=
  match (s.xlate x.hp x.ctx ((x.addr + 32 * k) % 2 ^ 64) .read).1 with
  | .ok _ pa => let pa := s.engineAt false pa; !(s.region x.hp pa).isHost && s.poisoned pa 32
  | _ => x.bad.contains k

/-- Byte b of the bitmap. -/
def State.scrubByte (s : State) (x : Scrub) (b : Nat) : Byte :=
  BitVec.ofNat 8 (((List.range 8).map fun k => if 8 * b + k < x.nsect ∧ s.scrubPoisoned x (8 * b + k) then 2 ^ k else 0).sum)

def State.scrubBitmap (s : State) (x : Scrub) : List Byte := (List.range ((x.nsect + 7) / 8)).map (s.scrubByte x)

/-- Sectors scrubbed: host lines are not counted. -/
def Scrub.counts (x : Scrub) : List Byte :=
  bytesOfNat 8 x.scanned ++ bytesOfNat 8 x.fixed.eraseDups.length ++ bytesOfNat 8 x.newpoison ++ bytesOfNat 8 x.oldpoison

/-- The bitmap, then the record, then the end of the packet. -/
def State.writeScrub (s : State) (x : Scrub) : State :=
  match s.tryWriteAll x.hp x.ctx x.map (s.scrubBitmap x) with
  | .error (_, s) => s.endScrub x true
  | .ok s =>
    match s.tryWriteAll x.hp x.ctx x.recAddr x.counts with
    | .error (_, s) => s.endScrub x true
    | .ok s => s.endScrub x false

/-- One sector below the L2s: what is found adds to the counts; an uncorrectable sector is poisoned. A sector that this scrub has
poisoned in an earlier run stays one of its own. -/
def State.scrubSector (s : State) (x : Scrub) (pa : Nat) (found : ScrubFinding) : Scrub × State :=
  let k := x.next
  let x := { x with next := k + 1, scanned := x.scanned + 1 }
  let s := s.bumpErr 9
  let (x, s) := if found.fixed then ({ x with fixed := k :: x.fixed }, s.bumpErr 10) else (x, s)
  if s.poisoned pa 32 then (if x.bad.contains k then { x with newpoison := x.newpoison + 1 } else { x with oldpoison := x.oldpoison + 1 }, s)
  else if found.bad then
    let s := s.bumpErr 11
    ({ x with bad := k :: x.bad, newpoison := x.newpoison + 1 },
     { s with mem := { s.mem with poison := setPoison s.mem.poison (sectorOf pa) true } })
  else (x, s)

/-- A fault on the range abandons the scrub: it begins again once it is answered (R313). -/
def Scrub.pause (x : Scrub) (fid : Nat) : Scrub := { x with waits := [fid], next := 0, scanned := 0, newpoison := 0, oldpoison := 0 }

/-- SCRUB_SECTOR (R297): Scrubs one sector under the directory lock. -/
def execEvScrubSector (sid : Nat) (found : ScrubFinding) (s : State) : Host.Outcome State Fault Refusal :=
  match s.scrub? sid with
  | none => .next s
  | some x =>
    if !x.waits.isEmpty then .next s
    else if x.nsect ≤ x.next then .next (s.writeScrub x)
    else
      let va := (x.addr + 32 * x.next) % 2 ^ 64
      match s.xlate x.hp x.ctx va .read with
      | (.absent level mig, s) =>
        let (fid, s) := s.engineFault x.hp x.ctx 1 x.engine level mig va .read
        .next (s.setScrub (x.pause fid))
      | (.ok e pa, s) =>
        let rt := s.readRoute (engineSource x.engine) pa
        let pa := rt.addr pa
        if rt.isHeld || s.lineHeld (lineOf pa) 0 then .next s
        else if (s.region x.hp pa).isHost then .next (s.setScrub { x with next := x.next + 1 })
        else if s.reachable x.hp e.keyid pa then
          let (x, s) := s.scrubSector x pa found
          .next (s.setScrub x)
        else .next (((s.countKey e.keyid).bumpErr 7).endScrub x true)
      | (_, s) => .next (s.endScrub x true)

/-! ## TLWT (R308) -/

/-- The timeline's value is at least what a slice waits for. -/
def State.timelineReached (s : State) (r : SliceRef) : Bool :=
  match (s.slice r).wait with
  | .timeline n v =>
    let t := s.team r.tid
    match s.timelineVa t.hp t.ctx n with
    | none => false
    | some va => match s.timeline t.hp t.ctx va with | some (x, _, _) => decide (v.toNat ≤ x) | none => false
  | .along => true
  | _ => false

def Wait.isTimeline : Wait → Bool
  | .timeline _ _ => true
  | _ => false

/-- TLWT_RETURN (R308): TLWT returns once the timeline value is reached, for every slice of the gang; an acquire. -/
def execEvTlwtReturn (r : SliceRef) (s : State) : Host.Outcome State Fault Refusal :=
  let rs := s.gangRefs r
  if (rs.any fun q => (s.slice q).wait.isTimeline) && rs.all s.timelineReached then
    .next (acquireWide (fun _ q => s.tlwtScope q) (releaseAll (fun x => (x.passed s.mem.nextOp).passThree) s rs) rs)
  else .next s

end Sys2Proof.Machine
end

