-- ==== Sys2Proof/Machine/Migrate.lean ====
section
/-! DEFINITION. The migration engine: the MIGRATE packet and the stages of a page (06 R205 to R209). -/

namespace Sys2Proof.Machine

/-! ## The packet (R205, R206) -/

structure MigBody where
  va : Nat
  newpa : Nat
  npages : Nat
  tier : Nat
  msa : Bool

def Entry.migBody (e : Entry) : MigBody :=
  { va := e.field 191 128, newpa := e.field 255 192, npages := e.field 271 256, tier := e.field 273 272, msa := bitOf e.n 274 }

/-- The leaf of a page: its size code, frame, and the entries of its run as (address, entry). -/
structure LeafRun where
  sz : Nat
  frame : Nat
  entries : List (Nat × Nat)
  deriving DecidableEq, Repr

def State.leafRun (s : State) (hp ctx va : Nat) : Option LeafRun :=
  if !canonical va then none
  else
    match s.walk hp ctx va with
    | .leaf level at_ e =>
      let sz := bitsOf e 10 8
      let n := 2 ^ (pageBits sz - levelLow level)
      let first := at_ / (16 * n) * (16 * n)
      some { sz := sz, frame := pteFrame e, entries := (List.range n).map fun k => (first + 16 * k, natOfBytes (memReadN s.mem.bytes (first + 16 * k) 16)) }
    | _ => none

/-- One address in each 32 MiB of a range, and the last: no bound of the physical map (01 R28, R30) but an expander's end lies closer
to another. -/
def rangeProbes (pa n : Nat) : List Nat := (List.range (n / 2 ^ 25 + 1)).map fun k => min (pa + 2 ^ 25 * k) (pa + n - 1)

/-- The whole destination of a page is backed. -/
def State.pageBacked (s : State) (hp pa n : Nat) : Bool := ((pa + n - 1) :: rangeProbes pa n).all fun a => (s.region hp a).backed

/-- The check that page i fails, by SUB of R441: the lowest that applies. A VA that is not aligned to its page size is reported as SUB 2
(DESIGN CHOICE, log entry 105). -/
def State.pageCheck (s : State) (hp ctx : Nat) (b : MigBody) (sz0 i : Nat) : Option Nat :=
  let n := 2 ^ pageBits sz0
  match s.leafRun hp ctx (b.va + i * n) with
  | none => some 1
  | some r =>
    let dst := b.newpa + i * n
    if r.sz ≠ sz0 ∨ b.va % n ≠ 0 then some 2
    else if b.newpa % n ≠ 0 ∨ !(s.pageBacked hp dst n) then some 3
    else if !(tierOk b.tier dst) then some 4
    else if b.msa ∧ b.tier ≠ 0 then some 5
    else if overlap r.frame n b.newpa (b.npages * n) ∧ r.frame ≠ dst then some 6
    else none

/-- The lowest page that fails, and how; a page with several failures names the lowest SUB (DESIGN CHOICE, log entry 106). -/
def State.pagesCheck (s : State) (hp ctx : Nat) (b : MigBody) (sz0 : Nat) : Nat → Nat → Option (Nat × Nat)
  | 0, _ => none
  | k + 1, i =>
    match s.pageCheck hp ctx b sz0 i with
    | some c => some (i, c)
    | none => s.pagesCheck hp ctx b sz0 k (i + 1)

/-- A record of the migration engine (01 R441). -/
def State.logMigrate (s : State) (e : Entry) (cause sub va pa : Nat) : State :=
  s.logError e.hp e.ctx (accessRecord cause 4 sub e.q va pa (s.entryWhere e) s.ns)

/-- The migration engine of a far die moves one packet's pages at a time (01 R23). -/
def State.migBusy (s : State) (die : Nat) : Bool := s.mem.migs.any fun m => m.die == die

/-- MIGRATE_PACKET (R206): Checks every page of a migration and starts moving them. -/
def execEvMigratePacket (eid : Nat) (s : State) : Host.Outcome State Fault Refusal :=
  match s.toStart? eid with
  | none => .next s
  | some e =>
    if e.stage ≠ 3 ∨ e.kind ≠ 5 ∨ s.migBusy e.engine then .next s
    else
      let b := e.migBody
      let sz0 := match s.leafRun e.hp e.ctx b.va with | some r => r.sz | none => 0
      match s.pagesCheck e.hp e.ctx b sz0 b.npages 0 with
      | some (i, sub) => .next ((s.logMigrate e 2 sub (b.va + i * 2 ^ pageBits sz0) 0).completeEntry e true)
      | none =>
        let (mid, s) := s.fresh
        let m : Migration := { mid := mid, eid := eid, hp := e.hp, ctx := e.ctx, va := b.va, newpa := b.newpa, npages := b.npages, newtier := b.tier,
                               newmsa := b.msa, page := 0, sz := sz0, oldpa := 0, entries := [], stage := 0, held := [], heldNew := [],
                               die := e.engine, uses := [], lost := none, before := [], tag := e.tag }
        .next ({ s with mem := { s.mem with migs := s.mem.migs ++ [m] } }.setEntry { e with stage := 4 })

/-! ## Stages (R207) -/

def State.mig? (s : State) (mid : Nat) : Option Migration := s.mem.migs.find? fun m => m.mid == mid
def State.setMig (s : State) (m : Migration) : State :=
  { s with mem := { s.mem with migs := s.mem.migs.map fun x => if x.mid = m.mid then m else x } }

def Migration.pageVa (m : Migration) : Nat := m.va + m.page * m.bytes
def Migration.lines (m : Migration) : List Nat := (List.range (m.bytes / 128)).map fun k => m.oldpa / 128 + k

/-- The lines of a range that an L2 holds otherwise than shared are written back and downgraded. -/
def State.recallL2 (s : State) (base n : Nat) : List Nat → State
  | [] => s
  | d :: ds =>
    let mine := (s.l2Of d).filter fun x => pageHas base n (x.line * 128) && x.st != .s
    State.recallL2 (mine.foldl (fun s x => (s.writeBack x).setL2Line d { x with st := .s }) s) base n ds

/-- The directory after a recall: the owner is a sharer. -/
def LineState.recall (x : LineState) : LineState :=
  match x.writer with
  | some w => { x with writer := none, readers := if w ∈ x.readers then x.readers else w :: x.readers }
  | none => x

/-- Dirty owners are recalled to the old location and become sharers. -/
def State.recallLines (s : State) (base n : Nat) : State :=
  let s := s.recallL2 base n (List.range Config.computeDies)
  { s with mem := { s.mem with
      lines := (s.mem.lines.map fun p => if pageHas base n (p.1 * 128) then (p.1, p.2.recall) else p).filter fun p => p.2 != LineState.fresh } }

/-- The L1 without the lines of a range. -/
def L1.without (base n : Nat) (c : L1) : L1 :=
  { c with sectors := c.sectors.filter fun x => !(pageHas base n (x.sec * 32)), icache := c.icache.filter fun p => !(pageHas base n (p.1 * 128)) }

/-- Every cached copy of the lines of a range is invalidated: in the L1s and the instruction caches, the L2s and the Sills. -/
def State.dropCopies (s : State) (base n : Nat) : State :=
  let s := s.recallL2 base n (List.range Config.computeDies)
  { s with mem := { s.mem with
      l1 := (s.mem.l1.map fun p => (p.1, p.2.without base n)).filter fun p => p.2 != L1.empty
      l2 := (s.mem.l2.map fun p => (p.1, p.2.filter fun x => !(pageHas base n (x.line * 128)))).filter fun p => !p.2.isEmpty
      sill := (s.mem.sill.map fun p => (p.1, p.2.filter fun x => !(pageHas base n (x.line * 128)))).filter fun p => !p.2.isEmpty
      lines := (s.mem.lines.map fun p => if pageHas base n (p.1 * 128) then (p.1, { p.2 with readers := [], writer := none }) else p).filter fun p => p.2 != LineState.fresh } }

/-- MSA of the entries that were read. -/
def Migration.oldMsa (m : Migration) : Bool := match m.entries with | (_, e) :: _ => bitOf e 7 | [] => false

def Migration.inPlace (m : Migration) : Bool := m.dest == m.oldpa

def State.dropMig (s : State) (mid : Nat) : State := { s with mem := { s.mem with migs := s.mem.migs.filter fun x => x.mid != mid } }

/-- MIGRATE_PAGE_LOCK (R207): Locks a page's lines at their home and recalls dirty owners. The page's entries are read here, and are what
SWITCH compares with (DESIGN CHOICE, log entry 107); a page whose leaf is gone by now ends the packet as a failed check of SUB 1 (DESIGN
CHOICE, log entry 108). -/
def execEvMigratePageLock (mid : Nat) (s : State) : Host.Outcome State Fault Refusal :=
  match s.mig? mid with
  | none => .next s
  | some m =>
    if m.stage ≠ 0 then .next s
    else
      match s.leafRun m.hp m.ctx m.pageVa with
      | none =>
        match s.entry? m.eid with
        | some e => .next (((s.dropMig mid).logMigrate e 2 1 m.pageVa 0).completeEntry e true)
        | none => .next s
      | some r =>
        if s.rangeHeld r.frame m.bytes then .next s
        else
          let m := { m with oldpa := r.frame, entries := r.entries, stage := 1 }
          let s := (s.setMig m).recallLines m.oldpa m.bytes
          .next (if m.oldMsa != m.newmsa || m.inPlace then s.dropCopies m.oldpa m.bytes else s)

/-- Held writes performed in order of arrival at a home, each where `move` puts it. -/
def State.performHeld (who : Nat) (key : Nat) (move : Nat → Nat) : State → List HeldAccess → State
  | s, [] => s
  | s, a :: as => State.performHeld who key move (if a.isWrite then s.commitAll who (move a.pa) a.data key else s) as

/-- The key under which the page is kept. -/
def Migration.keyid (m : Migration) : Nat := match m.entries with | (_, e) :: _ => bitsOf e 76 64 | [] => 0

/-- A line as it was before a copy came. -/
def State.restoreLine (s : State) (x : Nat × List Byte × BitVec 4) : State :=
  { s with mem := { s.mem with
      bytes := memWriteN s.mem.bytes (x.1 * 128) x.2.1
      poison := (List.range 4).foldl (fun p k => setPoison p (4 * x.1 + k) (x.2.2.getLsbD k)) s.mem.poison } }

/-- Ends a migration whose page is aborted (R209): the new lines are discarded, the writes held are performed at the old location, those
held at the new home where they are; the packet completes in error. -/
def State.abortMig (s : State) (m : Migration) (sub va pa : Nat) : State :=
  let s := m.before.foldl State.restoreLine (s.dropMig m.mid)
  let s := State.performHeld (homeWriter (s.region m.hp m.oldpa).home) m.keyid id s m.held
  let s := State.performHeld (homeWriter (s.region m.hp m.dest).home) m.keyid id s m.heldNew
  match s.entry? m.eid with
  | some e => (s.logMigrate e 3 sub va pa).completeEntry e true
  | none => s

/-- A migration engine, as the writer of the lines that it moves (07 R253). -/
def migWriter (die : Nat) : Nat := 120 + die

/-- A line with its poison. -/
def State.lineOfMem (s : State) (line : Nat) : Nat × List Byte × BitVec 4 :=
  (line, memReadN s.mem.bytes (line * 128) 128,
   BitVec.ofNat 4 ((List.range 4).map fun k => if s.poisoned (line * 128 + 32 * k) 32 then 2 ^ k else 0).sum)

/-- Moves one line with its poison: a hashed transfer to the new line's home, whose interval is one above the old line's (07 R253). -/
def State.moveLine (s : State) (m : Migration) (src dst : Nat) : State :=
  let (_, bs, bad) := s.lineOfMem (src / 128)
  let h := (s.region m.hp dst).home
  let iv := (s.line (src / 128)).interval + 1
  let s := s.commit (homeWriter h) dst bs m.keyid
  let s := s.setLine (dst / 128) { s.line (dst / 128) with interval := iv, writer := some (migWriter m.die), readers := [] }
  ({ s with mem := { s.mem with poison := (List.range 4).foldl (fun p k => setPoison p (dst / 32 + k) (bad.getLsbD k)) s.mem.poison } }).addXfer
    { line := dst / 128, unit := 8 + h, interval := iv, write := true, client := .mig m.mid }

def State.moveLines (m : Migration) : State → List Nat → State
  | s, [] => s
  | s, l :: ls => State.moveLines m (s.moveLine m (l * 128) (m.dest + (l * 128 - m.oldpa))) ls

/-- MIGRATE_PAGE_COPY (R207): Copies each line of the page to its new location. -/
def execEvMigratePageCopy (mid : Nat) (s : State) : Host.Outcome State Fault Refusal :=
  match s.mig? mid with
  | none => .next s
  | some m =>
    if m.stage ≠ 1 || s.rangeHeld m.dest m.bytes then .next s
    else
      match ((m.dest + m.bytes - 1) :: rangeProbes m.dest m.bytes).reverse.find? fun a => !(s.reachable m.hp m.keyid a) with
      | some pa => .next (((s.countKey m.keyid).bumpErr 7).abortMig m 2 (m.pageVa + (pa - m.dest)) pa)
      | none =>
        let m' := { m with stage := 2, before := if m.inPlace then [] else m.lines.map fun l => s.lineOfMem ((m.dest + (l * 128 - m.oldpa)) / 128) }
        .next ((State.moveLines m s m.lines).setMig m')

/-- An entry with its new frame, TIER and MSA; D is set when writes are held. -/
def Migration.newEntry (m : Migration) (e : Nat) : Nat :=
  let e := setBits (setBits (setBits e 51 12 (m.dest / 4096)) 84 83 m.newtier) 7 7 (bitVal m.newmsa)
  if m.held.any (·.isWrite) then setBits e 6 6 1 else e

def State.writeEntries (m : Migration) : State → List (Nat × Nat) → State
  | s, [] => s
  | s, (at_, e) :: es => State.writeEntries m ((s.orBlock true at_ 16).commit (homeWriter (s.region m.hp at_).home) at_ (bytesOfNat 16 (m.newEntry e))) es

/-- A migration whose transfer a Scribe has refused, as the record names it (07 R240). -/
def Migration.affected (m : Migration) : Affected :=
  { scope := Scope.dev.rank, source := 5, lclass := .r, line := none, interval := 0, team := ccbKey m.hp m.ctx, bent := 0, sl := 0, half := 0,
    cluster := m.die, pc := 0 }

/-- A transfer of the page has failed: recorded, and the page is aborted (DESIGN CHOICE, log entry 118). -/
def State.containMig (s : State) (m : Migration) (viol : Nat) : State :=
  let off : Offender := { id := m.mid, cls := .s, pa := m.dest, interval := 0, done := false }
  (s.logError m.hp m.ctx (containRecord m.affected viol (s.homeScribe m.hp (lineOf m.dest)) (some off) false s.ns)).abortMig m 2 m.pageVa m.dest

/-- MIGRATE_PAGE_SWITCH (R207): Writes the page's entries with a compare-and-write, once the new homes have sent their receipts (07
R236, R253). -/
def execEvMigratePageSwitch (mid : Nat) (s : State) : Host.Outcome State Fault Refusal :=
  match s.mig? mid with
  | none => .next s
  | some m =>
    if m.stage ≠ 2 || s.mem.xfers.any (fun x => x.client == .mig mid) then .next s
    else
      match m.lost with
      | some viol => .next (s.containMig m viol)
      | none =>
        if m.entries.all fun p => natOfBytes (memReadN s.mem.bytes p.1 16) == p.2 then
          .next ((State.writeEntries m s m.entries).setMig { m with stage := 3, before := [] })
        else .next (s.abortMig m 1 m.pageVa m.oldpa)

/-- The page, as a shoot-down names it in every context. -/
def Migration.shoot (m : Migration) : Shoot := { ctx := m.ctx, allCtx := true, allVa := false, lo := shootVa m.pageVa, n := m.bytes }

/-- MIGRATE_PAGE_SHOOT (R207): Shoots down the page's translations and old cached lines. The operations that used them are those whose
acknowledgements DRAIN awaits. -/
def execEvMigratePageShoot (mid : Nat) (s : State) : Host.Outcome State Fault Refusal :=
  match s.mig? mid with
  | none => .next s
  | some m =>
    if m.stage ≠ 3 then .next s
    else
      let (s, ids) := s.shoot m.hp m.shoot
      .next ((s.dropCopies m.oldpa m.bytes).setMig { m with stage := 4, uses := ids })

/-- Where an address of the old page lies now. -/
def Migration.moved (m : Migration) (pa : Nat) : Nat := if pageHas m.oldpa m.bytes pa then m.dest + (pa - m.oldpa) else pa

def Migration.movedLine (m : Migration) (l : Nat) : Nat := lineOf (m.moved (l * 128))

/-- An operation on the page goes on at the new lines. -/
def Migration.moveOp (m : Migration) (o : Op) : Op :=
  { o with
    elems := o.elems.map fun e => { e with pa := m.moved e.pa }
    acks := o.acks.foldl (fun a p => smSet (m.movedLine p.1) p.2 a) []
    ints := o.ints.foldl (fun a p => smPut 0 (m.movedLine p.1) p.2 a) [] }

/-- The narrow holders of an old line hold the new one. -/
def Migration.moveNarrow (m : Migration) (s : State) (p : Nat × LineState) : State :=
  if pageHas m.oldpa m.bytes (p.1 * 128) && !m.inPlace && !p.2.narrow.isEmpty then
    let l := m.movedLine p.1
    (s.setLine l { s.line l with narrow := p.2.narrow }).setLine p.1 { s.line p.1 with narrow := [] }
  else s

/-- What the clusters have under way to the page is forwarded to the new lines (R207, R208): buffered stores, and operations that have
not been acknowledged. -/
def State.forward (s : State) (m : Migration) : State :=
  let s := s.dropCopies m.oldpa m.bytes
  let s := s.mem.lines.foldl m.moveNarrow s
  { s with mem := { s.mem with
      l1 := s.mem.l1.map fun p => (p.1, { p.2 with wbuf := p.2.wbuf.map fun e => { e with pa := m.moved e.pa } })
      ops := s.mem.ops.map m.moveOp } }

/-- MIGRATE_PAGE_RELEASE (R207): Clears the locks and forwards held writes to the new lines, then performs what the new
home held. -/
def execEvMigratePageRelease (mid : Nat) (s : State) : Host.Outcome State Fault Refusal :=
  match s.mig? mid with
  | none => .next s
  | some m =>
    if m.stage ≠ 4 then .next s
    else
      let who := homeWriter (s.region m.hp m.dest).home
      let s := State.performHeld who m.keyid m.moved (s.forward m) m.held
      let s := State.performHeld who m.keyid id s m.heldNew
      .next (s.setMig { m with stage := 5, held := [], heldNew := [] })

/-- MIGRATE_PAGE_DRAIN_DONE (R207): All shoot-down acknowledgements for the page have arrived: what used its old translation has performed
at dev scope. -/
def execEvMigratePageDrainDone (mid : Nat) (s : State) : Host.Outcome State Fault Refusal :=
  match s.mig? mid with
  | none => .next s
  | some m =>
    .next (if m.stage = 5 ∧ !(s.mem.ops.any fun o => m.uses.contains o.id && !(o.ackedAt .dev)) then s.setMig { m with stage := 6, uses := [] } else s)

/-- MIGRATE_PAGE_FREE (R207): Ends forwarding; after the last page the timeline advances. -/
def execEvMigratePageFree (mid : Nat) (s : State) : Host.Outcome State Fault Refusal :=
  match s.mig? mid with
  | none => .next s
  | some m =>
    if m.stage ≠ 6 then .next s
    else if m.page + 1 < m.npages then
      .next (s.setMig { m with page := m.page + 1, stage := 0, oldpa := 0, entries := [] })
    else
      let s := s.dropMig mid
      match s.entry? m.eid with
      | some e => .next (s.completeEntry e false)
      | none => .next s

/-- MIGRATE_HELD_ACCESS (R207, R208): An access to a migrating page is served or held by stage. A read that is served
changes nothing. -/
def execEvMigrateHeldAccess (mid : Nat) (a : HeldAccess) (s : State) : Host.Outcome State Fault Refusal :=
  match s.mig? mid with
  | none => .next s
  | some m =>
    match routeOne m a.isWrite a.source a.pa with
    | .held _ =>
      if pageHas m.oldpa m.bytes a.pa then .next (s.setMig { m with held := m.held ++ [a] })
      else .next (s.setMig { m with heldNew := m.heldNew ++ [a] })
    | .at_ pa =>
      if a.isWrite && (pageHas m.oldpa m.bytes a.pa || pageHas m.dest m.bytes a.pa) then .next (s.commitAll (homeWriter (s.region m.hp pa).home) pa a.data m.keyid) else .next s

end Sys2Proof.Machine
end

