-- ==== Sys2Proof/Machine/Dist.lean ====
section
/-! DEFINITION. The work distributor: packet checks, queues, the ready pool and dispatch, and the packets that it runs
itself (01 R34 to R37, 09 R290 to R293, 11 R341 to R353). -/

namespace Sys2Proof.Machine

/-! ## Bodies (R36) -/

/-- A body's first fault: 3 a reserved field, 5 malformed. -/
def firstFault (reserved bad : Bool) : Nat := if reserved then 3 else if bad then 5 else 0

def Entry.ctrl (e : Entry) (hi lo : Nat) : Bool := e.field hi lo != 0

def kernelFault (e : Entry) : Nat :=
  let g := e.field 287 256 * e.field 303 288 * e.field 319 304
  firstFault (e.ctrl 447 388) (e.ctrl 135 128 || g == 0 || decide (2 ^ 32 ≤ g) || e.field 383 320 % 64 != 0)

/-- The element type of a reduce packet. -/
def reduceTy (c : Nat) : Bool := Ty.ofCode c ∈ [.i32, .z32, .i64, .z64, .f32, .f64]

/-- The copy that a packet describes, but for its tile descriptor (09 R293). -/
def Entry.copy (e : Entry) (cid : Nat) (desc : Option TileDesc) : Copy :=
  { cid := cid, engine := e.engine, hp := e.hp, ctx := e.ctx, cls := e.cls, eid := some e.eid, ref := { tid := 0, bent := 0, sl := 0 },
    token := 0, op := e.field 305 304, scope := .dev, dsp := 0, ssp := 0, dst := e.field 255 192, src := e.field 191 128,
    len := e.field 303 256, ety := Ty.ofCode (e.field 311 308), rop := e.field 315 312, thresh := e.field 320 316, desc := desc,
    tlid := e.tlid, tlval := BitVec.ofNat 64 e.tlval, bar := none, marked := false, follow := none, block := [], pc := 0, inst := 0,
    tag := e.tag, started := true, next := 0, applied := [], segbase := 0, status := 0, failva := 0, bad := none, halted := false, pos := CvtPos.zero,
    waits := [], abandoned := false, placing := false, arrived := false, lost := none }

/-- The attributes of a page, as a probe finds them: raw where there is none. -/
def State.pageAttrs (s : State) (hp ctx va : Nat) : Nat × Nat :=
  match (s.xlate hp ctx va .probe).1 with
  | .ok e _ => (e.fmt, e.geom)
  | _ => (0, 0)

/-- The bytes that `len` elements of a format take. -/
def formatSpan (fmt geom len : Nat) : Nat := if geom ≠ 0 then (len + 255) / 256 * 160 else (len * fmtHalves fmt + 1) / 2

/-- The ranges of a convert overlap: their lengths are those of its elements in the formats of the pages that hold the first of them
(DESIGN CHOICE, log entry 114). -/
def State.convertOverlaps (s : State) (c : Copy) : Bool :=
  let (f, g) := s.pageAttrs c.hp c.ctx c.src
  let (f', g') := s.pageAttrs c.hp c.ctx c.dst
  intervalsMeet (c.src, (c.src + formatSpan (readFmt f f') g c.len : Nat)) (c.dst, (c.dst + formatSpan f' g' c.len : Nat))

def copyPacketFault (e : Entry) : Nat :=
  let op := e.field 305 304
  let c := e.copy 0 none
  let es := tyBytes c.ety
  let bad :=
    (op == 1 && (c.len != 0 || e.field 447 384 % 64 != 0)) || (op != 1 && e.ctrl 447 384)
      || (op == 2 && (!(reduceTy (e.field 311 308)) || decide (c.rop > 5) || c.src % es != 0 || c.dst % es != 0 || c.len % es != 0))
      || (op != 2 && e.ctrl 315 308) || (op != 3 && e.ctrl 320 316) || ((op == 0 || op == 2) && c.overlaps)
  firstFault (e.ctrl 307 306 || e.ctrl 383 321 || e.ctrl 511 448) bad

def scrubFault (e : Entry) : Nat :=
  let n := e.field 223 192
  firstFault (e.ctrl 255 224 || e.ctrl 511 384) (e.ctrl 132 128 || decide (n = 0 ∨ n > 2 ^ 25) || e.ctrl 258 256 || e.ctrl 324 320)

def migrateFault (e : Entry) : Nat :=
  let n := e.field 271 256
  firstFault (e.ctrl 511 275) (decide (n = 0 ∨ n > 4096) || e.field 273 272 == 3)

def graphFault (e : Entry) : Nat := firstFault (e.ctrl 511 192) (e.ctrl 135 128)

def signalFault (e : Entry) : Nat := firstFault (e.ctrl 511 260) (e.ctrl 130 128 || e.field 257 256 == 3 || decide (e.field 259 258 < 2))

/-- The body of a DOVETAIL or COLLECTIVE is judged whole by its half (13 R402, R405; log entry 60, DEDUCED). -/
def bodyFault (e : Entry) : Nat :=
  match e.kind with
  | 0 => firstFault (e.ctrl 511 128) false
  | 1 => kernelFault e
  | 2 => copyPacketFault e
  | 3 => 0
  | 4 => 0
  | 5 => migrateFault e
  | 6 => scrubFault e
  | 7 => graphFault e
  | 8 => signalFault e
  | _ => firstFault (e.ctrl 191 144 || e.ctrl 511 320) false

/-- The cause for which a consumer rejects a packet, or 0 (R36, 11 R342). `bound`: the queue is bound to a copy engine. -/
def State.packetFault (s : State) (e : Entry) (bound : Bool) : Nat :=
  let noTl := fun n => (s.timelineVa e.hp e.ctx n).isNone
  if e.kind > 9 then 1
  else if bound && e.kind != 0 && e.kind != 2 && e.kind != 6 then 2
  else if e.ctrl 15 10 || e.ctrl 23 18 then 3
  else
    let b := bodyFault e
    if b = 3 then 3
    else if (e.tlid != 0 && noTl e.tlid) || (e.kind == 9 && noTl (e.field 143 128)) then 4
    else if b = 0 ∧ e.kind = 2 ∧ e.field 305 304 = 3 ∧ s.convertOverlaps (e.copy 0 none) then 5
    else b

/-! ## Admission (R351) -/

/-- Queue reading and dispatch go on for a context (R340). -/
def State.running (s : State) (hp ctx : Nat) : Bool := (s.ccb hp ctx).en && (s.ccb hp ctx).state == 1

/-- A new entry of a packet. -/
def newEntry (s : State) (hp ctx : Nat) (node : Option (Nat × Nat)) (q idx : Nat) (pkt : List Byte) : Entry :=
  let e : Entry := { eid := s.mem.nextOp, hp := hp, ctx := ctx, node := node, q := q, idx := idx, pkt := pkt, admitted := s.ns, ready := s.ns,
                     level := 0, stage := 1, die := 0, engine := 0, until_ := 0, tag := false }
  { e with level := e.cls }

/-- The device time before which an entry is not ready. -/
def Entry.notBefore (e : Entry) (nb : Nat) : Nat := max nb (if e.kind = 1 then e.field 511 448 else 0)

def State.admitEntry (s : State) (e : Entry) (nb : Nat) : State :=
  let t := e.notBefore nb
  s.addEntry (if s.ns < t then { e with stage := 0, until_ := t } else e)

/-! ## Consumers (R37, R291) -/

/-- What a consumer finds in a header: the slot index and whether the queue is in error. -/
def State.queueHead (s : State) (hp ctx : Nat) (x : QueueReg) : Option (Nat × Bool) × State :=
  match s.tryRead hp ctx x.hdr 32 with
  | .ok (bs, s) => (some (bitsOf (natOfBytes bs) 191 128, bitOf (natOfBytes bs) 72), s)
  | .error (c, s) => (none, s.countMiss c)

/-- The packet before is a WAIT that has not completed, or one that WAITPREV waits for. -/
def State.queueBlocked (s : State) (x : QueueReg) (waitPrev : Bool) : Bool :=
  match x.prev.bind s.entry? with
  | none => false
  | some p => waitPrev || p.kind == 9

/-- The consumer has room for another packet. -/
def State.consumerRoom (s : State) (hp ctx : Nat) (x : QueueReg) : Bool :=
  if x.bind then decide (s.pendingCopies x.engine hp ctx < engineRoom) else decide (s.poolCount hp ctx < poolSize)

/-- An entry that leaves the pool for its engine carries PTAG from there on (08 R283). -/
def State.dispatched (s : State) (e : Entry) : Entry := { e with stage := 3, tag := (s.ccb e.hp e.ctx).ptag }

/-- A packet is started: RDIDX advances, and it is admitted, goes to its copy engine, or is rejected. -/
def State.takePacket (s : State) (hp ctx q : Nat) (x : QueueReg) (idx : Nat) (pkt : List Byte) : State :=
  match s.tryWrite hp ctx (x.hdr + 16) (bytesOfNat 8 (idx + 1)) with
  | .error (c, s) => if c = 3 then (s.bumpErr 8).logError hp ctx (accessRecord 1 7 0 q (x.hdr + 16) (s.paOf hp ctx (x.hdr + 16) .write) idx s.ns) else s
  | .ok s =>
    let e := newEntry s hp ctx none q idx pkt
    let s := s.fresh.2
    match s.packetFault e x.bind with
    | 0 =>
      let s := s.setUserQueue hp ctx q { x with prev := some e.eid }
      if x.bind then s.addEntry (s.dispatched { e with die := x.engine / 4, engine := x.engine }) else s.admitEntry e 0
    | cause => s.rejectEntry e cause

/-- A slot that cannot be read (R291). -/
def State.slotUnreadable (s : State) (hp ctx q idx : Nat) : State :=
  (s.logError hp ctx (wdRecord 1 10 q idx [] s.ns)).queueError hp ctx q idx

/-- QUEUE_SLOT_READ (R291): A consumer reads an eligible slot, starts the packet and advances RDIDX: for a ring in host memory, with a
release at sys scope, which waits for the deferred windows (07 R235). -/
def execEvQueueSlotRead (hp ctx q : Nat) (s : State) : Host.Outcome State Fault Refusal :=
  match s.userQueue hp ctx q with
  | none => .next s
  | some x =>
    if !(s.running hp ctx) || !(s.consumerRoom hp ctx x) || s.queueBlocked x false || (s.hostAt hp ctx x.rbase && s.windowsHold .sys) then .next s
    else
      match s.queueHead hp ctx x with
      | (none, s) => .next s
      | (some (idx, err), s) =>
        if err then .next s
        else
          match s.tryRead hp ctx ((x.rbase + 64 * (idx % 2 ^ x.log2n)) % 2 ^ 64) 64 with
          | .error (c, s) => .next ((s.countMiss c).slotUnreadable hp ctx q idx)
          | .ok (pkt, s) =>
            let n := natOfBytes pkt
            if bitsOf n 31 24 ≠ (idx / 2 ^ x.log2n + 1) % 256 ∨ s.queueBlocked x (bitOf n 8) then .next s
            else .next (s.takePacket hp ctx q x idx pkt)

/-! ## Registration (R290, R341) -/

/-- A header that a reader refuses, by cause; or the queue. -/
def headerQueue (hdr entry n : Nat) : Except Nat QueueReg :=
  let bind := bitOf n 69
  let engine := bitsOf entry 68 64
  if bitsOf n 11 0 ≠ 0 ∨ bitsOf n 71 70 ≠ 0 ∨ bitsOf n 127 73 ≠ 0 ∨ bitsOf n 1023 256 ≠ 0 ∨ bitsOf n 2047 1088 ≠ 0 ∨ bitsOf entry 127 89 ≠ 0 then .error 2
  else if bitsOf n 68 64 < 4 ∨ bitsOf n 68 64 > 20 then .error 3
  else if (bind ∧ engine > 19) ∨ (!bind ∧ engine ≠ 0) then .error 4
  else .ok { hdr := hdr, rbase := bitsOf n 63 0, log2n := bitsOf n 68 64, bind := bind, engine := engine, vec := bitsOf entry 80 70,
             fn := bitsOf entry 87 81, port := bitsOf entry 88 88, prev := none }

def State.refuseQueue (s : State) (hp ctx q cause : Nat) : State := s.logError hp ctx (wdRecord 4 cause q 0 [] s.ns)

/-- Reads one entry of the queue table. -/
def State.registerQueue (s : State) (hp ctx q : Nat) : State :=
  match s.tryReadAll hp ctx ((s.ccb hp ctx).qtab.toNat + 16 * q) 16 with
  | .error (c, s) => (s.countMiss c).refuseQueue hp ctx q 5
  | .ok (bs, s) =>
    let e := natOfBytes bs
    if !bitOf e 69 then s
    else
      let hdr := bitsOf e 63 0
      match s.tryReadAll hp ctx hdr 256 with
      | .error (c, s) => (s.countMiss c).refuseQueue hp ctx q 1
      | .ok (hs, s) =>
        if hdr % 256 ≠ 0 then s.refuseQueue hp ctx q 1
        else
          match headerQueue hdr e (natOfBytes hs) with
          | .error c => s.refuseQueue hp ctx q c
          | .ok x => s.setUserQueue hp ctx q x

def State.registerFrom (hp ctx : Nat) : State → Nat → Nat → State
  | s, _, 0 => s
  | s, q, k + 1 => State.registerFrom hp ctx (s.registerQueue hp ctx q) (q + 1) k

/-- The queue table is read, and what it registered before is gone. -/
def State.readQueueTable (s : State) (hp ctx : Nat) : State :=
  let old := s.dist.queues
  let s := { s with dist := { s.dist with queues := s.dist.queues.filter fun p => p.1 / 65536 != ccbKey hp ctx } }
  let s := State.registerFrom hp ctx s 0 (s.ccb hp ctx).qcnt
  let keep := fun (p : Nat × QueueReg) =>
    if p.1 / 65536 = ccbKey hp ctx then (p.1, { p.2 with prev := (smFind p.1 old).bind (·.prev) }) else p
  { s with dist := { s.dist with queues := s.dist.queues.map keep } }

/-! ## Time in the pool (R351) -/

/-- ENTRY_READY (R351): An entry becomes ready when device time reaches its not-before time. -/
def execEvEntryReady (eid : Nat) (s : State) : Host.Outcome State Fault Refusal :=
  match s.entry? eid with
  | none => .next s
  | some e => .next (if e.stage = 0 then (s.reachNs e.until_).setEntry { e with stage := 1, ready := max s.ns e.until_ } else s)

/-- The time at which an entry's level falls next. -/
def Entry.agesAt (e : Entry) : Nat := e.ready + (e.cls - e.level + 1) * 1000000

/-- LEVEL_AGING (R351): Each full millisecond waited ready raises an entry's level by one. -/
def execEvLevelAging (eid : Nat) (s : State) : Host.Outcome State Fault Refusal :=
  match s.entry? eid with
  | none => .next s
  | some e => .next (if e.stage = 1 ∧ e.level > 0 then (s.reachNs e.agesAt).setEntry { e with level := e.level - 1 } else s)

/-! ## Nodes (R346) -/

/-- The record of a node. -/
def State.readNode (s : State) (g : Graph) (k : Nat) : Option Nat :=
  match s.tryReadAll g.hp g.ctx (g.nodeVa k) 256 with
  | .ok (bs, _) => some (natOfBytes bs)
  | .error _ => none

/-- A record is read: what its walk leaves behind, and whether it has to wait for its line. -/
def State.sawNode (s : State) (g : Graph) (k : Nat) : State :=
  match s.tryReadAll g.hp g.ctx (g.nodeVa k) 256 with
  | .ok (_, s) => s
  | .error (c, s) => s.countMiss c

def nodeSuccs (n : Nat) : List Nat := (List.range (bitsOf n 551 544)).map fun j => bitsOf n (655 + 16 * j) (640 + 16 * j)

structure Operand where
  va : Nat
  len : Nat
  w : Bool
  pf : Bool

def nodeOps (n : Nat) : List Operand :=
  (List.range (bitsOf n 555 552)).map fun j =>
    let b := 1024 + 128 * j
    { va := bitsOf n (b + 63) b, len := bitsOf n (b + 95) (b + 64), w := bitOf n (b + 96), pf := bitOf n (b + 97) }

/-! ## Placement (R352 to R354) -/

/-- The Sill dies of a hard partition. -/
def State.pairsOf (s : State) (hp : Nat) : List Nat := (List.range (planDies s.dev.plan hp)).map (hp + ·)

/-- The Sill die that homes the page of an address, if the address is mapped to near or vault memory. -/
def State.homeDie (s : State) (hp ctx va : Nat) : Option Nat :=
  match (s.xlate hp ctx va .probe).1 with
  | .ok _ pa =>
    match s.region hp pa with
    | .near die _ _ => some die
    | .vault die _ => some die
    | _ => none
  | _ => none

/-- The bytes of a range homed on a Sill die, by granules of 4 KiB. -/
def State.bytesOn (s : State) (hp ctx die va n : Nat) : Nat → Nat
  | 0 => 0
  | k + 1 =>
    if n = 0 then 0
    else
      let m := min n (4096 - va % 4096)
      (if s.homeDie hp ctx va = some die then m else 0) + s.bytesOn hp ctx die (va + m) (n - m) k

def opsOn (s : State) (hp ctx die : Nat) (os : List Operand) : Nat :=
  (os.map fun o => s.bytesOn hp ctx die o.va o.len (o.len / 4096 + 2)).sum

/-- The bytes that completed predecessors of a node wrote on a die pair. -/
def State.wroteOn (s : State) (g : Graph) (k die : Nat) : Nat :=
  (((List.range g.nnode).filter fun p => smGet 0 p g.ran == die + 1).map fun p =>
    match s.readNode g p with
    | some n => if (nodeSuccs n).contains k then (((nodeOps n).filter (·.w)).map (·.len)).sum else 0
    | none => 0).sum

def State.dieScore (s : State) (e : Entry) (die : Nat) : Nat :=
  match e.node with
  | none => 0
  | some (gid, k) =>
    match s.graph? gid with
    | none => 0
    | some g =>
      let os := match s.readNode g k with | some n => nodeOps n | none => []
      opsOn s e.hp e.ctx die os + s.wroteOn g k die

/-- The teams resident on a die pair. -/
def State.teamsOn (s : State) (die : Nat) : Nat :=
  (s.teams.filter fun p => !p.2.ended && !p.2.away && sillOfCluster p.2.cluster == die).length

/-- Inserts a die pair before those it beats: higher score, fewer teams, lower number. -/
def insertPair (before : Nat → Nat → Bool) (m : Nat) : List Nat → List Nat
  | [] => [m]
  | x :: xs => if before m x then m :: x :: xs else x :: insertPair before m xs

def sortPairs (before : Nat → Nat → Bool) : List Nat → List Nat
  | [] => []
  | m :: ms => insertPair before m (sortPairs before ms)

/-- The die pairs that an entry may take, best first (R353). -/
def State.pairOrder (s : State) (e : Entry) : List Nat :=
  let all := s.pairsOf e.hp
  let liked := if e.kind = 1 then all.filter fun m => bitOf (e.field 387 384) m else []
  let ms := if liked.isEmpty then all else liked
  let sc := fun m => s.dieScore e m
  sortPairs (fun a b => decide (sc a > sc b ∨ (sc a = sc b ∧ (s.teamsOn a < s.teamsOn b ∨ (s.teamsOn a = s.teamsOn b ∧ a < b))))) ms

/-- Chunks not yet sent of a copy; those of a convert by the format of the page that it begins to write. -/
def State.chunksLeft (s : State) (c : Copy) : Nat :=
  if c.op = 3 then let (f, g) := s.pageAttrs c.hp c.ctx c.dst; (formatSpan f g (c.len - c.pos.idx) + 2047) / 2048 else c.chunks - c.head

/-- Chunks not yet sent of every copy assigned to an engine, those of packets that it has not started among them. -/
def State.pendingChunks (s : State) (engine : Nat) : Nat :=
  ((s.copy.copies.filter fun c => c.engine == engine).map s.chunksLeft).sum
    + ((s.dist.entries.filter fun e => e.kind == 2 && (e.stage == 3 || e.stage == 5) && e.engine == engine).map fun e => s.chunksLeft (e.copy 0 none)).sum

/-- Pages that a far die's migration engine has still to move. -/
def State.pendingPages (s : State) (die : Nat) : Nat :=
  ((s.mem.migs.filter fun m => m.die == die).map fun m => m.npages - m.page).sum
    + ((s.dist.entries.filter fun e => e.kind == 5 && e.stage == 3 && e.engine == die).map fun e => e.field 271 256).sum

/-- The engine of a Sill die with the fewest pending chunks. -/
def State.leastEngine (s : State) : List Nat → Nat
  | [] => 0
  | [x] => x
  | x :: xs => let y := s.leastEngine xs; if s.pendingChunks x ≤ s.pendingChunks y then x else y

/-- The engine that a COPY, a SCRUB or a MIGRATE goes to (R352). -/
def State.engineFor (s : State) (e : Entry) (die : Nat) : Nat :=
  match e.kind with
  | 2 => s.leastEngine ((List.range 4).map (4 * die + ·))
  | 5 => if s.pendingPages 0 ≤ s.pendingPages 1 then 0 else 1
  | _ =>
    match s.homeDie e.hp e.ctx (e.field 191 128) with
    | some m => s.leastEngine ((List.range 4).map (4 * m + ·))
    | none => s.leastEngine [16, 17]

/-! ## Dispatch (R351) -/

def maxGraphs : Nat := 256

/-- The entry's launch has a team that fits nowhere now. -/
def State.launchStuck (s : State) (stuck : Launch → Bool) (e : Entry) : Bool :=
  s.dist.launches.any fun l => l.hp == e.hp && l.ctx == e.ctx && stuck l &&
    (match s.entry? l.eid with | some x => decide (x.level ≤ e.level) | none => false)

/-- The engine of an entry has room. -/
def State.entryRoom (s : State) (stuck : Launch → Bool) (e : Entry) : Bool :=
  match e.kind with
  | 1 => !(s.launchStuck stuck e)
  | 2 => ((s.pairOrder e).headD 0 |> s.engineFor e |> fun n => decide (s.pendingCopies n e.hp e.ctx < engineRoom))
  | 7 => decide ((s.dist.graphs.filter fun g => g.hp == e.hp && g.ctx == e.ctx).length < maxGraphs)
  | _ => true

def Entry.before (a b : Entry) : Bool :=
  decide (a.level < b.level ∨ (a.level = b.level ∧ (a.ready < b.ready ∨ (a.ready = b.ready ∧ a.eid < b.eid))))

def bestEntry : List Entry → Option Entry
  | [] => none
  | e :: es =>
    match bestEntry es with
    | none => some e
    | some d => if e.before d then some e else some d

/-- Operands to prefetch before dispatch. -/
def State.prefetches (s : State) (e : Entry) : Bool :=
  match e.node with
  | none => false
  | some (gid, k) =>
    match (s.graph? gid).bind fun g => s.readNode g k with
    | some n => (e.kind == 1 || e.kind == 2) && (nodeOps n).any fun o => o.pf && !o.w
    | none => false

/-- The longest wait for a prefetch, in ns. -/
def prefetchLimit : Nat := 20000

/-- The near lines of a range come into their Sills with retain priority; what cannot be reached is passed over. -/
def State.prefetchRange (hp ctx : Nat) : Nat → State → Nat → Nat → State
  | 0, s, _, _ => s
  | k + 1, s, va, n =>
    if n = 0 then s
    else
      let m := min n (128 - va % 128)
      let s := match (s.xlate hp ctx va .probe).1 with
        | .ok e pa =>
          let pa := s.engineAt false pa
          match s.region hp pa with
          | .near die _ _ =>
            if e.msa || !(s.reachable hp e.keyid pa) then s
            else s.fillSill die { line := lineOf pa, way := 0, sectors := 15, key := e.keyid, retain := true, dirty := false }
          | _ => s
        | _ => s
      State.prefetchRange hp ctx k s (va + m) (n - m)

def State.prefetchOperands (s : State) (e : Entry) : State :=
  match e.node with
  | none => s
  | some (gid, k) =>
    match (s.graph? gid).bind fun g => s.readNode g k with
    | some n => ((nodeOps n).filter fun o => o.pf && !o.w).foldl (fun s o => State.prefetchRange e.hp e.ctx (o.len / 128 + 2) s o.va o.len) s
    | none => s

/-- PREFETCH_WAIT_END (R353): Dispatch proceeds once operand prefetch ends or 20 µs pass. -/
def execEvPrefetchWaitEnd (eid : Nat) (s : State) : Host.Outcome State Fault Refusal :=
  match s.entry? eid with
  | none => .next s
  | some e => .next (if e.stage = 2 ∧ s.running e.hp e.ctx then (s.prefetchOperands e).setEntry (s.dispatched e) else s)

/-! ## Packets that the distributor runs itself -/

/-- NOP_PACKET (R35): Completes at once and advances its timeline. -/
def execEvNopPacket (eid : Nat) (s : State) : Host.Outcome State Fault Refusal :=
  match s.toStart? eid with
  | none => .next s
  | some e => .next (if e.stage = 3 ∧ e.kind = 0 then s.completeEntry e false else s)

/-- The value that a SIGNAL leaves. -/
def signalValue (op old v : Nat) : Nat :=
  match op with
  | 0 => v
  | 1 => (old + v) % 2 ^ 64
  | _ => max old v

/-- The write of a SIGNAL meets a decode error: a store is dropped and logged (01 R29, R441). -/
def State.signalDropped (s : State) (e : Entry) (keyid pa : Nat) (store : Bool) : State :=
  let s := s.countKey keyid
  if store then (s.bumpErr 8).logError e.hp e.ctx (accessRecord 1 7 0 e.q (e.field 191 128) pa (s.entryWhere e) s.ns) else s.bumpErr 7

/-- SIGNAL_PACKET (R349): Performs one release write; a host line takes no maximum (06 R191); at sys scope, and to host memory, it waits for the deferred windows (07 R235). -/
def execEvSignalPacket (eid : Nat) (s : State) : Host.Outcome State Fault Refusal :=
  match s.toStart? eid with
  | none => .next s
  | some e =>
    if e.stage ≠ 3 ∨ e.kind ≠ 8 ∨ ((e.field 259 258 = 3 ∨ s.hostAt e.hp e.ctx (e.field 191 128)) ∧ s.windowsHold .sys) then .next s
    else
      let op := e.field 257 256
      match s.xlate e.hp e.ctx (e.field 191 128) (if op = 0 then .write else .atomic) with
      | (.ok t pa, s) =>
        if (s.writeRoute 0 pa).isHeld || s.lineHeld (lineOf pa) 0 then .next s
        else
          let pa := (s.writeRoute 0 pa).addr pa
          if op = 2 ∧ (s.region e.hp pa).isHost then .next (s.completeEntry e true)
          else if !(s.reachable e.hp t.keyid pa) then .next ((s.signalDropped e t.keyid pa (op == 0)).completeEntry e true)
          else if op != 0 && s.poisoned pa 8 then .next ((s.bumpErr 6).completeEntry e true)
          else
            let v := signalValue op (natOfBytes (memReadN s.mem.bytes pa 8)) (e.field 255 192)
            .next ((s.commitAll (homeWriter (s.region e.hp pa).home) pa (bytesOfNat 8 v)).completeEntry e false)
      | (_, s) => .next (s.completeEntry e true)

/-- WAIT_PACKET (R350): Starts a wait on a timeline value. -/
def execEvWaitPacket (eid : Nat) (s : State) : Host.Outcome State Fault Refusal :=
  match s.toStart? eid with
  | none => .next s
  | some e =>
    if e.stage ≠ 3 ∨ e.kind ≠ 9 then .next s
    else .next (s.setEntry { e with stage := 4, until_ := s.ns + e.field 319 256 })

/-- The timeline of a WAIT has reached its value. -/
def State.waitReached (s : State) (e : Entry) : Bool :=
  match s.timelineVa e.hp e.ctx (e.field 143 128) with
  | none => false
  | some va => match s.timeline e.hp e.ctx va with | some (v, _, _) => decide (e.field 255 192 ≤ v) | none => false

/-- WAIT_SATISFIED (R350): A WAIT completes when the timeline reaches its value. -/
def execEvWaitSatisfied (eid : Nat) (s : State) : Host.Outcome State Fault Refusal :=
  match s.entry? eid with
  | none => .next s
  | some e => .next (if e.stage = 4 ∧ e.kind = 9 ∧ s.waitReached e then s.completeEntry e false else s)

/-- WAIT_TIMEOUT (R350): A WAIT completes in error when its timeout elapses. -/
def execEvWaitTimeout (eid : Nat) (s : State) : Host.Outcome State Fault Refusal :=
  match s.entry? eid with
  | none => .next s
  | some e =>
    .next (if e.stage = 4 ∧ e.kind = 9 ∧ e.field 319 256 ≠ 0 then (s.reachNs e.until_).completeEntry e true else s)

/-! ## COPY and SCRUB (09 R293, R295, R297) -/

/-- A copy that ends before it has copied anything. -/
def State.failPacketCopy (s : State) (e : Entry) (status va : Nat) : State :=
  let c := { e.copy s.mem.nextOp none with status := status, failva := va, halted := true }
  let s := s.fresh.2
  (s.setEntry { e with stage := 4 }).finishCopy c

/-- The tile descriptor of a packet: read at dev scope; malformed is a rejection. -/
def State.packetDesc (s : State) (e : Entry) : State :=
  let va := e.field 447 384
  let start := fun (s : State) (bs : List Byte) =>
    let c := e.copy s.mem.nextOp (tileDescOf bs (e.field 191 128) (e.field 255 192))
    if c.desc.isNone || c.overlaps then s.rejectEntry e 5
    else ({ s.fresh.2 with copy := { s.copy with copies := s.copy.copies ++ [c] } }).setEntry { e with stage := 4 }
  let part := fun (s : State) (va : Nat) => s.copyPage (e.copy 0 none) .read va 64
  match part s va with
  | (.error (.absent fid _), s) => s.setEntry { e with stage := 5, until_ := fid }
  | (.error (.error st va), s) => s.failPacketCopy e st va
  | (.error .held, s) => s
  | (.ok p, s) =>
    match part s (va + 64) with
    | (.error (.absent fid _), s) => s.setEntry { e with stage := 5, until_ := fid }
    | (.error (.error st va), s) => s.failPacketCopy e st va
    | (.error .held, s) => s
    | (.ok q, s) =>
      let (bs, bad) := s.readPlaces 0 [p, q]
      if bad then s.failPacketCopy e 8 va else start s bs

/-- COPY_PACKET (R293): Starts a plain, tile, reduce or convert copy from a queue. -/
def execEvCopyPacket (eid : Nat) (s : State) : Host.Outcome State Fault Refusal :=
  match s.toStart? eid with
  | none => .next s
  | some e =>
    if e.stage ≠ 3 ∨ e.kind ≠ 2 then .next s
    else if e.field 305 304 = 1 then .next (s.packetDesc e)
    else .next (({ s.fresh.2 with copy := { s.copy with copies := s.copy.copies ++ [e.copy s.mem.nextOp none] } }).setEntry { e with stage := 4 })

/-- SCRUB_PACKET (R297): Starts a scrub of a range of sectors. -/
def execEvScrubPacket (eid : Nat) (s : State) : Host.Outcome State Fault Refusal :=
  match s.toStart? eid with
  | none => .next s
  | some e =>
    if e.stage ≠ 3 ∨ e.kind ≠ 6 then .next s
    else
      let x : Scrub := { sid := s.mem.nextOp, eid := eid, hp := e.hp, ctx := e.ctx, addr := e.field 191 128, nsect := e.field 223 192, map := e.field 319 256,
                         recAddr := e.field 383 320, engine := e.engine, next := 0, scanned := 0, bad := [], fixed := [], newpoison := 0, oldpoison := 0,
                         waits := [], tag := e.tag }
      .next (({ s.fresh.2 with copy := { s.copy with scrubs := s.copy.scrubs ++ [x] } }).setEntry { e with stage := 4 })

/-! ## Graphs (R345 to R348) -/

/-- A node record that the check of R347 refuses. -/
def nodeMalformed (nnode n : Nat) : Bool :=
  decide (bitsOf n 551 544 > 16 ∨ bitsOf n 555 552 > 4 ∨ bitsOf n 575 556 ≠ 0 ∨ bitsOf n 1023 896 ≠ 0 ∨ n / 2 ^ 1536 ≠ 0)
    || n % 256 == 7 || (nodeSuccs n).any (fun k => decide (nnode ≤ k))
    || (List.range 4).any fun j => bitsOf n (1151 + 128 * j) (1122 + 128 * j) != 0

/-- The first step of a graph: its header and every node, or a refusal. -/
def State.graphBad (s : State) (g : Graph) : Bool :=
  match s.tryReadAll g.hp g.ctx g.gobj 256 with
  | .error _ => true
  | .ok (bs, _) =>
    natOfBytes bs / 2 ^ 17 != 0 || g.nnode == 0
      || (List.range g.nnode).any fun k => match s.readNode g k with | none => true | some n => nodeMalformed g.nnode n

/-- The header and the nodes are read. -/
def State.sawGraph (s : State) (g : Graph) : State :=
  match s.tryReadAll g.hp g.ctx g.gobj 256 with
  | .error (c, s) => s.countMiss c
  | .ok (_, s) => (List.range g.nnode).foldl (fun s k => s.sawNode g k) s

/-- LIVE of a node, written at dev scope. -/
def State.writeLive (s : State) (g : Graph) (k v : Nat) : State :=
  s.putLost g.hp g.ctx (g.nodeVa k + 66) (bytesOfNat 2 v) g.q (g.nodeVa k)

def State.initLive (g : Graph) : State → Nat → Nat → State
  | s, _, 0 => s
  | s, k, m + 1 =>
    let s := match s.readNode g k with | some n => s.writeLive g k (bitsOf n 527 512) | none => s
    State.initLive g s (k + 1) m

/-- Admits a node: its packet is judged by R36; without room in the pool it waits. -/
def State.admitNode (s : State) (gid k : Nat) : State :=
  match s.graph? gid with
  | none => s
  | some g =>
    if poolSize ≤ s.poolCount g.hp g.ctx then s.setGraph { g with nodes := smPut 0 k 6 g.nodes }
    else
      let n := s.readNode g k
      let s := s.sawNode g k
      let e := newEntry s g.hp g.ctx (some (gid, k)) g.q g.idx (bytesOfNat 64 ((n.getD 0) % 2 ^ 512))
      let s := s.fresh.2.setGraph { g with nodes := smPut 0 k 1 g.nodes }
      match n with
      | none => s.rejectEntry e 8
      | some n =>
        match s.packetFault e false with
        | 0 => s.admitEntry e (bitsOf n 639 576)
        | cause => s.rejectEntry e cause

def State.admitNodes (gid : Nat) : State → List Nat → State
  | s, [] => s
  | s, k :: ks => State.admitNodes gid (s.admitNode gid k) ks

/-- The nodes whose NPRED is 0. -/
def State.rootNodes (s : State) (g : Graph) : List Nat :=
  (List.range g.nnode).filter fun k => match s.readNode g k with | some n => bitsOf n 527 512 == 0 | none => false

/-- GRAPH_PACKET (R347): Checks a graph, writes LIVE counts and admits ready nodes. -/
def execEvGraphPacket (eid : Nat) (s : State) : Host.Outcome State Fault Refusal :=
  match s.toStart? eid with
  | none => .next s
  | some e =>
    if e.stage ≠ 3 ∨ e.kind ≠ 7 then .next s
    else
      let gobj := e.field 191 128
      let hd := match s.tryReadAll e.hp e.ctx gobj 256 with | .ok (bs, _) => natOfBytes bs | .error _ => 0
      let g : Graph := { gid := s.mem.nextOp, eid := eid, hp := e.hp, ctx := e.ctx, q := e.q, idx := e.idx, gobj := gobj, nnode := hd % 65536,
                         stopErr := bitOf hd 16, nodes := [], skip := [], ran := [] }
      let bad := s.graphBad g
      let s := s.sawGraph g
      if bad then .next (s.rejectEntry e 8)
      else
        let s := { s.fresh.2 with dist := { s.dist with graphs := s.dist.graphs ++ [g] } }.setEntry { e with stage := 4 }
        let roots := s.rootNodes g
        .next (State.admitNodes g.gid (State.initLive g s 0 g.nnode) roots)

/-- Every node reachable from a list of nodes, those included. -/
def State.nodesFrom (s : State) (g : Graph) : Nat → List Nat → List Nat → List Nat
  | 0, seen, _ => seen
  | f + 1, seen, todo =>
    match todo with
    | [] => seen
    | k :: ks =>
      if seen.contains k then State.nodesFrom s g f seen ks
      else State.nodesFrom s g f (k :: seen) ((match s.readNode g k with | some n => nodeSuccs n | none => []) ++ ks)

/-- A node that is skipped completes in error without running. -/
def State.skipNode (s : State) (gid k : Nat) : State :=
  match s.graph? gid with
  | none => s
  | some g =>
    let e := newEntry s g.hp g.ctx (some (gid, k)) g.q g.idx (bytesOfNat 64 (((s.readNode g k).getD 0) % 2 ^ 512))
    s.fresh.2.completeEntry e true

/-- A successor loses one of the releases it waits for; at 0 it is admitted, or skipped. -/
def State.releaseNode (s : State) (gid k : Nat) : State :=
  match s.graph? gid with
  | none => s
  | some g =>
    match s.readNode g k with
    | none => s
    | some n =>
      let live := bitsOf n 543 528
      let s := s.sawNode g k
      if live = 0 then s
      else
        let s := s.writeLive g k (live - 1)
        if live = 1 ∧ smGet 0 k g.nodes = 0 then (if g.skip.contains k then s.skipNode gid k else s.admitNode gid k) else s

def State.releaseNodes (gid : Nat) : State → List Nat → State
  | s, [] => s
  | s, k :: ks => State.releaseNodes gid (s.releaseNode gid k) ks

/-- The GRAPH completes when every node has completed and released its successors. -/
def State.endGraph (s : State) (gid : Nat) : State :=
  match s.graph? gid with
  | none => s
  | some g =>
    let states := (List.range g.nnode).map fun k => smGet 0 k g.nodes
    if states.all fun x => x == 4 || x == 5 then
      let s := { s with dist := { s.dist with graphs := s.dist.graphs.filter fun x => x.gid != gid } }
      match s.entry? g.eid with
      | some e => s.completeEntry e (states.contains 5)
      | none => s
    else s

/-- NODE_COMPLETE (R348): A node's completion decrements its successors' LIVE counts and admits those at 0. -/
def execEvNodeComplete (gid node : Nat) (s : State) : Host.Outcome State Fault Refusal :=
  match s.graph? gid with
  | none => .next s
  | some g =>
    let st := smGet 0 node g.nodes
    if st ≠ 2 ∧ st ≠ 3 then .next s
    else
      let succs := match s.readNode g node with | some n => nodeSuccs n | none => []
      let skip := if st = 3 ∧ g.stopErr then State.nodesFrom s g (65536 * 17) g.skip succs else g.skip
      let s := s.setGraph { g with nodes := smPut 0 node (st + 2) g.nodes, skip := skip }
      .next ((State.releaseNodes gid s succs).endGraph gid)

/-! ## NODEGO (R357) -/

/-- NODEGO of one slice: the checks of R174, then a release at dev scope. -/
def nodegoSlice (i : Instr) (h : Head) (s : State) (r : SliceRef) : SliceStep :=
  let x := s.slice r
  if !x.sliceOn h.gp h.gn then skipSlice i s r
  else
    let ea := (x.getPair (h.a.toNat - 128)).toNat
    let (c, s) := s.checkLanes r .write 256 (fun _ => false) [(0, ea)]
    match c with
    | .ok _ =>
      if s.squareFull (s.clusterOf r) [] then .stall .retry
      else .ok (s.addOp (newOp s r i .r .dev (.nodego (BitVec.ofNat 64 ea)) [] false false none)) (.go (nextPc i x.pc))
    | .fault f => .ok s (.trap { f with lanes := 15 } none)
    | .absent fids _ addr => .ok s (.park (.fault fids 15 (BitVec.ofNat 64 addr)))

/-- NODEGO (R357): Releases a graph node, decrementing its LIVE count. -/
def execXvNodego (h : Head) (w : Command) (s : State) : Host.Outcome State Fault Refusal :=
  let i : Instr := .xvNodego h w
  issueSlices i (Head.info h (regGroup true 2 (h.a.toNat - 128) ++ guardRegs h)) (nodegoSlice i h) s

/-- The graph and node that an address names. -/
def State.nodeAt (s : State) (hp ctx ea : Nat) : Option (Graph × Nat) :=
  (s.dist.graphs.find? fun g => g.hp == hp && g.ctx == ctx && decide (g.gobj + 256 ≤ ea ∧ ea < g.gobj + 256 * (g.nnode + 1)) && (ea - g.gobj) % 256 == 0).map
    fun g => (g, (ea - g.gobj) / 256 - 1)

/-- NODEGO_ARRIVAL (R357): A NODEGO release reaches the pool and decrements LIVE or is logged. -/
def execEvNodegoArrival (op : Nat) (s : State) : Host.Outcome State Fault Refusal :=
  match s.op? op with
  | none => .next s
  | some o =>
    match o.kind with
    | .nodego addr =>
      if !o.performed then .next s
      else
        let t := s.team o.ref.tid
        let s := s.finishOp o
        let dropped := fun (c : Nat) => s.logError t.hp t.ctx (wdRecord 2 c t.linear addr.toNat [] s.ns)
        match s.nodeAt t.hp t.ctx addr.toNat with
        | none => .next (dropped 1)
        | some (g, k) =>
          match s.readNode g k with
          | none => .next (dropped 1)
          | some n => .next (if bitsOf n 543 528 = 0 then dropped 2 else s.releaseNode g.gid k)
    | _ => .next s

end Sys2Proof.Machine
end

