-- ==== Sys2Proof/Machine/Launch.lean ====
section
/-! DEFINITION. Launches: the descriptor and the group table, the placement and the start of teams, their end and their
kill, and the dispatch of the ready pool (03 R104 to R107, 08 R273, R274, 11 R343, R344, R351 to R355, R364, R365). -/

namespace Sys2Proof.Machine

/-! ## Descriptors (R104, R105) -/

def roleOfBits (n j : Nat) : Role := { bents := bitsOf n (271 + 64 * j) (256 + 64 * j), vregs := bitsOf n (287 + 64 * j) (272 + 64 * j) }

/-- The descriptor that 256 bytes hold. -/
def descOf (n : Nat) : Desc :=
  { code := BitVec.ofNat 64 (bitsOf n 63 0), entry := bitsOf n 95 64, handler := bitsOf n 127 96, bents := bitsOf n 143 128,
    vregs := bitsOf n 159 144, roles := (List.range (bitsOf n 167 160)).map (roleOfBits n), pair := bitOf n 168, isolated := bitOf n 169,
    composite := bitOf n 170, groups := bitsOf n 183 176, acc := bitsOf n 191 184, scratch := bitsOf n 223 192, plate := bitsOf n 255 224 }

/-- The team of a descriptor on clusters 0 and 1. -/
def Desc.model (d : Desc) : Team := { Team.absent with desc := d, cluster1 := 1 }

/-- Bytes of vector registers that a team needs in a partition (R105). -/
def Team.vectorBytes (t : Team) (part : Nat) : Nat :=
  (((List.range t.desc.bents).filter fun b => 4 * t.clusterOf b + t.partOf b == part).map fun b => 128 * t.budget b).sum

def vectorFile : Nat := 262144

def budgetOk (v : Nat) : Bool := v % 8 == 0 && decide (8 ≤ v ∧ v ≤ 256)

/-- A breach of R104 or R105. -/
def descBad (n : Nat) : Bool :=
  let d := descOf n
  let nroles := bitsOf n 167 160
  let bentsOk := if d.pair then d.bents % 2 == 0 && decide (2 ≤ d.bents ∧ d.bents ≤ 64) else decide (1 ≤ d.bents ∧ d.bents ≤ 32)
  let roleBad := fun j =>
    if j < nroles then bitsOf n (319 + 64 * j) (288 + 64 * j) != 0 || !(budgetOk (roleOfBits n j).vregs)
    else bitsOf n (319 + 64 * j) (256 + 64 * j) != 0
  bitsOf n 7 0 != 0 || d.entry % 4 != 0 || (d.handler != 0xFFFFFFFF && d.handler % 4 != 0) || !bentsOk || decide (nroles > 4)
    || (if nroles = 0 then !(budgetOk d.vregs) else d.vregs != 0) || bitsOf n 175 171 != 0 || decide (d.groups > 4 ∨ d.acc > 16)
    || d.scratch % 65536 != 0 || decide (d.scratch > 524288) || d.plate % 65536 != 0 || decide (d.plate > 8 * 2 ^ 20)
    || (List.range 4).any roleBad || bitsOf n 527 512 != 1 || n / 2 ^ 528 != 0
    || (decide (0 < nroles) && (d.roles.map (·.bents)).sum != d.bents)
    || (List.range 8).any fun p => decide (d.model.vectorBytes p > vectorFile)

/-! ## Group tables (R273, R274) -/

structure GroupTable where
  slots : List (List Nat)
  words : List Nat

/-- The table as read, or none where a read fails. -/
def State.readGroupTable (s : State) (hp ctx gtab teams : Nat) : Option (Nat × Nat × Nat) × State :=
  match s.tryReadAll hp ctx gtab 64 with
  | .error (c, s) => (none, s.countMiss c)
  | .ok (hd, s) =>
    let n := natOfBytes hd % 65536
    let sb := (64 + 16 * n + 63) / 64 * 64
    match s.tryReadAll hp ctx (gtab + 64) (16 * n) with
    | .error (c, s) => (none, s.countMiss c)
    | .ok (es, s) =>
      match s.tryReadAll hp ctx (gtab + sb) (8 * teams) with
      | .error (c, s) => (none, s.countMiss c)
      | .ok (rs, s) => (some (natOfBytes hd, natOfBytes es, natOfBytes rs), s)

def tableOf (hd es rs teams : Nat) : GroupTable :=
  { slots := (List.range teams).map fun l => (List.range 4).map fun j => bitsOf rs (64 * l + 16 * j + 15) (64 * l + 16 * j)
    words := (List.range (hd % 65536)).map fun e => bitsOf es (128 * e + 63) (128 * e) }

/-- EXPECTED of an initial word (08 R257). -/
def wordExpected (w : Nat) : Nat := barExpected w

def groupTableBad (d : Desc) (hd es : Nat) (t : GroupTable) : Bool :=
  let n := hd % 65536
  let named := fun g => (t.slots.filter fun r => r.contains g).length
  n == 0 || decide (n > 256) || hd / 65536 != 0
    || (List.range n).any (fun e => bitsOf es (128 * e + 127) (128 * e + 64) != 0)
    || t.words.any (fun w => !(bitOf w 49) || bitsOf w 63 50 != 0)
    || t.slots.any (fun r => r.any (fun g => g != 0xFFFF && decide (n ≤ g)) || (r.drop d.groups).any (fun g => g != 0xFFFF)
        || (let gs := r.filter (· != 0xFFFF); gs.eraseDups.length != gs.length))
    || (List.range n).any fun g => wordExpected (t.words.getD g 0) != named g

/-! ## The start of a launch (R344) -/

def State.launch? (s : State) (lid : Nat) : Option Launch := s.dist.launches.find? fun l => l.lid == lid
def State.setLaunch (s : State) (l : Launch) : State :=
  { s with dist := { s.dist with launches := s.dist.launches.map fun x => if x.lid = l.lid then l else x } }

def Launch.total (l : Launch) : Nat := l.gx * l.gy * l.gz

/-- The launch of an entry, with the descriptor and the table read. -/
def Entry.launch (e : Entry) (lid : Nat) (d : Desc) (t : GroupTable) : Launch :=
  { lid := lid, eid := e.eid, hp := e.hp, ctx := e.ctx, descVa := e.field 191 128, desc := d, gtab := e.field 383 320, slots := t.slots,
    words := t.words, loaded := e.field 383 320 == 0, gx := e.field 287 256, gy := e.field 303 288, gz := e.field 319 304,
    args := BitVec.ofNat 64 (e.field 255 192), die := e.die, next := 0, live := 0, killed := false, imageOff := 0 }

def State.startLaunch (s : State) (e : Entry) (d : Desc) (t : GroupTable) : State :=
  let l := e.launch s.mem.nextOp d t
  ({ s.fresh.2 with dist := { s.dist with launches := s.dist.launches ++ [l] } }).setEntry { e with stage := 4 }

/-- KERNEL_PACKET (R344): Reads a descriptor and group table and starts a launch. -/
def execEvKernelPacket (eid : Nat) (s : State) : Host.Outcome State Fault Refusal :=
  match s.toStart? eid with
  | none => .next s
  | some e =>
    if e.stage ≠ 3 ∨ e.kind ≠ 1 then .next s
    else
      match s.tryReadAll e.hp e.ctx (e.field 191 128) 256 with
      | .error (c, s) => .next ((s.countMiss c).rejectEntry e 6)
      | .ok (bs, s) =>
        let d := descOf (natOfBytes bs)
        if descBad (natOfBytes bs) then .next (s.rejectEntry e 6)
        else if d.isolated && decide (0 < d.acc) && (s.ccb e.hp e.ctx).rsvcl == 0 then .next (s.rejectEntry e 9)
        else
          let gtab := e.field 383 320
          let teams := e.field 287 256 * e.field 303 288 * e.field 319 304
          if gtab = 0 then .next (if d.groups > 0 then s.rejectEntry e 7 else s.startLaunch e d { slots := [], words := [] })
          else
            match s.readGroupTable e.hp e.ctx gtab teams with
            | (none, s) => .next (s.rejectEntry e 7)
            | (some (hd, es, rs), s) =>
              let t := tableOf hd es rs teams
              .next (if groupTableBad d hd es t then s.rejectEntry e 7 else s.startLaunch e d t)

/-- Live group entries of a hard partition's unit. -/
def State.liveGroups (s : State) (hp : Nat) : Nat :=
  ((s.dist.launches.filter fun l => l.hp == hp).map fun l => (smGet [] l.lid s.sync.groups).length).sum

def maxGroups : Nat := 2048

/-- A word's live state: PENDING and NEXT set to EXPECTED. -/
def groupEntryOf (w : Nat) : GroupEntry := { expected := wordExpected w, pending := wordExpected w, next := wordExpected w, phase := bitOf w 48 }

/-- GROUP_TABLE_LOAD (R274): The unit loads a launch's group entries into live state when they fit. -/
def execEvGroupTableLoad (launch : Nat) (s : State) : Host.Outcome State Fault Refusal :=
  match s.launch? launch with
  | none => .next s
  | some l =>
    if l.loaded || decide (s.liveGroups l.hp + l.words.length > maxGroups) then .next s
    else
      .next ({ s with sync := { s.sync with groups := smPut [] launch (l.words.map groupEntryOf) s.sync.groups } }.setLaunch { l with loaded := true })

/-! ## Placement (R354) -/

def Team.resident (t : Team) : Bool := !t.ended && !t.away

def State.residents (s : State) : List Team := (s.teams.map (·.2)).filter Team.resident

/-- Bents of a team in a cluster. -/
def Team.bentsIn (t : Team) (cl : Nat) : Nat := ((List.range t.desc.bents).filter fun b => t.clusterOf b == cl).length

def Team.bentsAt (t : Team) (part : Nat) : Nat := ((List.range t.desc.bents).filter fun b => 4 * t.clusterOf b + t.partOf b == part).length

def State.bentsIn (s : State) (cl : Nat) : Nat := (s.residents.map fun t => t.bentsIn cl).sum

/-- The team's halves lie in this cluster. -/
def Team.uses (t : Team) (cl : Nat) : Bool := t.cluster == cl || (t.desc.pair && t.cluster1 == cl)

/-- A cluster is reserved for another context, of this partition or another (R354). -/
def State.reservedFor (s : State) (hp ctx cl : Nat) : Bool :=
  s.ccbs.any fun p => p.1 != ccbKey hp ctx && p.2.rsvcl.getLsbD cl

/-- A cluster has room for a team placed there. -/
def State.clusterRoom (s : State) (t : Team) (cl : Nat) : Bool :=
  let here := s.residents.filter fun u => u.uses cl
  let parts := (List.range 4).map (4 * cl + ·)
  decide (s.bentsIn cl + t.bentsIn cl ≤ 64)
    && parts.all (fun p => decide ((s.residents.map fun u => u.bentsAt p).sum + t.bentsAt p ≤ 16 ∧
        (s.residents.map fun u => u.vectorBytes p).sum + t.vectorBytes p ≤ vectorFile))
    && decide ((here.map fun u => u.desc.scratch).sum + t.desc.scratch ≤ 524288)
    && decide ((here.map fun u => u.desc.plate).sum + t.desc.plate ≤ 8 * 2 ^ 20)
    && decide ((here.map fun u => u.desc.acc).sum + t.desc.acc ≤ 16)
    && !(s.reservedFor t.hp t.ctx cl)
    && (!(t.desc.isolated && decide (0 < t.desc.acc)) ||
        ((s.ccb t.hp t.ctx).rsvcl.getLsbD cl && here.all fun u => u.hp == t.hp && u.ctx == t.ctx))

def Team.clusters (t : Team) : List Nat := if t.desc.pair then [t.cluster, t.cluster1] else [t.cluster]

def State.teamRoom (s : State) (t : Team) : Bool := t.clusters.all (s.clusterRoom t)

/-- A team on the clusters that place k of a die pair names: a cluster of the pair, or a local index. -/
def Team.on (t : Team) (m k : Nat) : Team :=
  if t.desc.pair then { t with cluster := 48 * m + k, cluster1 := 48 * m + 24 + k } else { t with cluster := 48 * m + k }

/-- The least burdened of the places with room. -/
def bestPlace (burden : Nat → Nat) : List Nat → Option Nat
  | [] => none
  | k :: ks =>
    match bestPlace burden ks with
    | none => some k
    | some j => if burden k ≤ burden j then some k else some j

/-- The team on the first die pair that has room for it. -/
def State.placeTeam (s : State) (t : Team) : List Nat → Option Team
  | [] => none
  | m :: ms =>
    let places := (List.range (if t.desc.pair then 24 else 48)).filter fun k => s.teamRoom (t.on m k)
    match bestPlace (fun k => ((t.on m k).clusters.map s.bentsIn).sum) places with
    | some k => some (t.on m k)
    | none => s.placeTeam t ms

/-! ## The start of a team (R107, R355) -/

/-- The next team of a launch, as it starts. -/
def Launch.team (l : Launch) (n : Nat) : Team :=
  { Team.absent with hp := l.hp, ctx := l.ctx, launch := l.lid, desc := l.desc, x := n % l.gx, y := n / l.gx % l.gy, z := n / (l.gx * l.gy),
                     gx := l.gx, gy := l.gy, gz := l.gz, args := l.args, groups := l.slots.getD n [], ended := false }

def laneWrites (b i j : Nat) : List RegWrite :=
  [{ reg := .v 0, lane := j, val := BitVec.ofNat 32 (32 * b + 4 * i + j) }, { reg := .v 1, lane := j, val := BitVec.ofNat 32 (4 * i + j) }]

def scalarWrites (t : Team) (b : Nat) : List RegWrite :=
  let (role, first) := t.role b
  [(0, t.args.toNat), (1, t.args.toNat / 2 ^ 32), (2, t.x), (3, t.y), (4, t.z), (5, b), (6, role), (7, b - first)].map
    fun p => { reg := .s p.1, lane := 0, val := BitVec.ofNat 32 p.2 }

/-- Slice i of bent b as its team starts. -/
def Team.freshSlice (t : Team) (tag : Bool) (b i : Nat) : Slice :=
  { Slice.absent with exec := 15, pc := t.desc.code + BitVec.ofNat 64 t.desc.entry, exited := false, slot := i, tag := tag }.putAll
    (scalarWrites t b ++ (List.range 4).flatMap (laneWrites b i))

def freshGang : Gang := { mask := 0xFF, waiting := 0, readyAt := 0 }

def State.startBent (tid : Nat) (t : Team) (tag : Bool) (b : Nat) : State → List Nat → State
  | s, [] => s.setGangs tid b [freshGang]
  | s, i :: is => State.startBent tid t tag b (s.setSlice { tid := tid, bent := b, sl := i } (t.freshSlice tag b i)) is

def State.startBents (tid : Nat) (t : Team) (tag : Bool) : State → List Nat → State
  | s, [] => s
  | s, b :: bs => State.startBents tid t tag (State.startBent tid t tag b s (List.range 8)) bs

/-- The caches of a cluster as a team's start leaves them: its start is an acquire (07 R215, R254), so that the L1 drops more than the lines
that its scratchpad takes (06 R183). -/
def dropCaches : State → List Nat → State
  | s, [] => s
  | s, c :: cs => dropCaches ((s.dropL1 c).setL1 c { (s.dropL1 c).l1 c with icache := [] }) cs

def State.startTeam (s : State) (t : Team) : State :=
  let tid := s.dist.nextTeam
  let s := { s with dist := { s.dist with nextTeam := tid + 1 } }.setTeam tid t
  dropCaches (State.startBents tid t (s.ccb t.hp t.ctx).ptag s (List.range t.desc.bents)) t.clusters

/-- The die pairs that a launch's teams may take, that of its entry first. -/
def State.launchPairs (s : State) (l : Launch) : List Nat :=
  match s.entry? l.eid with
  | some e => s.pairOrder e
  | none => s.pairsOf l.hp

def State.nextPlaced (s : State) (l : Launch) : Option Team := s.placeTeam (l.team l.next) (s.launchPairs l)

/-- Teams of the launch remain to be started, and its context runs. -/
def State.launchOpen (s : State) (l : Launch) : Bool := s.running l.hp l.ctx && l.loaded && decide (l.next < l.total)

/-- The next team of a launch that has not started, where it fits (R344, R354). -/
def State.startNext (s : State) (l : Launch) : State :=
  if s.launchOpen l then
    match s.nextPlaced l with
    | none => s
    | some t => (s.startTeam t).setLaunch { l with next := l.next + 1, live := l.live + 1 }
  else s

/-! ## The end of a team (R364, 07 R255) -/

/-- Copies of a team into its scratchpad or Plate. -/
def Copy.intoOwn (c : Copy) (tid : Nat) : Bool := c.eid.isNone && c.ref.tid == tid && c.dsp != 0

/-- A cancelled copy completes with status 11; none of its bytes move any more. -/
def cancelCopies : State → List Copy → State
  | s, [] => s
  | s, c :: cs => cancelCopies (s.endCopy { c with status := 11, halted := true, follow := none, bar := none }) cs

def State.cancelOwn (s : State) (tid : Nat) (pick : Copy → Bool) : State := (cancelCopies s (s.copy.copies.filter fun c => c.eid.isNone && c.ref.tid == tid && pick c)).restClasses

def leaveGroups (tid : Nat) : State → List Nat → State
  | s, [] => s
  | s, j :: js => leaveGroups tid (s.groupLeave tid j) js

/-- What a launch counts when a team of it has ended. -/
def State.teamGone (s : State) (lid : Nat) (killed : Bool) : State :=
  match s.launch? lid with
  | some l => s.setLaunch { l with live := l.live - 1, killed := l.killed || killed }
  | none => s

/-- The team's resources are released. -/
def State.freeTeam (s : State) (tid : Nat) : State :=
  let s := leaveGroups tid s (List.range 4)
  let t := s.team tid
  let s := { s with slices := s.slices.filter fun p => p.1 / 512 != tid
                    gangs := s.gangs.filter fun p => p.1 / 64 != tid
                    teams := smDel tid s.teams
                    mem := { s.mem with ranges := s.mem.ranges.filter (fun x => x.tid != tid), ops := s.mem.ops.filter (fun o => o.ref.tid != tid) } }
  s.teamGone t.launch t.killed.isSome

def State.teamSlices (s : State) (tid : Nat) : List SliceRef :=
  (s.slices.filter fun p => p.1 / 512 == tid).map fun p => { tid := tid, bent := p.1 / 8 % 64, sl := p.1 % 8 }

/-- A collective of a team's DVT or COLL runs (13 R421). -/
def State.teamColl (s : State) (tid : Nat) : Bool := s.coll.ops.any fun o => o.eid.isNone && o.ref.tid == tid

/-- Everything that the team issued has performed and been sealed, but for what a failed transfer leaves unacknowledged for
good (07 R234). -/
def State.teamQuiet (s : State) (tid : Nat) : Bool :=
  let t := s.team tid
  (s.mem.ops.all fun o => o.ref.tid != tid || o.failed) && t.tileQ.isEmpty && t.tileQ1.isEmpty && !(s.teamColl tid)
    && s.copy.copies.all fun c => c.eid.isSome || c.ref.tid != tid || c.dsp != 0

def State.teamExited (s : State) (tid : Nat) : Bool := (s.teamSlices tid).all fun r => (s.slice r).exited

/-- The end as a release, for the record of a containment. -/
def endOp (s : State) (r : SliceRef) : Op :=
  { id := s.mem.nextOp, ref := r, cls := .r, scope := .dev, kind := .teamEnd, elems := [], msa := false, host := false, acks := [], acked := none,
    performed := false, arrived := true, lacking := [], injected := false, failed := false, pid := none, pc := (s.slice r).pc, inst := 0,
    ints := [], epoch := none, need := 0, tag := (s.slice r).tag, got := [], poisoned := 0, stat := [], clear := false, grp := 0 }

/-- TEAM_END (R255): Once all its operations are performed and releases sealed, a team ends as a dev-scope release and frees its
resources. A tainted slice contains the end. -/
def execEvTeamEnd (tid : Nat) (s : State) : Host.Outcome State Fault Refusal :=
  let t := s.team tid
  if !t.resident || t.held || t.stopped || !(s.teamExited tid) || !(s.teamQuiet tid) then .next s
  else
    match (s.teamSlices tid).find? fun r => (s.slice r).taint.isSome with
    | some r =>
      match (s.slice r).taint with
      | some v => .next (s.contain (endOp s r) 4 v.viol v.checker v.off)
      | none => .next s
    | none =>
      let s := s.cancelOwn tid fun c => c.dsp != 0
      .next ((t.clusters.foldl State.drain s).freeTeam tid)

/-! ## The kill of a team (R365) -/

/-- Queued commands are discarded; a TSTO that runs completes. -/
def State.discardTiles (tid half : Nat) : State → List TileCmd → State
  | s, [] => s
  | s, c :: cs => State.discardTiles tid half (s.reportTile c 7 0) cs

def State.killTiles (s : State) (tid half : Nat) : State :=
  let t := s.team tid
  let q := t.queueOf half
  let runs := (t.seqOf half).started && (q.head?.map (·.kind)) == some 4
  let keep := if runs || (t.seqOf half).phase == 4 then q.take 1 else []
  let s := if keep.isEmpty then s.haltTile tid half else s
  let s := s.modTeam tid fun t => (t.setQueueOf half keep).setSeqOf half (if keep.isEmpty then TileSeq.zero else t.seqOf half)
  State.discardTiles tid half s (q.drop keep.length)

/-- The killed team's copies with follow-ons lose them, and those into its own memory, and CPYM copies, are cancelled. -/
def State.stopWork (s : State) (tid : Nat) : State :=
  ((s.killTiles tid 0).killTiles tid 1).cancelOwn tid fun c => c.dsp != 0 || c.follow.isSome || !(c.started || s.mem.ops.any fun o => o.kind == .copyIssue c.cid)

/-- WHERE of the kill record: TFPC of the slice whose trap was fatal. -/
def State.fatalPc (s : State) (tid : Nat) : Nat :=
  match (s.teamSlices tid).find? fun r => (s.slice r).stopped with
  | some r => (s.slice r).trap.tfpc.toNat
  | none => 0

/-- TEAM_KILL (R365): Stops a team, discards its commands and logs the kill. -/
def execEvTeamKill (tid cause : Nat) (s : State) : Host.Outcome State Fault Refusal :=
  let t := s.team tid
  if !t.resident || t.killed ≠ some cause then .next s
  else
    let s := s.stopWork tid
    if !(s.teamQuiet tid) then .next s
    else
      let s := s.logError t.hp t.ctx (wdRecord 3 cause t.linear (s.fatalPc tid) [] s.ns)
      .next ((t.clusters.foldl State.drain s).freeTeam tid)

/-! ## The end of a launch (R344) -/

/-- LAUNCH_COMPLETE (R344): A launch completes when its last team ends and its group entries are freed. -/
def execEvLaunchComplete (launch : Nat) (s : State) : Host.Outcome State Fault Refusal :=
  match s.launch? launch with
  | none => .next s
  | some l =>
    if l.next < l.total ∨ 0 < l.live then .next s
    else
      let s := { s with sync := { s.sync with groups := smDel launch s.sync.groups }
                        dist := { s.dist with launches := s.dist.launches.filter fun x => x.lid != launch } }
      match s.entry? l.eid with
      | some e => .next (s.completeEntry e l.killed)
      | none => .next s

/-! ## Dispatch (R351 to R356) -/

/-- The launch has a team that fits in no cluster. -/
def State.stuck (s : State) (l : Launch) : Bool := s.launchOpen l && (s.nextPlaced l).isNone

/-- Active wavelengths of a far die's eight ports (R356). -/
def State.wavelengths (s : State) (die : Nat) : Nat :=
  ((List.range 8).map fun p => (maskList ((smGet Port.reset (8 * die + p) s.fab.ports).txmap.toNat) 16).length).sum

/-- The collective half of an entry. -/
def State.collHalf (s : State) : Nat := if s.wavelengths 0 ≥ s.wavelengths 1 then 0 else 1

def State.collRoom (s : State) (half hp ctx : Nat) : Bool :=
  decide ((s.coll.ops.filter fun o => o.half == half).length < 256) &&
    decide ((s.coll.ops.filter fun o => o.half == half && o.hp == hp && o.ctx == ctx).length < 64)

def State.hasRoom (s : State) (e : Entry) : Bool :=
  if e.kind == 3 || e.kind == 4 then s.collRoom s.collHalf e.hp e.ctx else s.entryRoom s.stuck e

/-- The entries of a partition that dispatch may take. -/
def State.dispatchable (s : State) (hp : Nat) : List Entry :=
  s.dist.entries.filter fun e => e.hp == hp && e.stage == 1 && s.running hp e.ctx && s.hasRoom e

/-- A node that waited for room in the pool is admitted. -/
def State.admitWaiting (s : State) (hp ctx : Nat) : State :=
  match s.dist.graphs.find? fun g => g.hp == hp && g.ctx == ctx && g.nodes.any fun p => p.2 == 6 with
  | none => s
  | some g =>
    match g.nodes.find? fun p => p.2 == 6 with
    | some (k, _) => s.admitNode g.gid k
    | none => s

/-- An entry is dispatched to the engine of its kind, after its prefetches. -/
def State.dispatch (s : State) (e : Entry) : State :=
  let die := (s.pairOrder e).headD 0
  let engine := if e.kind == 3 || e.kind == 4 then s.collHalf else s.engineFor e die
  let e := { e with die := die, engine := engine, until_ := s.ns + prefetchLimit }
  (s.setEntry (if s.prefetches e then { e with stage := 2 } else s.dispatched e)).admitWaiting e.hp e.ctx

/-- POOL_DISPATCH (R351): Takes the ready entry of highest level whose engine has room. -/
def execEvPoolDispatch (hp : Nat) (s : State) : Host.Outcome State Fault Refusal :=
  match bestEntry (s.dispatchable hp) with
  | none => .next s
  | some e => .next (s.dispatch e)

/-! ## QUIET (08 R285) -/

def Wait.isQuiet : Wait → Bool
  | .quiet _ _ _ => true
  | _ => false

def Wait.isAlong : Wait → Bool
  | .along => true
  | _ => false

def Slice.endQuiet (x : Slice) : Slice := if x.wait.isQuiet || x.wait.isAlong then { x with wait := .none } else x

/-- The sources that have reported zero by now are no longer awaited. -/
def State.reportQuiet (s : State) (r : SliceRef) (x : Slice) : Slice :=
  match x.wait with
  | .quiet sc tag left => { x with wait := .quiet sc tag (left.filter (s.busySources (s.team r.tid).hp (s.team r.tid).ctx sc tag).contains) }
  | _ => x

def reportAll (now : State) : State → List SliceRef → State
  | s, [] => s
  | s, r :: rs => reportAll now (s.modSlice r (now.reportQuiet r)) rs

/-- Every source that a QUIET awaited has reported. -/
def Wait.quietDone : Wait → Bool
  | .quiet _ _ left => left.isEmpty
  | _ => true

/-- QUIET_RETURN (R285): QUIET returns once every source has reported zero for the tag. A source that is at zero now reports it. -/
def execEvQuietReturn (r : SliceRef) (s : State) : Host.Outcome State Fault Refusal :=
  match (s.slice r).wait with
  | .quiet sc _ _ =>
    let rs := maskRefs r.tid r.bent (s.gangMask r)
    let s := reportAll s s rs
    if !(rs.all fun q => (s.slice q).wait.quietDone) then .next s
    else
      let quiet := rs.filter fun q => (s.slice q).wait.isQuiet
      .next (acquireEach sc (releaseAll Slice.endQuiet s rs) quiet)
  | _ => .next s

end Sys2Proof.Machine
end

