-- ==== Sys2Proof/Machine/Image.lean ====
section
/-! DEFINITION. The context image: the records of launches, teams, slices and copies, and the pool section (11 R360 to
R362, 10 R332, 08 R286). -/

namespace Sys2Proof.Machine

def zeroBytes (n : Nat) : List Byte := List.replicate n 0

/-- Records, sections and slice records begin on boundaries of 256 bytes. -/
def roundUp (n : Nat) : Nat := (n + 255) / 256 * 256
def padded (bs : List Byte) : List Byte := bs ++ zeroBytes (roundUp bs.length - bs.length)

/-! ## Slice records (R362) -/

def fieldsOf (n base width : Nat) (f : Nat → Nat) : List (Nat × Nat) := (List.range n).map fun i => (f i, base + width * i)

def predBits (x : Slice) (lane : Nat) : Nat := ((List.range 8).map fun p => bitVal (x.getP p lane) * 2 ^ p).sum

def Slice.record (x : Slice) : Nat :=
  packFields (fieldsOf 64 0 32 (fun i => (x.getS i).toNat)
    ++ [(x.pc.toNat, 2048), (x.exec.toNat, 2112), (bitVal x.tmode, 2116), (bitVal x.exited, 2117), (bitVal x.tag, 2118), (x.tokens.toNat, 2120),
        (x.fflags.toNat, 2144)]
    ++ fieldsOf 12 2176 32 (fun i => (trapReg x.trap (0x20 + i)).toNat)
    ++ fieldsOf 8 2560 32 (fun i => x.drops.getD i 0xFFFFFFFF)
    ++ fieldsOf 4 2816 8 (predBits x))

/-- A slice's record with its vector registers. -/
def Slice.image (x : Slice) (budget : Nat) : List Byte :=
  padded (bytesOfNat 512 x.record ++ (List.range (4 * budget)).flatMap fun k => bytesOfNat 4 (x.getV (k / 4) (k % 4)).toNat)

def sliceBytes (budget : Nat) : Nat := roundUp (512 + 16 * budget)

def trapOf (n : Nat) : TrapRegs :=
  let w := fun i => bitsOf n (2207 + 32 * i) (2176 + 32 * i)
  let q := fun i => BitVec.ofNat 64 (bitsOf n (2239 + 32 * i) (2176 + 32 * i))
  { cause := BitVec.ofNat 8 (w 0), sub := BitVec.ofNat 8 (w 0 / 2 ^ 8), lanes := BitVec.ofNat 4 (w 0 / 2 ^ 16), tpc := q 1, tfpc := q 3, taddr := q 5,
    texec := BitVec.ofNat 4 (w 7), tinst := BitVec.ofNat 32 (w 8), tgmask := BitVec.ofNat 8 (w 9), tscr := BitVec.ofNat 32 (w 10),
    tcount := BitVec.ofNat 32 (w 11) }

def setPreds (n : Nat) (x : Slice) : List (Nat × Nat) → Slice
  | [] => x
  | (p, lane) :: ps => setPreds n (x.setP p lane (bitOf n (2816 + 8 * lane + p))) ps

def predPairs : List (Nat × Nat) := (List.range 7).flatMap fun p => (List.range 4).map fun j => (p, j)

/-- Fields that a record gives; the rest is what the slice had. A slice that the record does not show as exited runs. -/
def Slice.ofRecord (x : Slice) (i n : Nat) (vs : List Byte) (budget : Nat) : Slice :=
  let sw := (List.range 64).map fun k => ({ reg := .s k, lane := 0, val := BitVec.ofNat 32 (bitsOf n (32 * k + 31) (32 * k)) } : RegWrite)
  let vw := (List.range (4 * budget)).map fun k => ({ reg := .v (k / 4), lane := k % 4, val := BitVec.ofNat 32 (natOfBytes ((vs.drop (4 * k)).take 4)) } : RegWrite)
  let drops := ((List.range 8).map fun k => bitsOf n (2591 + 32 * k) (2560 + 32 * k)).filter (· != 0xFFFFFFFF)
  let x := { x with pc := BitVec.ofNat 64 (bitsOf n 2111 2048), exec := BitVec.ofNat 4 (bitsOf n 2115 2112), tmode := bitOf n 2116,
                    exited := bitOf n 2117, exiting := bitOf n 2117, tag := bitOf n 2118, tokens := BitVec.ofNat 8 (bitsOf n 2127 2120),
                    fflags := BitVec.ofNat _ (bitsOf n 2175 2144), trap := trapOf n, drops := drops, wait := .none, slot := i, moveTo := none }
  setPreds n (x.putAll (sw ++ vw)) predPairs

/-! ## Team records (R361) -/

/-- The halves that a team has. -/
def Team.halves (t : Team) : List Nat := if t.desc.pair then [0, 1] else [0]

/-- Shadow bits: of word k, PAIRED in bit 2k and REMOTE in bit 2k + 1. -/
def shadowBit (t : Team) (half k : Nat) : Nat := bitVal (t.isPaired half (8 * k)) + 2 * bitVal (t.isRemote half (8 * k))
def shadowByte (t : Team) (half b : Nat) : Byte := BitVec.ofNat 8 (((List.range 4).map fun k => shadowBit t half (4 * b + k) * 4 ^ k).sum)

/-- The command block of a tile command, eight words. -/
def blockBytes (b : List Word) : List Byte := (List.range 8).flatMap fun k => bytesOfNat 4 (b.getD k 0).toNat

/-- The stopped TMMA of a half, and the commands behind it. -/
def Team.stoppedTile (t : Team) (half : Nat) : Option TileCmd :=
  match t.queueOf half with
  | c :: _ => if c.kind == 0 && (t.seqOf half).phase != 0 then some c else none
  | [] => none

def Team.queuedTiles (t : Team) (half : Nat) : List TileCmd :=
  match t.stoppedTile half with
  | some _ => (t.queueOf half).tail
  | none => t.queueOf half

def seqRecord (t : Team) (half : Nat) : List Byte :=
  match t.stoppedTile half with
  | none => zeroBytes 64
  | some c =>
    let q := t.seqOf half
    blockBytes c.block ++ bytesOfNat 32 (packFields [(q.chunk, 0), (q.group, 16), (1, 19), (bitVal c.token.isNone, 20), (c.token.getD 0, 21),
      ((tmmaOf c.block).slabAt q.chunk, 32), (c.ref.bent, 64), (c.ref.sl, 72), (half, 75)])

def Team.header (t : Team) (len launch descVa : Nat) : List Byte :=
  bytesOfNat 256 (packFields ([(len, 0), (launch, 64), (t.linear, 96), (t.arrived.toNat, 128), (t.dropped.toNat, 132),
      ((t.halves.map fun h => (t.queuedTiles h).length).sum, 136), (descVa, 192)]
    ++ fieldsOf 16 256 64 (fun n => (smGet 0 n t.counters).toNat) ++ fieldsOf 16 1280 32 (fun n => (smGet 0 n t.pmsel).toNat)))

/-- Bytes of a team's record, from its descriptor alone. -/
def Team.recordBytes (t : Team) : Nat :=
  let h := t.halves.length
  256 + ((List.range t.desc.bents).map fun b => 8 * sliceBytes (t.budget b)).sum + h * t.desc.scratch + h * roundUp (t.desc.scratch / 32) + h * t.desc.plate
    + h * t.desc.acc * 65536 + 256 + 2048

def State.teamRecord (s : State) (tid launch descVa : Nat) : List Byte :=
  let t := s.team tid
  t.header t.recordBytes launch descVa
    ++ ((List.range t.desc.bents).flatMap fun b => (List.range 8).flatMap fun i => (s.slice { tid := tid, bent := b, sl := i }).image (t.budget b))
    ++ (t.halves.flatMap fun h => bytesGet t.scratch (scratchKey h 0) t.desc.scratch)
    ++ (t.halves.flatMap fun h => padded ((List.range (t.desc.scratch / 32)).map (shadowByte t h)))
    ++ (t.halves.flatMap fun h => bytesGet t.plate (plateKey h 0) t.desc.plate)
    ++ (t.halves.flatMap fun h => bytesGet t.tiles (plateKey h 0) (t.desc.acc * 65536))
    ++ padded (t.halves.flatMap (seqRecord t))
    ++ (let q := t.halves.flatMap fun h => t.queuedTiles h
        (List.range 64).flatMap fun k => match q[k]? with | some c => blockBytes c.block | none => zeroBytes 32)

/-! ## Launch records, copy records, the pool (R360) -/

def groupWord (e : GroupEntry) : Nat := e.expected + e.pending * 2 ^ 16 + e.next * 2 ^ 32 + bitVal e.phase * 2 ^ 48 + 2 ^ 49

def State.launchRecord (s : State) (l : Launch) : List Byte :=
  let pkt := match s.entry? l.eid with | some e => natOfBytes e.pkt | none => 0
  padded (bytesOfNat 256 (packFields [(pkt, 0), (l.next, 512), (l.live, 544), (bitVal l.killed, 576)])
    ++ (smGet [] l.lid s.sync.groups).flatMap fun e => bytesOfNat 8 (groupWord e))

def Launch.recordBytes (l : Launch) : Nat := roundUp (256 + 8 * l.words.length)

def copyRecordBytes : Nat := 1536

/-- DONE of a reduce (09 R314), as 1,025 bytes. -/
def doneBytes (applied : List Nat) : List Byte :=
  (List.range 1025).map fun b => BitVec.ofNat 8 (((List.range 8).map fun k => if applied.contains (8 * b + k) then 2 ^ k else 0).sum)

def State.copyImage (s : State) (c : Copy) : List Byte :=
  let e := c.eid.bind s.entry?
  let head := match e with | some e => e.pkt | none => blockBytes c.block ++ zeroBytes 32
  let where_ := match e with | some e => s.entryWhere e + e.q * 2 ^ 48 | none => (s.team c.ref.tid).linear
  head ++ blockBytes (c.follow.getD []) ++ bytesOfNat 8 (packFields [(c.inst.toNat / 2 ^ 16 % 256, 0), (c.token, 8), (bitVal c.eid.isSome, 16)])
    ++ bytesOfNat 8 where_ ++ bytesOfNat 8 c.segbase ++ zeroBytes 136 ++ doneBytes (c.applied.map (· - c.segbase)) ++ zeroBytes 255

def poolEntry (s : State) (e : Entry) : List Byte :=
  bytesOfNat 8 (match e.node with | some _ => s.entryWhere e | none => e.idx % 2 ^ 48 + e.q * 2 ^ 48) ++ bytesOfNat 8 (e.admitted % 2 ^ 62 + e.level * 2 ^ 62)

def poolBytes : Nat := 65536

/-! ## The image -/

def State.ctxLaunches (s : State) (hp ctx : Nat) : List Launch := s.dist.launches.filter fun l => l.hp == hp && l.ctx == ctx
def State.ctxTeams (s : State) (hp ctx : Nat) : List Nat := (s.teams.filter fun p => p.2.hp == hp && p.2.ctx == ctx && !p.2.ended).map (·.1)
def State.ctxCopies (s : State) (hp ctx : Nat) : List Copy := s.copy.copies.filter fun c => c.hp == hp && c.ctx == ctx
def State.ctxPool (s : State) (hp ctx : Nat) : List Entry := s.dist.entries.filter fun e => e.hp == hp && e.ctx == ctx && decide (e.stage ≤ 2)

/-- IMGNEED (R360): as if every resident team and every started copy were saved. -/
def State.imageNeed (s : State) (hp ctx : Nat) : Nat :=
  256 + ((s.ctxLaunches hp ctx).map Launch.recordBytes).sum + ((s.ctxTeams hp ctx).map fun t => (s.team t).recordBytes).sum
    + copyRecordBytes * (s.ctxCopies hp ctx).length + poolBytes

def indexOf (p : Nat → Bool) : List Nat → Nat → Nat
  | [], i => i
  | x :: xs, i => if p x then i else indexOf p xs (i + 1)

/-- The offsets of records of given lengths, from an offset on. -/
def offsetsFrom (off : Nat) : List Nat → List Nat
  | [] => []
  | n :: ns => off :: offsetsFrom (off + n) ns

structure Layout where
  teams : List Nat
  copies : List Copy
  launchOffs : List Nat
  teamOffs : List Nat
  copyOff : Nat
  poolOff : Nat
  size : Nat

def State.layout (s : State) (hp ctx : Nat) (teams : List Nat) (copies : List Copy) : Layout :=
  let ls := (s.ctxLaunches hp ctx).map Launch.recordBytes
  let ts := teams.map fun t => (s.team t).recordBytes
  let teamOff := 256 + ls.sum
  let copyOff := teamOff + ts.sum
  let poolOff := copyOff + copyRecordBytes * copies.length
  { teams := teams, copies := copies, launchOffs := offsetsFrom 256 ls, teamOffs := offsetsFrom teamOff ts, copyOff := copyOff, poolOff := poolOff,
    size := poolOff + poolBytes }

def imageMagic : Nat := 0x4B533943

/-- The record of a team that an earlier image still holds, under its launch's new index and with its arrival bits as they
are now: a completion since has cleared them (08 R276, R286). -/
def keptRecord (old : List Byte) (launch arrived dropped : Nat) : List Byte :=
  old.take 8 ++ bytesOfNat 4 launch ++ (old.drop 12).take 4 ++ bytesOfNat 1 (arrived + 16 * dropped) ++ old.drop 17

/-- The image's bytes; `kept` are the records that are taken over from an earlier image. -/
def State.imageBytes (s : State) (hp ctx : Nat) (y : Layout) (kept : SMap (List Byte)) : List Byte :=
  let ls := s.ctxLaunches hp ctx
  let pool := s.ctxPool hp ctx
  let teamOff := 256 + (ls.map Launch.recordBytes).sum
  let head := packFields [(imageMagic, 0), (1, 32), (y.size, 64), (ls.length, 128), (y.teams.length, 160), (y.copies.length, 192), (pool.length, 224),
    (teamOff, 256), (y.copyOff, 320), (y.poolOff, 384)]
  let launchIx := fun tid => indexOf (fun lid => lid == (s.team tid).launch) (ls.map (·.lid)) 0
  let descVa := fun tid => match s.launch? (s.team tid).launch with | some l => l.descVa | none => 0
  bytesOfNat 256 head ++ (ls.flatMap s.launchRecord) ++ (y.teams.flatMap fun t => match kept.find? (·.1 == t) with
        | some p => keptRecord p.2 (launchIx t) (s.team t).arrived.toNat (s.team t).dropped.toNat
        | none => s.teamRecord t (launchIx t) (descVa t))
     ++ (y.copies.flatMap s.copyImage)
    ++ (let ps := (pool.take 4096).flatMap (poolEntry s); ps ++ zeroBytes (poolBytes - ps.length))

/-! ## Sections of an image as restored (R363) -/

def bytesAt (bs : List Byte) (off n : Nat) : List Byte := (bs.drop off).take n

/-- The slices of a bent from their records. -/
def State.loadSlices (tid b budget : Nat) (bs : List Byte) : State → Nat → List Nat → State
  | s, _, [] => s
  | s, off, i :: is =>
    let r : SliceRef := { tid := tid, bent := b, sl := i }
    let x := (s.slice r).ofRecord i (natOfBytes (bytesAt bs off 512)) (bytesAt bs (off + 512) (16 * budget)) budget
    State.loadSlices tid b budget bs (s.setSlice r x) (off + sliceBytes budget) is

/-- Each slice that runs is a gang of one (04 R144). -/
def State.soloGangs (s : State) (tid b : Nat) : List Gang :=
  ((List.range 8).filter fun i => !(s.slice { tid := tid, bent := b, sl := i }).exited).map fun i => { mask := 1#8 <<< i, waiting := 0, readyAt := 0 }

def State.loadBents (tid : Nat) (t : Team) (bs : List Byte) : State → Nat → List Nat → State
  | s, _, [] => s
  | s, off, b :: bts =>
    let s := State.loadSlices tid b (t.budget b) bs s off (List.range 8)
    State.loadBents tid t bs (s.setGangs tid b (s.soloGangs tid b)) (off + 8 * sliceBytes (t.budget b)) bts

def loadShadow (bs : List Byte) (off half : Nat) (t : Team) : List Nat → Team
  | [] => t
  | k :: ks =>
    let b := (bs.getD (off + k / 4) 0).toNat / 4 ^ (k % 4)
    loadShadow bs off half ((t.setPaired half (8 * k) (bitOf b 0)).setRemote half (8 * k) (bitOf b 1)) ks

/-- A team's own sections, half by half. -/
def Team.loadSections (t : Team) (bs : List Byte) (off : Nat) : Team :=
  let h := t.halves.length
  let shOff := off + h * t.desc.scratch
  let sh := roundUp (t.desc.scratch / 32)
  let plOff := shOff + h * sh
  let tiOff := plOff + h * t.desc.plate
  let n := t.desc.acc * 65536
  let words := List.range (t.desc.scratch / 8)
  t.halves.foldl (fun t k =>
    let t := { t with scratch := bytesPut t.scratch (scratchKey k 0) (bytesAt bs (off + k * t.desc.scratch) t.desc.scratch)
                      plate := bytesPut t.plate (plateKey k 0) (bytesAt bs (plOff + k * t.desc.plate) t.desc.plate)
                      tiles := bytesPut t.tiles (plateKey k 0) (bytesAt bs (tiOff + k * n) n) }
    loadShadow bs (shOff + k * sh) k t words) t

/-- The sequencer's place; a stopped TMMA begins again at LOAD of its chunk (10 R333). -/
def Team.loadSeq (t : Team) (bs : List Byte) (off half : Nat) : Team :=
  let n := natOfBytes (bytesAt bs (off + 64 * half) 64)
  let q := t.seqOf half
  if bitOf n 275 then t.setSeqOf half { q.dropSlabs with chunk := bitsOf n 271 256, group := bitsOf n 274 272, phase := 1, started := false }
  else t.setSeqOf half { q.dropSlabs with phase := 0, started := false }

def Team.slicesLen (t : Team) : Nat := ((List.range t.desc.bents).map fun b => 8 * sliceBytes (t.budget b)).sum

/-- A saved team on new clusters, from its record in the image. -/
def State.loadTeam (s : State) (tid : Nat) (t : Team) (bs : List Byte) : State :=
  let off := t.imageOff
  let n := natOfBytes (bytesAt bs off 256)
  let secs := off + 256 + t.slicesLen
  let h := t.halves.length
  let seqOff := secs + h * (t.desc.scratch + roundUp (t.desc.scratch / 32) + t.desc.plate + t.desc.acc * 65536)
  let t := { t with away := false, held := false, scratch := [], paired := [], remote := [], plate := [], tiles := []
                    counters := (List.range 16).foldl (fun m k => smPut 0 k (BitVec.ofNat 64 (bitsOf n (319 + 64 * k) (256 + 64 * k))) m) []
                    pmsel := (List.range 16).foldl (fun m k => smPut 0 k (BitVec.ofNat 32 (bitsOf n (1311 + 32 * k) (1280 + 32 * k))) m) [] }
  let t := ((t.loadSections bs secs).loadSeq bs seqOff 0).loadSeq bs seqOff 1
  dropCaches (State.loadBents tid t bs (s.setTeam tid t) (off + 256) (List.range t.desc.bents)) t.clusters

/-- The launch's group entries from its record (R286). -/
def groupOfWord (w : Nat) : GroupEntry := { expected := barExpected w, pending := barPending w, next := barNext w, phase := barPhase w }

def State.loadGroups (bs : List Byte) : State → List Launch → State
  | s, [] => s
  | s, l :: ls =>
    let es := (List.range l.words.length).map fun k => groupOfWord (natOfBytes (bytesAt bs (l.imageOff + 256 + 8 * k) 8))
    State.loadGroups bs (if l.loaded then { s with sync := { s.sync with groups := smPut [] l.lid es s.sync.groups } } else s) ls

end Sys2Proof.Machine
end

