-- ==== Sys2Proof/Machine/Limop.lean ====
section
/-! DEFINITION. Limop: messages, flits, ports and their send windows, routes, and the tables of the fabric engine (12 R367
to R371, R381 to R388, R395). -/

namespace Sys2Proof.Machine

/-! ## Registers and tables -/

def State.hpFab (s : State) (hp : Nat) : HpFab := smGet HpFab.reset hp s.fab.hps
def State.setHpFab (s : State) (hp : Nat) (x : HpFab) : State := { s with fab := { s.fab with hps := smPut HpFab.reset hp x s.fab.hps } }
def State.ctxFab (s : State) (hp ctx : Nat) : CtxFab := smGet CtxFab.reset (ccbKey hp ctx) s.fab.ctxs
def State.setCtxFab (s : State) (hp ctx : Nat) (x : CtxFab) : State := { s with fab := { s.fab with ctxs := smPut CtxFab.reset (ccbKey hp ctx) x s.fab.ctxs } }
def State.lport (s : State) (g : Nat) : Port := smGet Port.reset g s.fab.ports
def State.setPort (s : State) (g : Nat) (x : Port) : State := { s with fab := { s.fab with ports := smPut Port.reset g x s.fab.ports } }

/-- REQTO in ns; a value outside its range acts as 1,000 µs (R367). -/
def HpFab.timeout (x : HpFab) : Nat := 1000 * (if 10 ≤ x.reqto ∧ x.reqto ≤ 100000 then x.reqto else 1000)

/-- The partition that is a peer of the domain. -/
def State.hpOfPeer (s : State) (d : Nat) : Option Nat := (List.range 4).find? fun h => (s.hpFab h).en && (s.hpFab h).peer == d

/-- An entry of a table of a context; one that cannot be read counts as not VALID (R372, R375). -/
def State.readEntry (s : State) (hp ctx base n i : Nat) : Option Nat × State :=
  match s.tryReadAll hp ctx ((base + n * i) % 2 ^ 64) n with
  | .ok (bs, s) => (some (natOfBytes bs), s)
  | .error (c, s) => (none, s.countMiss c)

def peerKey (hp ctx p : Nat) : Nat := 1024 * ccbKey hp ctx + p
def winKeyOf (hp ctx w : Nat) : Nat := 256 * ccbKey hp ctx + w

/-- The peer entry of a context, 0 where none can be read; the far dies cache what they read (R369). -/
def State.peerEntry (s : State) (hp ctx p : Nat) : Nat × State :=
  match smFind (peerKey hp ctx p) s.fab.peers with
  | some e => (e, s)
  | none =>
    match s.readEntry hp ctx (s.ctxFab hp ctx).ptab.toNat 8 p with
    | (some e, s) => (e, { s with fab := { s.fab with peers := smSet (peerKey hp ctx p) e s.fab.peers } })
    | (none, s) => (0, s)

def State.importEntry (s : State) (hp ctx w : Nat) : Nat × State :=
  match smFind (winKeyOf hp ctx w) s.fab.imports with
  | some e => (e, s)
  | none =>
    match s.readEntry hp ctx (s.ctxFab hp ctx).wtab.toNat 16 w with
    | (some e, s) => (e, { s with fab := { s.fab with imports := smSet (winKeyOf hp ctx w) e s.fab.imports } })
    | (none, s) => (0, s)

def State.exportEntry (s : State) (hp ctx w : Nat) : Nat × State :=
  match smFind (winKeyOf hp ctx w) s.fab.exports with
  | some e => (e, s)
  | none =>
    match s.readEntry hp ctx (s.ctxFab hp ctx).etab.toNat 32 w with
    | (some e, s) => (e, { s with fab := { s.fab with exports := smSet (winKeyOf hp ctx w) e s.fab.exports } })
    | (none, s) => (0, s)

/-! ## Messages (R381, R382) -/

/-- A read request carries no data: LEN is what it asks for (log entry 71). -/
def msgDataLen (mtype len : Nat) : Nat := if mtype = 1 then 0 else len

def msgBytes (m : Msg) : List Byte :=
  let units := (m.data.length + 15) / 16
  bytesOfNat 48 (packFields [(m.mtype.toNat, 0), (m.vc.toNat, 4), (bitVal m.num, 6), (bitVal m.ptag, 7), (m.dpeer.toNat, 8), (m.dinc.toNat, 18),
      (m.speer.toNat, 26), (m.sinc.toNat, 36), (m.sctx.toNat, 44), (m.rctx.toNat, 50), (m.win.toNat, 56), (m.len.toNat, 64), (m.tag.toNat, 80),
      (m.mseq.toNat, 96), (m.offset.toNat, 128), (m.ty.toNat, 192), (m.aopst.toNat, 196), (m.wkey.toNat, 200), (m.hash.toNat, 256), (m.interval.toNat, 320)])
    ++ m.data ++ zeroBytes (16 * units - m.data.length)

/-- The header of a message, with its data. -/
def msgOf (n : Nat) (data : List Byte) : Msg :=
  { mtype := BitVec.ofNat 4 n, vc := BitVec.ofNat 2 (n / 2 ^ 4), num := bitOf n 6, ptag := bitOf n 7, dpeer := BitVec.ofNat 10 (n / 2 ^ 8),
    dinc := BitVec.ofNat 8 (n / 2 ^ 18), speer := BitVec.ofNat 10 (n / 2 ^ 26), sinc := BitVec.ofNat 8 (n / 2 ^ 36), sctx := BitVec.ofNat 6 (n / 2 ^ 44),
    rctx := BitVec.ofNat 6 (n / 2 ^ 50), win := BitVec.ofNat 8 (n / 2 ^ 56), len := BitVec.ofNat 16 (n / 2 ^ 64), tag := BitVec.ofNat 16 (n / 2 ^ 80),
    mseq := BitVec.ofNat 32 (n / 2 ^ 96), offset := BitVec.ofNat 64 (n / 2 ^ 128), ty := BitVec.ofNat 4 (n / 2 ^ 192), aopst := BitVec.ofNat 4 (n / 2 ^ 196),
    wkey := BitVec.ofNat 32 (n / 2 ^ 200), hash := BitVec.ofNat 64 (n / 2 ^ 256), interval := BitVec.ofNat 16 (n / 2 ^ 320), data := data }

/-- The hash over a message's data: zero when LEN = 0. -/
def dataHash (data : List Byte) : Quad := if data.isEmpty then 0 else crc64 data

def msgHashOk (m : Msg) : Bool := m.hash == dataHash m.data

/-! ## Flits (R383) -/

/-- One bit of CRC-32, IEEE 802.3, least significant bit first. -/
def crc32Step : Nat → Nat → Nat
  | 0, c => c
  | k + 1, c => crc32Step k (if c % 2 = 1 then (c / 2) ^^^ 0xEDB88320 else c / 2)

def crc32Bytes : List Byte → Nat → Nat
  | [], c => c
  | b :: bs, c => crc32Bytes bs (crc32Step 8 (c ^^^ b.toNat))

def crc32 (bs : List Byte) : Word := BitVec.ofNat 32 (crc32Bytes bs (2 ^ 32 - 1) ^^^ (2 ^ 32 - 1))

/-- Header bytes 0 to 11. -/
def flitHeader (f : Flit) : List Byte :=
  bytesOfNat 12 (packFields [(f.fseq.toNat, 0), (f.fack.toNat, 12), (bitVal f.nak, 24), (bitVal f.null, 25), (bitVal f.hole, 26), (bitVal f.mapv, 27),
    (f.stop.toNat, 28), (f.first.toNat, 32), (f.actmap.toNat, 48)])

def flitOk (f : Flit) : Bool := f.crc == crc32 (flitHeader f ++ f.space) && f.space.length == 240

/-- A flit as a port sends it. -/
def Port.flit (p : Port) (stop : BitVec 4) (fseq : Nat) (hole : Bool) (first : Nat) (space : List Byte) : Flit :=
  let f : Flit := { fseq := BitVec.ofNat 12 fseq, fack := BitVec.ofNat 12 p.good, nak := p.nak == 2, null := false, hole := hole, mapv := false, stop := stop,
                    first := BitVec.ofNat 4 first, actmap := p.rxmap, crc := 0, space := space }
  { f with crc := crc32 (flitHeader f ++ f.space) }

/-! ## Sending (R383 to R386) -/

def windowSize : Nat := 1024

/-- The first queued message whose channel is not stopped, and the queue without it. -/
def takeMsg (stop : BitVec 4) : List SentMsg → Option (SentMsg × List SentMsg)
  | [] => none
  | m :: ms =>
    if stop.getLsbD m.m.vc.toNat then (takeMsg stop ms).map fun p => (p.1, m :: p.2)
    else some (m, ms)

/-- A port up, with what it can put into flits put there. -/
def Port.pump (p : Port) (stop : BitVec 4) (now : Nat) : Nat → Port
  | 0 => p
  | k + 1 =>
    if p.state ≠ 2 then p
    else if p.part.length = 240 then
      if windowSize ≤ p.window.length then p
      else
        let w : WinFlit := { flit := p.flit stop p.nextSeq false p.first p.part, msgs := p.partMsgs, lost := false }
        Port.pump { p with window := p.window ++ [w], part := [], first := 15, partMsgs := if p.rest.isEmpty then [] else p.restMsg,
                           nextSeq := (p.nextSeq + 1) % 4096, flits := p.flits + 1, lastSent := now } stop now k
    else if !p.rest.isEmpty then
      let n := 240 - p.part.length
      Port.pump { p with part := p.part ++ p.rest.take n, rest := p.rest.drop n, lastUnit := now } stop now k
    else
      match takeMsg p.peerStop p.queue with
      | none => p
      | some (m, q) =>
        Port.pump { p with queue := q, rest := msgBytes m.m, restMsg := [m], partMsgs := p.partMsgs ++ [m], first := if p.first = 15 then p.part.length / 16 else p.first } stop now k

/-- Units that may move at once. -/
def Port.work (p : Port) : Nat := 8 * (p.queue.length + p.window.length) + p.rest.length + 64

/-! ## Routes (R368) -/

/-- The partition that owns a port (14 R427). -/
def State.portOwner (s : State) (g : Nat) : Nat := bitsOf s.dev.lmown.toNat (2 * g + 1) (2 * g)

/-- The ports of a route entry, in the order of choice. -/
def routePorts (e : Nat) : List Nat := ((List.range 4).filter fun k => bitOf e (16 + k)).map fun k => bitsOf e (4 * k + 3) (4 * k)

/-- The port by which a message to a peer leaves, if one is up. -/
def State.routeOf (s : State) (hp d : Nat) : Option Nat :=
  (routePorts (smGet 0 d (s.hpFab hp).routes)).find? fun g => (s.lport g).state == 2 && s.portOwner g == hp

/-- The far die of the traffic with a peer: that of its port, FD0 without one. -/
def State.dieOf (s : State) (hp d : Nat) : Nat := match s.routeOf hp d with | some g => g / 8 | none => 0

/-- The port whose counters count a partition's dropped messages of a peer. -/
def State.countPort (s : State) (hp d : Nat) : Nat :=
  match s.routeOf hp d with
  | some g => g
  | none => ((List.range 16).find? fun g => s.portOwner g == hp).getD 0

/-- STALEDROP (R387, R399). -/
def State.staleDrop (s : State) (hp d : Nat) : State :=
  let g := s.countPort hp d
  let p := s.lport g
  s.setPort g { p with staledrop := p.staledrop + 1 }

/-! ## STOP (R385, R396, 13 R407) -/

/-- A message came in by a port: that of the messages to its source. -/
def State.cameBy (s : State) (g : Nat) (m : Msg) : Bool :=
  m.speer != m.dpeer && (match s.hpOfPeer m.dpeer.toNat with | some hp => s.routeOf hp m.speer.toNat == some g | none => false)

/-- The bytes of a channel in a port's receive buffer: the messages that have not been taken or performed, and one received in part. -/
def State.buffered (s : State) (g v : Nat) : Nat :=
  let p := s.lport g
  (((s.fab.inbox ++ s.fab.held.map (·.m)).filter fun m => m.vc.toNat == v && s.cameBy g m).map fun m => 48 + 16 * ((m.data.length + 15) / 16)).sum
    + (if (p.rxBytes.headD 0).toNat / 16 % 4 = v then p.rxBytes.length else 0)

def rspCacheSize : Nat := 16384

def State.cacheFull (s : State) (die : Nat) : Bool := decide (rspCacheSize ≤ (s.fab.cache.filter fun c => c.die == die).length)

/-- CSETs and ABORTs that a half can hold (13 R407). -/
def heldColls : Nat := 4096

def State.heldFull (s : State) (half : Nat) : Bool := decide (heldColls ≤ (s.coll.held.filter fun h => h.half == half).length)

/-- A port's STOP bits as it set them last. -/
def State.stopOf (s : State) (g : Nat) : BitVec 4 := smGet 0 g s.fab.stop

/-- A channel's STOP bit: set with less than 256 KiB of 320 KiB free, cleared with more than 288 KiB; never of VC 1. -/
def State.stopBit (s : State) (g v : Nat) : Bool :=
  let used := s.buffered g v
  v != 1 && (decide (64 * 1024 < used) || ((s.stopOf g).getLsbD v && decide (32 * 1024 ≤ used)) || (v == 0 && s.cacheFull (g / 8)) || (v == 2 && s.heldFull (g / 8)))

def State.markStop (s : State) (g : Nat) : State :=
  { s with fab := { s.fab with stop := smPut 0 g (BitVec.ofNat 4 (packFields ((List.range 4).map fun v => (bitVal (s.stopBit g v), v)))) s.fab.stop } }

def State.pumpPort (s : State) (g : Nat) : State :=
  let s := s.markStop g
  let p := s.lport g
  s.setPort g (p.pump (s.stopOf g) s.ns (p.work + (p.queue.map fun m => m.m.data.length).sum))

def State.enqueueMsg (s : State) (g : Nat) (m : SentMsg) : State :=
  let p := s.lport g
  (s.setPort g { p with queue := p.queue ++ [m] }).pumpPort g

/-! ## Sending by the routes -/

/-- Sends a message; one to the partition's own peer is looped back. None: no port to the peer is up. -/
def State.sendMsg (s : State) (hp : Nat) (m : Msg) (req : Option Msg) : Option State :=
  if m.dpeer.toNat = (s.hpFab hp).peer then some { s with fab := { s.fab with inbox := s.fab.inbox ++ [m] } }
  else (s.routeOf hp m.dpeer.toNat).map fun g => s.enqueueMsg g { m := m, req := req }

/-- Sends a message if it can be sent. -/
def State.sendOrDrop (s : State) (hp : Nat) (m : Msg) (req : Option Msg) : State := (s.sendMsg hp m req).getD s

/-! ## Sequence numbers (R390) -/

def pairKey (speer sinc dpeer dinc : Nat) : Nat := ((speer * 256 + sinc) * 1024 + dpeer) * 256 + dinc
def msgPair (m : Msg) : Nat := pairKey m.speer.toNat m.sinc.toNat m.dpeer.toNat m.dinc.toNat

/-- The number of the next message of a pair. -/
def State.nextMseq (s : State) (key : Nat) : Nat × State :=
  let n := smGet 1 key s.fab.txSeq
  (n, { s with fab := { s.fab with txSeq := smSet key ((n + 1) % 2 ^ 32) s.fab.txSeq } })

/-! ## Event records and bandwidth changes (R395, R356) -/

/-- Entries of a partition's collectives that have not started go to the half with more wavelengths (R356). -/
def State.reassign (s : State) (hp : Nat) : State :=
  let h := s.collHalf
  { s with dist := { s.dist with entries := s.dist.entries.map fun e =>
      if e.hp == hp && (e.kind == 3 || e.kind == 4) && decide (e.stage ≤ 3) then { e with engine := h } else e } }

/-- A record of a partition's event ring, and the fabric interrupt (R367, R395). -/
def State.fabRecord (s : State) (hp : Nat) (rec_ : Nat) : State :=
  let x := s.hpFab hp
  let pa := x.evbase + 64 * (x.evwr.toNat % 2 ^ x.evlog)
  let s :=
    if x.evlog < 4 ∨ x.evlog > 16 then s.bumpErr 23
    else if (s.region hp pa).backed then
      (s.commitAll (homeWriter (s.region hp pa).home) pa (bytesOfNat 64 rec_)).setHpFab hp { x with evwr := x.evwr + 1 }
    else s.bumpErr 23
  s.devIrq 1

/-- CAUSE of a record. -/
def linkCause : LinkCause → Nat
  | .lossOfLight => 0
  | .errorThreshold => 1
  | .recovery => 2
  | .other => 3

def waveCount (m : Half) : Nat := (maskList m.toNat 16).length

/-- What a record says of a port. -/
structure LinkEvent where
  rtype : Nat
  dir : Nat
  cause : Nat
  old : Half
  new : Half
  replayed : Nat
  firstseq : Nat

def State.linkEvent (s : State) (g : Nat) (e : LinkEvent) : State :=
  let hp := s.portOwner g
  let s := s.fabRecord hp (packFields [(e.rtype, 0), (g % 8, 8), (g / 8, 12), (e.dir, 13), (e.cause, 14), (e.old.toNat, 16), (e.new.toNat, 32),
    (waveCount e.new, 48), (e.replayed, 64), (e.firstseq, 128), (s.ns, 448)])
  if e.rtype ≤ 0x22 then s.reassign hp else s

end Sys2Proof.Machine
end

