-- ==== Sys2Proof/Machine/Remote.lean ====
section
/-! DEFINITION. Remote access: RLD, RST, RATM and RFNC, the requests that they send, the outstanding-request tables, and
what becomes of an answered request (12 R373 to R381, R387). -/

namespace Sys2Proof.Machine

/-! ## Lanes (R374, R375) -/

/-- One executing lane of a remote instruction. -/
structure RemLane where
  lane : Nat
  off : Nat
  op : Nat

def remPeer (p : Nat) : Nat := bitsOf p 9 0
def remWin (p : Nat) : Nat := bitsOf p 23 16
def remReserved (p : Nat) : Bool := bitsOf p 15 10 != 0 || bitsOf p 31 24 != 0

/-- P[L]. -/
def Slice.peerOf (x : Slice) (c lane : Nat) : Nat := if 128 ≤ c then (x.getS (c - 128)).toNat else (x.getV c lane).toNat

/-- The executing lanes; RFNC, operation 3, has no offset. -/
def Slice.remLanes (x : Slice) (h : Head) (w : Remote) (op : Nat) : List RemLane :=
  (x.lanesOn h.gp h.gn).map fun j => { lane := j, off := if op = 3 then 0 else x.memAddr h (w.off.signExtend 24) j, op := x.peerOf h.c.toNat j }

/-- The right that an import entry must grant: R, W, A. -/
def rightBit (op : Nat) : Nat := op + 1

/-- e[L] = LOCAL. -/
def State.laneLocal (s : State) (hp ctx op : Nat) (l : RemLane) : Bool × State :=
  let (pe, s) := s.peerEntry hp ctx (remPeer l.op)
  if op = 3 then (!(s.hpFab hp).en || !bitOf pe 0, s)
  else
    let (we, s) := s.importEntry hp ctx (remWin l.op)
    (!(s.hpFab hp).en || remReserved l.op || !bitOf pe 0 || !bitOf we 0 || !bitOf we (rightBit op), s)

def State.localLanes (hp ctx op : Nat) : State → List RemLane → List RemLane × State
  | s, [] => ([], s)
  | s, l :: ls =>
    let (e, s) := s.laneLocal hp ctx op l
    let (es, s) := State.localLanes hp ctx op s ls
    (if e then l :: es else es, s)

/-- A remote byte's place among the addresses of operations: peer, window and offset, apart from every physical address. -/
def remotePa (op off : Nat) : Nat := 2 ^ 80 + (remPeer op * 256 + remWin op) * 2 ^ 64 + off

def dataOf (x : Slice) (b n lane : Nat) : List Byte := (List.range n).flatMap fun k => bytesOfNat 4 (x.getV (b + k) lane).toNat

def remElem (x : Slice) (h : Head) (w : Remote) (op : Nat) (l : RemLane) : Elem :=
  let n := if op = 3 then 0 else tyBytes w.ty
  let reads := op = 1 ∨ op = 2
  { lane := l.lane, va := BitVec.ofNat 64 l.off, pa := remotePa l.op l.off, key := l.op, size := n,
    data := if reads then (dataOf x h.b.toNat w.ty.regs l.lane).take n else [],
    cmp := if op = 2 ∧ w.min4 = 7 then (dataOf x (h.b.toNat + w.ty.regs) w.ty.regs l.lane).take n else [] }

/-! ## Requests (R381) -/

/-- One lane's part of a pass, with its operation and position. -/
structure PassLane where
  op : Nat
  e : Elem
  /-- The phase tag of its slice (08 R283). -/
  tag : Bool

def PassLane.peer (l : PassLane) : Nat := remPeer l.e.key
def PassLane.win (l : PassLane) : Nat := remWin l.e.key
def PassLane.off (l : PassLane) : Nat := l.e.va.toNat
def PassLane.block (l : PassLane) : Nat × Nat := (l.win, l.off / 128)
def PassLane.covers (l : PassLane) (a : Nat) : Bool := decide (l.off ≤ a ∧ a < l.off + l.e.size)

/-- Maximal runs of covered bytes from an address on: first byte and length. -/
def runsFrom (cov : Nat → Bool) : Nat → Nat → List (Nat × Nat)
  | 0, _ => []
  | k + 1, a =>
    if cov a then
      match runsFrom cov k (a + 1) with
      | (b, n) :: rs => if b = a + 1 then (a, n + 1) :: rs else (a, 1) :: (b, n) :: rs
      | [] => [(a, 1)]
    else runsFrom cov k (a + 1)

/-- The byte that the last lane in the pass gives an address. -/
def passByte (ls : List PassLane) (a : Nat) : Byte :=
  match ls.reverse.find? fun l => l.covers a with
  | some l => l.e.data.getD (a - l.off) 0
  | none => 0

/-- What a request carries besides its place and data. -/
structure ReqHead where
  hp : Nat
  ctx : Nat
  op : Nat
  ty : BitVec 4
  aop : BitVec 4
  tag : Bool

def State.reqMsg (s : State) (h : ReqHead) (peer win off len : Nat) (data : List Byte) : Msg × State :=
  let (pe, s) := s.peerEntry h.hp h.ctx peer
  let (we, s) := if h.op = 3 then (0, s) else s.importEntry h.hp h.ctx win
  let x := s.hpFab h.hp
  ({ mtype := BitVec.ofNat 4 (h.op + 1), vc := 0, num := h.op != 0, ptag := h.tag, dpeer := BitVec.ofNat 10 peer, dinc := BitVec.ofNat 8 (bitsOf pe 15 8),
     speer := BitVec.ofNat 10 x.peer, sinc := BitVec.ofNat 8 x.inc, sctx := BitVec.ofNat 6 h.ctx, rctx := BitVec.ofNat 6 (bitsOf pe 21 16),
     win := BitVec.ofNat 8 (if h.op = 3 then 0 else win), len := BitVec.ofNat 16 len, tag := 0, mseq := 0, offset := BitVec.ofNat 64 off, ty := h.ty, aopst := h.aop,
     wkey := BitVec.ofNat 32 (bitsOf we 63 32), hash := dataHash data, interval := 0, data := data }, s)

def State.newReq (s : State) (h : ReqHead) (peer win off len : Nat) (data : List Byte) (parts : List ReqPart) : State :=
  let (m, s) := s.reqMsg h peer win off len data
  { s with fab := { s.fab with waiting := s.fab.waiting ++ [{ die := s.dieOf h.hp peer, tag := 0, hp := h.hp, ctx := h.ctx, m := m, parts := parts, sent := 0 }] } }

/-- The messages of the runs of one block. -/
def State.runReqs (h : ReqHead) (ls : List PassLane) (peer win : Nat) : State → List (Nat × Nat) → State
  | s, [] => s
  | s, (a, n) :: rs =>
    let mine := ls.filter fun l => decide (a ≤ l.off ∧ l.off < a + n)
    let data := if h.op = 1 then (List.range n).map fun k => passByte ls (a + k) else []
    State.runReqs h ls peer win (s.newReq h peer win a n data (mine.map fun l => { op := l.op, lane := l.e.lane, off := l.off - a, n := l.e.size })) rs

def State.blockReqs (h : ReqHead) (ls : List PassLane) (peer : Nat) : State → List (Nat × Nat) → State
  | s, [] => s
  | s, b :: bs =>
    let mine := ls.filter fun l => l.block == b
    State.blockReqs h ls peer (State.runReqs h mine peer b.1 s (runsFrom (fun a => mine.any fun l => l.covers a) 128 (b.2 * 128))) bs

def State.laneReqs (h : ReqHead) (peer : Nat) : State → List PassLane → State
  | s, [] => s
  | s, l :: ls =>
    let data := l.e.data ++ l.e.cmp
    State.laneReqs h peer (s.newReq h peer l.win l.off data.length data [{ op := l.op, lane := l.e.lane, off := 0, n := l.e.size }]) ls

/-- Lanes in their order, cut where the phase tag changes: a message carries one tag (DESIGN CHOICE, log entry 119). -/
def tagRuns : List PassLane → List (Bool × List PassLane)
  | [] => []
  | l :: ls =>
    match tagRuns ls with
    | (b, ms) :: rs => if b = l.tag then (b, l :: ms) :: rs else (l.tag, [l]) :: (b, ms) :: rs
    | [] => [(l.tag, [l])]

/-- The requests of lanes of one peer and one tag. -/
def State.tagReqs (h : ReqHead) (peer : Nat) : State → List (Bool × List PassLane) → State
  | s, [] => s
  | s, (b, mine) :: rs =>
    let h := { h with tag := b }
    State.tagReqs h peer (if h.op = 2 then State.laneReqs h peer s mine else State.blockReqs h mine peer s (mine.map PassLane.block).eraseDups) rs

/-- One pass: the requests of the lanes of one peer. A marker carries the tag of its first lane. -/
def State.pass (s : State) (h : ReqHead) (ls : List PassLane) (peer : Nat) : State :=
  let mine := ls.filter fun l => l.peer == peer
  if h.op = 3 then
    s.newReq { h with tag := match mine with | l :: _ => l.tag | [] => h.tag } peer 0 0 0 [] (mine.map fun l => { op := l.op, lane := l.e.lane, off := 0, n := 0 })
  else State.tagReqs h peer s (tagRuns mine)

def State.passes (h : ReqHead) (ls : List PassLane) : State → List Nat → State
  | s, [] => s
  | s, p :: ps => State.passes h ls (s.pass h ls p) ps

def insertNat (n : Nat) : List Nat → List Nat
  | [] => [n]
  | m :: ms => if n ≤ m then n :: m :: ms else m :: insertNat n ms

def sortNats : List Nat → List Nat
  | [] => []
  | n :: ns => insertNat n (sortNats ns)

/-! ## The end of a remote operation (R377, R378) -/

/-- The lanes that failed, with their codes. -/
def Op.failures (o : Op) : List (Nat × Nat) := o.stat.filter fun p => p.2 != 0

/-- A lane's writes: the value, or under a status predicate its code; and the predicate. -/
def Op.laneWrites (o : Op) (op dst : Nat) (ty : Ty) (sp : Option Nat) (p : Nat × Nat) : List RegWrite :=
  let loads := op = 0 ∨ op = 2
  let value : List RegWrite :=
    if !loads then []
    else if p.2 = 0 then
      match o.got.find? fun g => g.1 == p.1 with
      | some g => resultWrites ty false p.1 dst (natOfBytes g.2)
      | none => []
    else if sp.isSome then (List.range ty.regs).map fun k => { reg := .v (dst + k), lane := p.1, val := BitVec.ofNat 32 (if k = 0 then p.2 else 0) }
    else []
  value ++ (match sp with | some q => [{ reg := .p q, lane := p.1, val := if p.2 = 0 then 1 else 0 }] | none => [])

/-- REMOTE as a completion fault. -/
def Op.remoteFault (o : Op) : Option FaultInfo :=
  match (o.failures.map (·.1) |> sortNats) with
  | [] => none
  | l :: ls =>
    let code := match o.failures.find? fun p => p.1 == l with | some p => p.2 | none => 0
    let addr := match o.elems.find? fun e => e.lane == l with | some e => e.va | none => 0
    some { cause := causeRemote, sub := code, lanes := ((l :: ls).map (2 ^ ·)).sum, addr := addr }

/-- Every lane has its answer: the destinations, the predicate or the fault; the operation has performed at sys scope. One that a
failed check leaves unacknowledged stays so (07 R234). -/
def State.finishRemote (s : State) (o : Op) (op dst : Nat) (ty : Ty) (sp : Option Nat) : State :=
  let ws := o.stat.flatMap (o.laneWrites op dst ty sp)
  let flt := if sp.isSome then none else o.remoteFault
  let s := s.setOp { o with performed := true, acked := if o.failed then none else some .sys }
  let s := match o.pid, flt with
    | some _, none => s.settleOp o ws none
    | some _, some f => (s.modSlice o.ref fun x => x.putAll ws).settleOp o [] (some f)
    | none, some f => s.completionFault o.ref f o.pc o.inst
    | none, none => s
  (s.acquireOp { o with performed := true }).retire

def Op.complete (o : Op) : Bool := o.elems.all fun e => o.stat.any fun p => p.1 == e.lane

/-- One lane's answer; without data its destination is not written. -/
def State.answerPart (s : State) (status : Nat) (data : Option (List Byte)) (p : ReqPart) : State :=
  match s.op? p.op with
  | none => s
  | some o =>
    let o := { o with stat := o.stat ++ [(p.lane, status)], got := match data with | some bs => if status = 0 then o.got ++ [(p.lane, (bs.drop p.off).take p.n)] else o.got | none => o.got }
    match o.kind with
    | .remote op dst ty sp => if o.complete then s.finishRemote o op dst ty sp else s.setOp o
    | _ => s

def State.answerParts (status : Nat) (data : Option (List Byte)) : State → List ReqPart → State
  | s, [] => s
  | s, p :: ps => State.answerParts status data (s.answerPart status data p) ps

/-! ## The outstanding-request tables (R387) -/

def tableSize : Nat := 8192

def State.freeReqTag (s : State) (die : Nat) : Option Nat :=
  firstFrom (fun t => s.fab.reqs.all fun r => r.tag != t) tableSize (die * tableSize)

/-- The operation of a request lets it go: what must perform before it has (07 R216), and a release is sealed. -/
def State.opMayGo (s : State) (id : Nat) : Bool :=
  match s.op? id with
  | none => true
  | some o => if o.cls.trails then o.clear else s.mayPerform o

/-- No earlier numbered request to the same peer waits: numbers follow the order of issue (R390). -/
def inOrder (r : Req) : List Req → Bool
  | [] => true
  | q :: qs => if q = r then true else !(q.m.num && r.m.num && msgPair q.m == msgPair r.m) && inOrder r qs

def State.mayGo (s : State) (r : Req) : Bool :=
  r.parts.all (fun p => s.opMayGo p.op) && inOrder r s.fab.waiting

/-- A waiting request leaves: into the table and out of its port, or with ROUTE. -/
def State.sendReq (s : State) (r : Req) (tag : Nat) : State :=
  let s := { s with fab := { s.fab with waiting := s.fab.waiting.filter fun q => q != r } }
  let here := r.m.dpeer.toNat == (s.hpFab r.hp).peer || (s.routeOf r.hp r.m.dpeer.toNat).isSome
  if !here then State.answerParts 10 none s r.parts
  else
    let (n, s) := if r.m.num then s.nextMseq (msgPair r.m) else (0, s)
    let m := { r.m with tag := BitVec.ofNat 16 tag, mseq := BitVec.ofNat 32 n }
    ({ s with fab := { s.fab with reqs := s.fab.reqs ++ [{ r with tag := tag, m := m, sent := s.ns }] } }).sendOrDrop r.hp m none

/-- Every waiting request that may go and finds an entry goes. -/
def State.admitReqs (s : State) : List Req → State
  | [] => s
  | r :: rs =>
    match s.freeReqTag r.die with
    | some tag => if s.mayGo r then (s.sendReq r tag).admitReqs rs else s.admitReqs rs
    | none => s.admitReqs rs

/-- REQUEST_TABLE_ADMIT (R387): A waiting request takes an outstanding-request entry when one frees. -/
def execEvRequestTableAdmit (die : Nat) (s : State) : Host.Outcome State Fault Refusal :=
  match s.freeReqTag die, s.fab.waiting.find? fun r => r.die == die && s.mayGo r with
  | some tag, some r => .next (s.sendReq r tag)
  | _, _ => .next s

/-! ## Issue (R375) -/

def remClass (op : Nat) (o : Ord) : OpClass :=
  match op, o with
  | 3, _ => .x
  | 0, .acq => .a
  | 0, _ => .l
  | 1, .rel => .r
  | 1, _ => .s
  | _, o => atomClass o

/-- Registers that it names. -/
def remRegs (h : Head) (w : Remote) (op : Nat) : List Reg :=
  let peer : List Reg := if 128 ≤ h.c.toNat then [.s (h.c.toNat - 128)] else [.v h.c.toNat]
  let d := if op = 0 ∨ op = 2 then regGroup false w.ty.regs h.d.toNat else []
  let b := if op = 1 ∨ op = 2 then regGroup false (if op = 2 ∧ w.min4 = 7 then 2 * w.ty.regs else w.ty.regs) h.b.toNat else []
  let sp : List Reg := if w.se then [.p w.sp.toNat] else []
  peer ++ d ++ b ++ sp ++ (if op = 3 then [] else pairRegs h) ++ guardRegs h

/-- One slice before its lanes are sent: it traps, has nothing to send, or gains an operation. -/
def remSlice (i : Instr) (h : Head) (w : Remote) (op : Nat) (s : State) (r : SliceRef) : State × SliceRes × List PassLane :=
  let x := s.slice r
  let t := s.team r.tid
  let ls := x.remLanes h w op
  let go : SliceRes := .go (nextPc i x.pc)
  let bad := if op = 3 then [] else ls.filter fun l => l.off % tyBytes w.ty != 0
  match causeOf causeAlign (bad.map fun l => (l.lane, l.off)) with
  | some f => (s, .trap f none, [])
  | none =>
    let (es, s) := State.localLanes t.hp t.ctx op s ls
    match (if w.se then none else causeOf causeRemote (es.map fun l => (l.lane, l.off))) with
    | some f => (s, .trap { f with sub := 1 } none, [])
    | none =>
      if ls.isEmpty then (s, go, [])
      else
        let elems := ls.map (remElem x h w op)
        let sp := if w.se then some w.sp.toNat else none
        let dest := (if op = 0 ∨ op = 2 then regGroup false w.ty.regs h.d.toNat else []) ++ (match sp with | some p => [Reg.p p] | none => [])
        let p := newPending s r i h.la.toNat dest none 0 none
        let s1 := if dest.isEmpty then s else s.fresh.2.addPending r p
        let o := newOp s1 r i (remClass op w.ord) .sys (.remote op h.d.toNat w.ty sp) elems false true (if dest.isEmpty then none else some p.pid)
        let o := { o with stat := es.map fun l => (l.lane, 1) }
        let s2 := s1.addOp o
        let out := (elems.filter fun e => !(es.any fun l => l.lane == e.lane)).map fun e => ({ op := o.id, e := e, tag := x.tag } : PassLane)
        (if out.isEmpty then s2.finishRemote o op h.d.toNat w.ty sp else s2, go, out)

def remSlices (i : Instr) (h : Head) (w : Remote) (op : Nat) : State → List SliceRef → State × List (SliceRef × SliceRes) × List PassLane
  | s, [] => (s, [], [])
  | s, r :: rs =>
    let (s, res, ls) := remSlice i h w op s r
    let (s, rs, ls') := remSlices i h w op s rs
    (s, (r, res) :: rs, ls ++ ls')

/-- A slice of the gang has a request that waits for an entry: the next pass stalls (R387). -/
def State.reqWaits (s : State) (rs : List SliceRef) : Bool :=
  s.fab.waiting.any fun q => (s.freeReqTag q.die).isNone && q.parts.any fun p => match s.op? p.op with | some o => rs.contains o.ref | none => false

def remBody (i : Instr) (h : Head) (w : Remote) (op : Nat) (s : State) (rs : List SliceRef) : Attempt :=
  if s.reqWaits rs || rs.any (fun r => s.squareFull (s.clusterOf r) []) then .stall .retry
  else
    let (s', res, ls) := remSlices i h w op s rs
    let t := match rs with | r :: _ => s.team r.tid | [] => Team.absent
    let hd : ReqHead := { hp := t.hp, ctx := t.ctx, op := op, ty := w.ty.code, aop := if op = 2 then w.min4 else 0, tag := false }
    let s' := State.passes hd ls s' (sortNats (ls.map PassLane.peer).eraseDups)
    .done (s'.admitReqs s'.fab.waiting) res

def issueRemote (i : Instr) (h : Head) (w : Remote) (op : Nat) (s : State) : Host.Outcome State Fault Refusal :=
  issueGang i (Head.info h (remRegs h w op)) (remBody i h w op) s

/-- RLD (R375): Remote load from a peer window. -/
def execXrRld (h : Head) (w : Remote) (s : State) : Host.Outcome State Fault Refusal := issueRemote (.xrRld h w) h w 0 s

/-- RST (R375): Remote store to a peer window. -/
def execXrRst (h : Head) (w : Remote) (s : State) : Host.Outcome State Fault Refusal := issueRemote (.xrRst h w) h w 1 s

/-- RATM (R375): Remote atomic on a peer window. -/
def execXrRatm (h : Head) (w : Remote) (s : State) : Host.Outcome State Fault Refusal := issueRemote (.xrRatm h w) h w 2 s

/-- RFNC (R376): Remote fence, sending one marker to each named peer. -/
def execXrRfnc (h : Head) (w : Remote) (s : State) : Host.Outcome State Fault Refusal := issueRemote (.xrRfnc h w) h w 3 s

end Sys2Proof.Machine
end

