-- ==== Sys2Proof/Machine/Responder.lean ====
section
/-! DEFINITION. Limop at the responder and back at the requester: checks, service in sequence, the response cache, answers,
timeouts and dead peers (12 R372, R376, R379, R380, R387, R390, R396 to R399). -/

namespace Sys2Proof.Machine

/-! ## Incarnations (R399) -/

def incKey (hp peer : Nat) : Nat := 1024 * hp + peer

/-- A message of an incarnation that has been replaced. -/
def State.replaced (s : State) (hp : Nat) (m : Msg) : Bool := (smGet [] (incKey hp m.speer.toNat) s.fab.oldIncs).contains m.sinc.toNat

/-- The incarnation of a source is noted; another one replaces it. -/
def State.noteInc (s : State) (hp : Nat) (m : Msg) : State :=
  let k := incKey hp m.speer.toNat
  let now := m.sinc.toNat + 1
  let last := smGet 0 k s.fab.incs
  if last = now then s
  else
    let old := smGet [] k s.fab.oldIncs
    { s with fab := { s.fab with incs := smSet k now s.fab.incs, oldIncs := if last = 0 then s.fab.oldIncs else smSet k (old ++ [last - 1]) s.fab.oldIncs } }

/-! ## Responses -/

/-- The answer to a request (R381): OFFSET and WKEY are zero. -/
def State.reply (s : State) (hp : Nat) (m : Msg) (mtype status : Nat) (data : List Byte) (interval : Half) : Msg :=
  let x := s.hpFab hp
  { mtype := BitVec.ofNat 4 mtype, vc := 1, num := false, ptag := m.ptag, dpeer := m.speer, dinc := m.sinc, speer := BitVec.ofNat 10 x.peer,
    sinc := BitVec.ofNat 8 x.inc, sctx := m.sctx, rctx := m.rctx, win := m.win, len := BitVec.ofNat 16 data.length, tag := m.tag, mseq := m.mseq, offset := 0,
    ty := m.ty, aopst := BitVec.ofNat 4 status, wkey := 0, hash := dataHash data, interval := interval, data := data }

def State.sendError (s : State) (hp : Nat) (m : Msg) (status : Nat) : State := s.sendOrDrop hp (s.reply hp m 12 status [] 0) none

/-- The cached answer to a request that has arrived before, of its number (DEDUCED, log entry 57). -/
def State.cachedFor (s : State) (m : Msg) : Option Msg :=
  (s.fab.cache.find? fun c => c.m.dpeer == m.speer && c.m.dinc == m.sinc && c.m.tag == m.tag && c.m.mseq == m.mseq).map (·.m)

/-- An answer that the cache keeps for 2 × REQTO (R396). -/
def State.sendCached (s : State) (hp : Nat) (r : Msg) : State :=
  let c : CachedRsp := { die := s.dieOf hp r.dpeer.toNat, m := r, until_ := s.ns + 2 * (s.hpFab hp).timeout }
  ({ s with fab := { s.fab with cache := s.fab.cache ++ [c] } }).sendOrDrop hp r none

/-! ## Checks (R372) -/

/-- What a request does to the window: its right, the kind of access, the bytes. -/
def reqAccess (mtype : Nat) : Access :=
  match mtype with
  | 1 => .read
  | 2 => .write
  | _ => .atomic

/-- The bytes that a request reaches. -/
def reqBytes (m : Msg) : Nat := if m.mtype = 3 then tyBytes (Ty.ofCode m.ty) else m.len.toNat

inductive Served where
  | at_ (va pa : Nat) (keyid : Nat)
  | status (n : Nat)

/-- A request served with FAULT leaves a record in the responder's context (R441). -/
def State.faultServed (s : State) (hp : Nat) (m : Msg) (va pa : Nat) : State :=
  s.logError hp m.rctx.toNat (accessRecord 5 6 0 m.speer.toNat va pa 0 s.ns)

def State.serveCheck (s : State) (hp : Nat) (m : Msg) : Served × State :=
  let ctx := m.rctx.toNat
  if m.dinc.toNat ≠ (s.hpFab hp).inc then (.status 8, s)
  else if !(s.ctxFab hp ctx).rxen then (.status 2, s)
  else
    let (e, s) := s.exportEntry hp ctx m.win.toNat
    if !bitOf e 0 || bitsOf e 223 192 != m.wkey.toNat then (.status 2, s)
    else if bitsOf e 191 128 < m.offset.toNat + reqBytes m then (.status 3, s)
    else if !bitOf e m.mtype.toNat then (.status 4, s)
    else
      let va := (bitsOf e 127 64 + m.offset.toNat) % 2 ^ 64
      match s.xlate hp ctx va (reqAccess m.mtype.toNat) with
      | (.ok t pa, s) =>
        if m.mtype = 3 && s.hostRefuses hp m.aopst.toNat (Ty.ofCode m.ty) pa then (.status 4, s)
        else if s.reachable hp t.keyid pa then (.at_ va pa t.keyid, s) else (.status 5, (s.countKey t.keyid).faultServed hp m va pa)
      | (.perm, s) => (.status 4, s)
      | (_, s) => (.status 5, s.faultServed hp m va 0)

/-! ## Service -/

/-- The number by which a far die's accesses are known to a migration (06 R208), and as a writer (07 R230). -/
def farSource (die : Nat) : Nat := 5000 + die
def farWriter (die : Nat) : Nat := homeWriter (4 + die)

def farScribe (die : Nat) : ScribeId := { kind := 5, inst := die }

/-- A request that must wait is kept. -/
def State.holdReq (s : State) (hp : Nat) (m : Msg) : State :=
  if s.fab.held.any fun h => h.m == m then s else { s with fab := { s.fab with held := s.fab.held ++ [{ hp := hp, m := m, since := s.ns }] } }

def State.unhold (s : State) (m : Msg) : State := { s with fab := { s.fab with held := s.fab.held.filter fun h => h.m != m } }

def linesOf (pa n : Nat) : List Nat := (List.range (lineOf (pa + n - 1) + 1 - lineOf pa)).map fun k => lineOf pa + k

/-- The bytes cannot be reached now: a migration, a release held pending-seal, or, for an answer that carries them, an open deferred
window of their lines (07 R235). -/
def State.linesBusy (s : State) (die mtype : Nat) (pa n : Nat) : Bool :=
  let r := if mtype = 1 then s.readRoute (farSource die) pa else s.writeRoute (farSource die) pa
  r.isHeld || s.rangeHeld (r.addr pa) n || (mtype != 2 && !(s.openWindows (some (linesOf (r.addr pa) n))).isEmpty)

/-- Holders of narrow stores to the bytes of an answer: a request does not say whether it acquires, so that each forces their publish
(07 R223; DESIGN CHOICE, log entry 119). -/
def State.narrowOn (s : State) (mtype : Nat) (pa n : Nat) : List (Nat × Nat) :=
  if mtype = 2 then [] else ((linesOf pa n).flatMap fun l => (s.line l).narrow).eraseDups

/-- A hash that fails at the responder (R380): counted and reported; in ENFORCE the lines are poisoned and nothing is written. -/
def State.hashFails (s : State) (hp die pa n : Nat) : Bool × State :=
  let s := (s.countViol hp 5).reportHash (lineOf pa)
  if s.scribeObserves hp (farScribe die) then (false, s) else (true, poisonAll s (linesOf pa n))

/-- A read (R376). -/
def State.serveRead (s : State) (hp die : Nat) (m : Msg) (pa keyid : Nat) : State :=
  let pa := (s.readRoute (farSource die) pa).addr pa
  let n := m.len.toNat
  let _ := keyid
  if s.poisoned pa n then (s.bumpErr 6).sendError hp m 6
  else
    let bs := memReadN s.mem.bytes pa n
    let s := s.noteRead (farWriter die) pa
    s.sendOrDrop hp (s.reply hp m 8 0 bs (s.line (lineOf pa)).interval) (some m)

def State.serveWrite (s : State) (hp die : Nat) (m : Msg) (pa : Nat) : State :=
  let pa := (s.writeRoute (farSource die) pa).addr pa
  let (bad, s) := if msgHashOk m then (false, s) else s.hashFails hp die pa m.data.length
  let s := if bad then s else s.commitAll (farWriter die) pa m.data
  s.sendCached hp (s.reply hp m 9 (bitVal bad) [] (s.line (lineOf pa)).interval)

def State.serveAtomic (s : State) (hp die : Nat) (m : Msg) (va pa keyid : Nat) : State :=
  let pa := (s.writeRoute (farSource die) pa).addr pa
  let t := Ty.ofCode m.ty
  let n := tyBytes t
  if s.poisoned pa n then (s.bumpErr 6).sendError hp m 6
  else
    let (bad, s) := if msgHashOk m then (false, s) else s.hashFails hp die pa n
    let e : Elem := { lane := 0, va := BitVec.ofNat 64 va, pa := pa, key := keyid, size := n, data := m.data.take n, cmp := m.data.drop n }
    let (old, s) := if bad then (memReadN s.mem.bytes pa n, s) else s.atomElem (farWriter die) m.aopst.toNat t .none e
    s.sendCached hp (s.reply hp m 10 (bitVal bad) old (s.line (lineOf pa)).interval)

/-- An earlier numbered request of the same source to the bytes of a read waits (R390). -/
def State.readBehind (s : State) (m : Msg) : Bool :=
  s.fab.held.any fun h => h.m.num && h.m.speer == m.speer && h.m.sinc == m.sinc && h.m.dpeer == m.dpeer && h.m.rctx == m.rctx && h.m.win == m.win
    && overlap h.m.offset.toNat (reqBytes h.m) m.offset.toNat m.len.toNat

/-- A request whose turn has come. True when it has been answered. -/
def State.serve (s : State) (hp : Nat) (m : Msg) : Bool × State :=
  let die := s.dieOf hp m.speer.toNat
  match m.mtype.toNat with
  | 4 => (true, s.sendCached hp (s.reply hp m 11 0 [] 0))
  | 5 => (true, s)
  | k =>
    match s.serveCheck hp m with
    | (.status n, s) => (true, s.sendError hp m n)
    | (.at_ va pa keyid, s) =>
      let hs := s.narrowOn k pa (reqBytes m)
      if s.linesBusy die k pa (reqBytes m) then (false, s)
      else if !hs.isEmpty then (false, s.askPublish hs)
      else (true, if k = 1 then s.serveRead hp die m pa keyid else if k = 2 then s.serveWrite hp die m pa else s.serveAtomic hp die m va pa keyid)

/-- A read: at once, but behind what it overlaps. -/
def State.takeRead (s : State) (hp : Nat) (m : Msg) : State :=
  if s.readBehind m then s.holdReq hp m
  else
    match s.serve hp m with
    | (true, s) => s.unhold m
    | (false, s) => s.holdReq hp m

/-- A numbered message: in sequence; one that has performed already is answered from the cache. -/
def State.takeNumbered (s : State) (hp : Nat) (m : Msg) : State :=
  let key := msgPair m
  let next := smGet 1 key s.fab.rxSeq
  match s.cachedFor m with
  | some r => if m.mtype = 5 then s else s.sendOrDrop hp r none
  | none =>
    if m.mseq.toNat = next then
      if s.cacheFull (s.dieOf hp m.speer.toNat) && m.mtype != 5 then s.holdReq hp m
      else
        match s.serve hp m with
        | (true, s) => { s.unhold m with fab := { (s.unhold m).fab with rxSeq := smSet key ((next + 1) % 2 ^ 32) s.fab.rxSeq } }
        | (false, s) => s.holdReq hp m
    else if (m.mseq - BitVec.ofNat 32 next).toNat < 2 ^ 31 then s.holdReq hp m
    else s.staleDrop hp m.speer.toNat

/-- A request arrives (R372, R399). A partition with EN = 0 accepts nothing. -/
def State.takeRequest (s : State) (m : Msg) : State :=
  match s.hpOfPeer m.dpeer.toNat with
  | none => s
  | some hp =>
    if s.replaced hp m then s.staleDrop hp m.speer.toNat
    else
      let s := s.noteInc hp m
      if m.dinc.toNat ≠ (s.hpFab hp).inc then (if m.mtype = 5 then s else s.sendError hp m 8)
      else if m.num then s.takeNumbered hp m
      else s.takeRead hp m

/-- RDREQ (R372): A responder checks and serves a remote read. -/
def execEvRdreq (m : Msg) (s : State) : Host.Outcome State Fault Refusal := .next (s.takeRequest { m with mtype := 1, num := false })

/-- WRREQ (R372): A responder performs a numbered remote write in sequence. -/
def execEvWrreq (m : Msg) (s : State) : Host.Outcome State Fault Refusal := .next (s.takeRequest { m with mtype := 2, num := true })

/-- ATREQ (R376): A responder performs a numbered remote atomic. -/
def execEvAtreq (m : Msg) (s : State) : Host.Outcome State Fault Refusal := .next (s.takeRequest { m with mtype := 3, num := true })

/-- FNREQ (R376): A responder acknowledges a fence marker after earlier messages. -/
def execEvFnreq (m : Msg) (s : State) : Host.Outcome State Fault Refusal := .next (s.takeRequest { m with mtype := 4, num := true })

/-- SKIP (R390): Fills a sequence number and performs nothing. -/
def execEvSkip (m : Msg) (s : State) : Host.Outcome State Fault Refusal := .next (s.takeRequest { m with mtype := 5, num := true })

/-! ## Answers (R376 to R380) -/

/-- The outstanding request that an answer names. -/
def State.reqOf (s : State) (hp tag : Nat) : Option Req := s.fab.reqs.find? fun r => r.hp == hp && r.tag == tag
def State.dropReq (s : State) (r : Req) : State := { s with fab := { s.fab with reqs := s.fab.reqs.filter fun q => q.tag != r.tag } }

/-- The line of a peer that a request names, apart from every physical line. -/
def Req.line (r : Req) : Nat := lineOf (remotePa (r.m.dpeer.toNat + 2 ^ 16 * r.m.win.toNat) r.m.offset.toNat)

/-- The operations of a request are tainted (07 R234), or recorded where the checker observes. True where it lets the answer pass. -/
def State.taintReq (s : State) (viol : Nat) (r : Req) : Bool × State :=
  match r.parts.head?.bind fun p => s.op? p.op with
  | none => (true, s)
  | some o =>
    let chk := l2Scribe (dieOfCluster (s.clusterOf o.ref)) r.line
    let s := s.countViol r.hp viol
    let s := if viol = 5 then s.bumpErr 14 else s
    if s.scribeObserves r.hp chk then (true, s.observe r.hp r.ctx (s.affectedBy o) viol chk (some o.offender))
    else (false, failAll viol chk s (r.parts.map (·.op)).eraseDups)

/-- An answer with data or a status completes its request. -/
def State.finishReq (s : State) (r : Req) (status : Nat) (data : Option (List Byte)) : State := State.answerParts status data (s.dropReq r) r.parts

/-- An answer that fails a check completes without data, and its operations stay unacknowledged (R378, R380; DESIGN CHOICE, log entry
120). -/
def State.failReq (s : State) (viol : Nat) (r : Req) (data : List Byte) : State :=
  let (pass, s) := s.taintReq viol r
  s.finishReq r 0 (if pass then some data else none)

/-- The die of a request, as the unit whose L2 Scribe checks its answer. -/
def State.reqDie (s : State) (r : Req) : Nat :=
  match r.parts.head?.bind fun p => s.op? p.op with
  | some o => dieOfCluster (s.clusterOf o.ref)
  | none => 0

/-- The violation of a remote atomic's answer, by its hash and interval (07 R236). -/
def State.atomicViolation (s : State) (r : Req) (m : Msg) : Option Nat :=
  if m.aopst ≠ 0 ∨ !(msgHashOk m) then some 5
  else match smFind (knownKey r.line (s.reqDie r)) s.mem.known with
    | some k => if intervalBefore m.interval k then some 6 else none
    | none => none

/-- An answer arrives: of another incarnation, or without its request, it is dropped and counted. -/
def State.takeAnswer (s : State) (m : Msg) (mtype : Nat) (f : State → Req → State) : State :=
  match s.hpOfPeer m.dpeer.toNat with
  | none => s
  | some hp =>
    if m.dinc.toNat ≠ (s.hpFab hp).inc then s.staleDrop hp m.speer.toNat
    else
      match s.reqOf hp m.tag.toNat with
      | none => s.staleDrop hp m.speer.toNat
      | some r => if mtype = 0 ∨ r.m.mtype.toNat = mtype then f s r else s.staleDrop hp m.speer.toNat

/-- RDRSP (R376): A read response writes the lane's destination. The L2 Scribe checks its hash. -/
def execEvRdrsp (m : Msg) (s : State) : Host.Outcome State Fault Refusal :=
  .next (s.takeAnswer m 1 fun s r => if msgHashOk m then s.finishReq r 0 (some m.data) else s.failReq 5 r m.data)

/-- WRACK (R380): A write acknowledgement completes a remote store, or reports its failed hash. -/
def execEvWrack (m : Msg) (s : State) : Host.Outcome State Fault Refusal :=
  .next (s.takeAnswer m 2 fun s r => if m.aopst = 0 then s.finishReq r 0 none else s.failReq 5 r [])

/-- ATRSP (R376): An atomic response returns the old value. The L2 Scribe checks its interval and hash (07 R236). -/
def execEvAtrsp (m : Msg) (s : State) : Host.Outcome State Fault Refusal :=
  .next (s.takeAnswer m 3 fun s r =>
    match s.atomicViolation r m with
    | some v => s.failReq v r m.data
    | none => { s with mem := { s.mem with known := smSet (knownKey r.line (s.reqDie r)) m.interval s.mem.known } }.finishReq r 0 (some m.data))

/-- FNACK (R379): A fence acknowledgement completes an RFNC marker. One that carries another number is a SEQ violation. -/
def execEvFnack (m : Msg) (s : State) : Host.Outcome State Fault Refusal :=
  .next (s.takeAnswer m 4 fun s r => if m.mseq = r.m.mseq then s.finishReq r 0 none else s.failReq 8 r [])

/-- The first DEAD of a peer and incarnation is recorded (R398). -/
def State.noteDead (s : State) (hp : Nat) (m : Msg) : State :=
  let key := (hp, m.dpeer.toNat, m.dinc.toNat)
  if s.fab.isolated.contains key then s
  else
    let g := s.countPort hp m.dpeer.toNat
    ({ s with fab := { s.fab with isolated := s.fab.isolated ++ [key] } }).fabRecord hp
      (packFields [(0x23, 0), (g % 8, 8), (g / 8, 12), (3, 14), (m.dpeer.toNat, 160), (m.dinc.toNat, 170), (s.ns, 448)])

/-- REQUEST_TIMEOUT (R387): A request with no response within REQTO completes TIMEOUT; a numbered one is followed by a
SKIP with its number. -/
def execEvRequestTimeout (die tag : Nat) (s : State) : Host.Outcome State Fault Refusal :=
  match s.fab.reqs.find? fun r => r.die == die && r.tag == tag with
  | none => .next s
  | some r =>
    let s := s.reachNs (r.sent + (s.hpFab r.hp).timeout)
    let skip : Msg := { r.m with mtype := 5, len := 0, tag := 0, offset := 0, ty := 0, aopst := 0, wkey := 0, win := 0, hash := 0, data := [] }
    let s := if r.m.num then s.sendOrDrop r.hp skip none else s
    .next (s.finishReq r 9 none)

/-- RESPONSE_CACHE_EXPIRY (R396): A cached response expires after 2 × REQTO. -/
def execEvResponseCacheExpiry (die speer sinc tag : Nat) (s : State) : Host.Outcome State Fault Refusal :=
  let hit := fun (c : CachedRsp) => c.die == die && c.m.dpeer.toNat == speer && c.m.dinc.toNat == sinc && c.m.tag.toNat == tag
  match s.fab.cache.find? hit with
  | none => .next s
  | some c =>
    let s := s.reachNs c.until_
    .next { s with fab := { s.fab with cache := s.fab.cache.filter fun c => !(hit c && decide (c.until_ ≤ s.ns)) } }

/-- LIMOP_SEQ_GAP_TIMEOUT (R390): A Limop gap open for 2 × REQTO is a SEQ violation of the source: what waits behind it is
discarded. -/
def execEvLimopSeqGapTimeout (hp speer sinc : Nat) (s : State) : Host.Outcome State Fault Refusal :=
  let of := fun (h : HeldReq) => h.hp == hp && h.m.speer.toNat == speer && h.m.sinc.toNat == sinc && h.m.num
  match s.fab.held.find? of with
  | none => .next s
  | some h =>
    let chk := farScribe (s.dieOf hp speer)
    let s := (s.reachNs (h.since + 2 * (s.hpFab hp).timeout)).countViol hp 8
    if s.scribeObserves hp chk then .next s
    else .next { s with fab := { s.fab with held := s.fab.held.filter fun h => !(of h) } }

end Sys2Proof.Machine
end

