-- ==== Sys2Proof/Machine/LinkEvents.lean ====
section
/-! DEFINITION. Steps of the Limop links: the partition's and the contexts' fabric blocks, flits, replay, wavelengths and
ports (12 R367 to R369, R383 to R396, 11 R356, 14 R436). -/

namespace Sys2Proof.Machine

/-! ## Blocks (R367 to R369) -/

/-- The route table as the far dies read it: 1,024 entries of 4 bytes. -/
def State.routesAt (s : State) (base : Nat) : SMap Nat :=
  (List.range 1024).foldl (fun m d => smPut 0 d (natOfBytes (memReadN s.mem.bytes (base + 4 * d) 4)) m) []

def State.loadRoutes (s : State) (hp : Nat) : State :=
  let x := s.hpFab hp
  s.setHpFab hp { x with routes := if (s.region hp x.rtbase).backed then s.routesAt x.rtbase else [] }

/-- A write of a partition's first register: PEER and INC take effect only while EN = 0; RTLOAD re-reads the routes. -/
def State.writeFabric (s : State) (hp v : Nat) : State :=
  let x := s.hpFab hp
  let x' := { (if x.en then x else { x with peer := bitsOf v 9 0, inc := bitsOf v 23 16 }) with en := bitOf v 24 }
  let s := s.setHpFab hp x'
  if (bitOf v 24 && !x.en) || bitOf v 25 then s.loadRoutes hp else s

/-- FABRIC_EN_WRITE (R367): Enabling Limop reads the route table and starts sending and accepting. -/
def execEvFabricEnWrite (hp : Nat) (v : Quad) (s : State) : Host.Outcome State Fault Refusal := .next (s.writeFabric hp v.toNat)

/-- RTLOAD (R368): The far dies re-read the route table. -/
def execEvRtload (hp : Nat) (s : State) : Host.Outcome State Fault Refusal := .next (s.loadRoutes hp)

/-- FABRIC_INVALIDATE (R369): Invalidates cached peer, import and export entries. -/
def execEvFabricInvalidate (hp ctx : Nat) (v : Quad) (s : State) : Host.Outcome State Fault Refusal :=
  let n := v.toNat
  let c := ccbKey hp ctx
  if !bitOf n 17 then .next s
  else if bitOf n 16 then
    .next { s with fab := { s.fab with peers := s.fab.peers.filter fun p => p.1 / 1024 != c, imports := s.fab.imports.filter fun p => p.1 / 256 != c,
                                       exports := s.fab.exports.filter fun p => p.1 / 256 != c } }
  else .next { s with fab := { s.fab with peers := smDel (peerKey hp ctx (bitsOf n 9 0)) s.fab.peers } }

/-! ## Messages out of a port that is lost (R394, R396) -/

/-- A message that a port has not delivered for certain is sent again: a request while it is outstanding, an answer from the
response cache, a read by reading again, any other as it was. -/
def State.resendMsg (s : State) (x : SentMsg) : State :=
  match s.hpOfPeer x.m.speer.toNat with
  | none => s
  | some hp =>
    let k := x.m.mtype.toNat
    if 1 ≤ k ∧ k ≤ 4 then
      match s.reqOf hp x.m.tag.toNat with
      | some r =>
        if r.m != x.m then s
        else match s.sendMsg hp x.m none with
          | some s => s
          | none => s.finishReq r 10 none
      | none => s
    else if k = 8 then (match x.req with | some q => { s with fab := { s.fab with inbox := s.fab.inbox ++ [q] } } | none => s)
    else if 9 ≤ k ∧ k ≤ 11 then (if s.fab.cache.any fun c => c.m == x.m then s.sendOrDrop hp x.m none else s)
    else s.sendOrDrop hp x.m x.req

def State.resendAll : State → List SentMsg → State
  | s, [] => s
  | s, x :: xs => State.resendAll (s.resendMsg x) xs

/-! ## The send window (R386, R396) -/

/-- a is at or before b among flit numbers. -/
def seqUpTo (a b : Nat) : Bool := decide ((b + 4096 - a) % 4096 < 2048)

/-- A FACK retires flits. -/
def Port.retire (p : Port) (fack : Nat) : Port := { p with window := p.window.filter fun w => !(seqUpTo w.flit.fseq.toNat fack) }

/-- Everything in the window is sent again, in order: the counters, and the messages that lost flits carried. -/
def Port.replayed (p : Port) (now : Nat) : Port × List SentMsg :=
  let n := BitVec.ofNat 64 p.window.length
  let lost := (p.window.filter (·.lost)).flatMap (·.msgs)
  ({ p with window := p.window.map fun w => if w.lost then { w with flit := { w.flit with hole := true }, msgs := [] } else w
            flits := p.flits + n, replay := p.replay + n, lastSent := now }, lost.eraseDups)

def State.replayPort (s : State) (g fack : Nat) : State :=
  let (p, lost) := ((s.lport g).retire fack).replayed s.ns
  State.resendAll ((s.setPort g p).pumpPort g) lost

/-- NAK_RECEIVE (R386): A sender resends from FACK + 1 on a NAK. -/
def execEvNakReceive (port fack : Nat) (s : State) : Host.Outcome State Fault Refusal :=
  .next (if (s.lport port).state = 2 then s.replayPort port fack else s)

/-- SEND_WINDOW_HOLE (R396): An uncorrectable send-window flit becomes a hole and its messages are re-sent, once it is needed. -/
def execEvSendWindowHole (port fseq : Nat) (s : State) : Host.Outcome State Fault Refusal :=
  let p := s.lport port
  if p.window.any fun w => w.flit.fseq.toNat == fseq && !w.lost then
    let p := { p with holes := p.holes + 1, window := p.window.map fun w => if w.flit.fseq.toNat = fseq then { w with lost := true } else w }
    .next ((s.setPort port p).linkEvent port { rtype := 0x24, dir := 0, cause := 3, old := p.txmap, new := p.txmap, replayed := 0, firstseq := fseq })
  else .next s

/-! ## Wavelengths (R391 to R393) -/

/-- A port goes down (R394): what it held is sent on other ports. -/
def State.downPort (s : State) (g : Nat) (cause : Nat) : State :=
  let p := s.lport g
  let out := (p.window.flatMap (·.msgs) ++ p.partMsgs ++ p.restMsg ++ p.queue).eraseDups
  let s := s.setPort g { p with state := 0, txmap := 0, rxmap := 0, peerMap := 0, queue := [], part := [], first := 15, partMsgs := [], rest := [], restMsg := [],
                                window := [], rxBytes := [], nak := 0, peerStop := 0 }
  State.resendAll (s.linkEvent g { rtype := 0x21, dir := 0, cause := cause, old := p.txmap, new := 0, replayed := 0, firstseq := 0 }) out

/-- The transmit side takes a new map: a NULL flit under it, then every flit after FACK again. -/
def State.restripe (s : State) (g fack cause : Nat) (map : Half) : State :=
  let p := (s.lport g).retire fack
  let e : LinkEvent := { rtype := 0x20, dir := 0, cause := cause, old := p.txmap, new := map, replayed := p.window.length,
                         firstseq := match p.window with | w :: _ => w.flit.fseq.toNat | [] => 0 }
  ((s.setPort g { p with txmap := map }).linkEvent g e).replayPort g fack

/-- ACTMAP_RECEIVE (R392): A sender adopts a new wavelength map and resends after FACK. -/
def execEvActmapReceive (port fack : Nat) (map : Half) (s : State) : Host.Outcome State Fault Refusal :=
  let p := s.lport port
  let new := map &&& p.txen
  if p.state ≠ 2 then .next s
  else
    let s := s.setPort port { p with peerMap := map }
    if new = p.txmap then .next (s.setPort port ({ p with peerMap := map }.retire fack))
    else if waveCount new < 4 then .next (s.downPort port 0)
    else .next (s.restripe port fack (if waveCount new > waveCount p.txmap then 2 else 0) new)

/-- The receive side takes a new map; a NAK that was held back goes with it. -/
def State.takeRxmap (s : State) (g cause : Nat) (map : Half) : State :=
  let p := s.lport g
  let q := { p with rxmap := map, nak := if p.nak = 1 then 2 else p.nak, nakAt := s.ns, lastSent := s.ns }
  (s.setPort g q).linkEvent g { rtype := 0x20, dir := 1, cause := cause, old := p.rxmap, new := map, replayed := 0, firstseq := 0 }

/-- LOSS_OF_LIGHT (R391): A wavelength below threshold for 30 ns is found lost and a restripe begins. -/
def execEvLossOfLight (port wave : Nat) (cause : LinkCause) (s : State) : Host.Outcome State Fault Refusal :=
  let p := s.lport port
  let map := p.rxmap &&& ~~~(1#16 <<< wave)
  if p.state ≠ 2 ∨ map = p.rxmap then .next s
  else if waveCount map < 4 then .next (s.downPort port (linkCause cause))
  else .next (s.takeRxmap port (linkCause cause) map)

/-- WAVELENGTH_RECOVERY (R392): A wavelength is re-added after 1 ms of clean reception. -/
def execEvWavelengthRecovery (port wave : Nat) (s : State) : Host.Outcome State Fault Refusal :=
  let p := s.lport port
  let map := p.rxmap ||| (1#16 <<< wave)
  .next (if p.state ≠ 2 ∨ map = p.rxmap then s else s.takeRxmap port 2 map)

/-- PORT_DOWN (R394): A port goes down and its outstanding messages are re-sent on other ports. -/
def execEvPortDown (port : Nat) (cause : LinkCause) (s : State) : Host.Outcome State Fault Refusal :=
  .next (if (s.lport port).state = 0 then s else s.downPort port (linkCause cause))

/-- PORT_UP (R395): A port completes training, records an event and signals a bandwidth change. Both directions begin
their flit numbers anew (log entry 74). -/
def execEvPortUp (port : Nat) (s : State) : Host.Outcome State Fault Refusal :=
  let p := s.lport port
  if p.state = 2 then .next s
  else
    let q := { p with state := 2, txmap := p.txen, rxmap := 0xFFFF, peerMap := 0xFFFF, nextSeq := 0, good := 4095, rxBytes := [], nak := 0, peerStop := 0,
                      window := [], part := [], first := 15, partMsgs := [], rest := [], restMsg := [], lastSent := s.ns, lastUnit := s.ns }
    .next (((s.setPort port q).linkEvent port { rtype := 0x22, dir := 0, cause := 3, old := 0, new := p.txen, replayed := 0, firstseq := 0 }).pumpPort port)

/-- TXEN_WRITE (R436): Sets a Limop port's transmit wavelengths, restriping the link. -/
def execEvTxenWrite (port : Nat) (v : Quad) (s : State) : Host.Outcome State Fault Refusal :=
  let p := s.lport port
  let en : Half := v.setWidth 16
  if waveCount en < 4 then .next s
  else
    let s := s.setPort port { p with txen := en }
    let new := en &&& p.peerMap
    if p.state ≠ 2 ∨ new = p.txmap then .next s
    else if waveCount new < 4 then .next (s.downPort port 3)
    else
      let fack := match p.window with | w :: _ => (w.flit.fseq.toNat + 4095) % 4096 | [] => (p.nextSeq + 4095) % 4096
      .next (s.restripe port fack 3 new)

/-- BANDWIDTH_CHANGE (R356): Reassigns unstarted collectives of the port's partition to the half with more active wavelengths. -/
def execEvBandwidthChange (die port : Nat) (s : State) : Host.Outcome State Fault Refusal := .next (s.reassign (s.portOwner (8 * die + port)))

/-! ## Flits received (R386, R393) -/

/-- The whole messages at the front of received bytes, at a unit boundary, and what is left. A header of zeros is the
padding that fills a flit; the port drops a reserved type and counts it. -/
def splitMsgs : Nat → List Byte → List Msg × Nat × List Byte
  | 0, bs => ([], 0, bs)
  | k + 1, bs =>
    if bs.length < 48 then
      (if bs.all (· == 0) then ([], 0, []) else ([], 0, bs))
    else
      let n := natOfBytes (bs.take 48)
      if natOfBytes (bs.take 16) = 0 then ([], 0, [])
      else
        let len := msgDataLen (n % 16) (bitsOf n 79 64)
        let total := 48 + 16 * ((len + 15) / 16)
        if bs.length < total then ([], 0, bs)
        else
          let (ms, bad, rest) := splitMsgs k (bs.drop total)
          if n % 16 = 0 ∨ n % 16 = 6 ∨ n % 16 = 7 then (ms, bad + 1, rest) else (msgOf n ((bs.drop 48).take len) :: ms, bad, rest)

/-- A good flit in order. -/
def State.acceptFlit (s : State) (g : Nat) (f : Flit) : State :=
  let p := s.lport g
  let p := { p with good := f.fseq.toNat, nak := 0 }
  if f.hole then s.setPort g p
  else
    let (ms, bad, rest) := splitMsgs 16 (p.rxBytes ++ f.space)
    let s := s.setPort g { p with rxBytes := rest, crcerr := p.crcerr + BitVec.ofNat 64 bad }
    { (if bad = 0 then s else s.bumpErr 21 bad) with fab := { s.fab with inbox := s.fab.inbox ++ ms } }

/-- What every good header says: FACK, STOP, a NAK, a map. -/
def State.takeHeader (s : State) (g : Nat) (f : Flit) : State :=
  let p := (s.lport g).retire f.fack.toNat
  let s := s.setPort g { p with peerStop := f.stop }
  let new := f.actmap &&& p.txen
  let s :=
    if f.mapv && f.actmap != p.peerMap then
      let s := s.setPort g { s.lport g with peerMap := f.actmap }
      if new = p.txmap then s
      else if waveCount new < 4 then s.downPort g 0
      else s.restripe g f.fack.toNat (if waveCount new > waveCount p.txmap then 2 else 0) new
    else if f.nak then s.replayPort g f.fack.toNat
    else s
  s.pumpPort g

/-- FLIT_RECEIVE (R386): A port accepts a flit in order with a good CRC, or discards it and NAKs: a bad CRC after the hold
of R393, a gap at once, where no NAK is held or sent already. A flit that has been accepted before is discarded. -/
def execEvFlitReceive (port : Nat) (f : Flit) (s : State) : Host.Outcome State Fault Refusal :=
  let p := s.lport port
  if p.state ≠ 2 then .next s
  else if !(flitOk f) then
    .next ((s.setPort port { p with crcerr := p.crcerr + 1, nak := if p.nak = 0 then 1 else p.nak, nakAt := if p.nak = 0 then s.ns else p.nakAt }).bumpErr 21)
  else
    let s := s.takeHeader port f
    let p := s.lport port
    if f.null ∨ p.state ≠ 2 then .next s
    else if f.fseq.toNat = (p.good + 1) % 4096 then .next (s.acceptFlit port f)
    else if seqUpTo f.fseq.toNat p.good then .next s
    else if p.nak = 0 then .next (s.setPort port { p with nak := 2, nakAt := s.ns, lastSent := s.ns })
    else .next s

/-- NAK_REPEAT (R386): The NAK is repeated every 64 ns until the missing flit arrives. -/
def execEvNakRepeat (port : Nat) (s : State) : Host.Outcome State Fault Refusal :=
  let p := s.lport port
  if p.nak ≠ 2 then .next s
  else
    let s := s.reachNs (p.nakAt + 64)
    .next (s.setPort port { p with nakAt := s.ns, lastSent := s.ns })

/-- NAK_HOLD_EXPIRY (R393): A held NAK is sent alone after 40 ns. -/
def execEvNakHoldExpiry (port : Nat) (s : State) : Host.Outcome State Fault Refusal :=
  let p := s.lport port
  if p.nak ≠ 1 then .next s
  else
    let s := s.reachNs (p.nakAt + 40)
    .next (s.setPort port { p with nak := 2, nakAt := s.ns, lastSent := s.ns })

/-- FLIT_FLUSH (R383): A partly filled flit is padded and sent after 64 ns without a new unit. -/
def execEvFlitFlush (port : Nat) (s : State) : Host.Outcome State Fault Refusal :=
  let p := s.lport port
  if p.part.isEmpty ∨ p.state ≠ 2 ∨ windowSize ≤ p.window.length then .next s
  else
    let s := s.reachNs (p.lastUnit + 64)
    .next ((s.setPort port { p with part := p.part ++ zeroBytes (240 - p.part.length) }).pumpPort port)

/-- NULL_FLIT (R383): A NULL flit is sent when 32 ns pass without a flit. -/
def execEvNullFlit (port : Nat) (s : State) : Host.Outcome State Fault Refusal :=
  let p := s.lport port
  if p.state ≠ 2 then .next s
  else
    let s := s.reachNs (p.lastSent + 32)
    .next (s.setPort port { p with lastSent := s.ns })

end Sys2Proof.Machine
end

