-- ==== Sys2Proof/Machine/Coll.lean ====
section
/-! DEFINITION. Collectives: member lists, layout maps, bodies, messages, the handshake and the data phase of a member (13
R400 to R410, R414 to R420). -/

namespace Sys2Proof.Machine

/-! ## Bodies (R408) -/

def CollOp.f (o : CollOp) (hi lo : Nat) : Nat := bitsOf o.rec_ hi lo
def CollOp.memb (o : CollOp) : Nat := if o.dove then o.f 255 192 else o.f 319 256
def CollOp.src (o : CollOp) : Nat := if o.dove then o.f 319 256 else o.f 191 128
def CollOp.dst (o : CollOp) : Nat := if o.dove then o.f 383 320 else o.f 255 192
def CollOp.mapVa (o : CollOp) : Nat := o.f 191 128
def CollOp.statrec (o : CollOp) : Nat := if o.dove then o.f 447 384 else o.f 383 320
def CollOp.rank (o : CollOp) : Nat := o.f 479 464
def CollOp.ctag (o : CollOp) : Nat := o.f 511 480
def CollOp.tlid (o : CollOp) : Nat := o.f 63 32
def CollOp.tlval (o : CollOp) : Nat := o.f 127 64
def CollOp.count (o : CollOp) : Nat := o.f 415 384
def CollOp.root (o : CollOp) : Nat := o.f 425 416
def CollOp.op (o : CollOp) : Nat := o.f 427 426
def CollOp.ety (o : CollOp) : Ty := Ty.ofCode (BitVec.ofNat 4 (o.f 431 428))
def CollOp.rop (o : CollOp) : Nat := o.f 435 432
def CollOp.insw (o : CollOp) : Bool := bitOf o.rec_ 436
def CollOp.es (o : CollOp) : Nat := if o.dove then 2 ^ bitsOf o.map 2 0 else tyBytes o.ety
def CollOp.n (o : CollOp) : Nat := o.members.length

/-- The reduction is made in the switches, as far as this member knows (R418). -/
def CollOp.inSwitch (o : CollOp) : Bool := !o.dove && o.insw && !o.nosw

/-- A new operation of a record or a packet. -/
def newColl (oid half hp ctx : Nat) (eid : Option Nat) (ref : SliceRef) (dove : Bool) (rec_ : Nat) (tag : Bool) : CollOp :=
  { oid := oid, half := half, hp := hp, ctx := ctx, eid := eid, ref := ref, token := 0, nt := false, pc := 0, inst := 0, tag := tag, dove := dove,
    rec_ := rec_, stage := 0, posted := 0, fab := false, members := [], incs := [], timeout := 0, map := 0, hash := 0, csets := [], dones := [], got := [],
    segs := [], early := [], toSend := [], sent := false, nosw := false, commit := false, status := 0, missing := [], poison := false, waits := [] }

def State.coll? (s : State) (oid : Nat) : Option CollOp := s.coll.ops.find? fun o => o.oid == oid
def State.setColl (s : State) (o : CollOp) : State :=
  { s with coll := { s.coll with ops := s.coll.ops.map fun x => if x.oid = o.oid then o else x } }
def State.addColl (s : State) (o : CollOp) : State := { s.fresh.2 with coll := { s.coll with ops := s.coll.ops ++ [o] } }
def State.dropColl (s : State) (oid : Nat) : State := { s with coll := { s.coll with ops := s.coll.ops.filter fun x => x.oid != oid } }

/-! ## Its accesses (R420) -/

/-- The number by which a half's accesses are known to a migration (06 R208). -/
def collSource (half : Nat) : Nat := 6000 + half

def State.collPage (s : State) (o : CollOp) (acc : Access) (va n : Nat) : Except CopyStop Place × State :=
  match s.xlate o.hp o.ctx va acc with
  | (.ok e pa, s) =>
    let rt := if isWrite acc then s.writeRoute (collSource o.half) pa else s.readRoute (collSource o.half) pa
    let pa := rt.addr pa
    if rt.isHeld || s.rangeHeld pa n then (.error .held, s)
    else if s.reachable o.hp e.keyid pa then (.ok (.mem pa n e.keyid e.fmt e.geom), s)
    else (.error (.error 0x15 va), (s.countKey e.keyid).bumpErr 7)
  | (.absent level mig, s) =>
    let (fid, s) := s.engineFault o.hp o.ctx 3 o.half level mig va acc
    (.error (.absent fid va), s)
  | (_, s) => (.error (.error 0x15 va), s)

def State.collPlaces (o : CollOp) (acc : Access) : Nat → State → Nat → Nat → Except CopyStop (List Place) × State
  | 0, s, _, _ => (.ok [], s)
  | k + 1, s, va, n =>
    if n = 0 then (.ok [], s)
    else
      let m := min n (4096 - va % 4096)
      match s.collPage o acc (va % 2 ^ 64) m with
      | (.error e, s) => (.error e, s)
      | (.ok p, s) =>
        match State.collPlaces o acc k s (va + m) (n - m) with
        | (.error e, s) => (.error e, s)
        | (.ok ps, s) => (.ok (p :: ps), s)

/-- Bytes of a range, and whether they are poisoned. -/
def State.collRead (s : State) (o : CollOp) (va n : Nat) : Except CopyStop (List Byte × Bool) × State :=
  match State.collPlaces o .read (n / 4096 + 2) s va n with
  | (.error e, s) => (.error e, s)
  | (.ok ps, s) => (.ok (s.readPlaces 0 ps), s)

/-- Bytes to be sent: over Limop only after the deferred windows of their lines have closed (07 R235). -/
def State.collSend (s : State) (o : CollOp) (va n : Nat) : Except CopyStop (List Byte × Bool) × State :=
  match State.collPlaces o .read (n / 4096 + 2) s va n with
  | (.error e, s) => (.error e, s)
  | (.ok ps, s) => (if o.fab && !(s.openWindows (some (ps.flatMap Place.lines))).isEmpty then .error .held else .ok (s.readPlaces 0 ps), s)

/-- A write, once every page of the range can be reached. -/
def State.collWrite (s : State) (o : CollOp) (va : Nat) (bs : List Byte) (bad : Bool) : Except CopyStop State × State :=
  match State.collPlaces o .write (bs.length / 4096 + 2) s va bs.length with
  | (.error e, s) => (.error e, s)
  | (.ok ps, s) => (.ok (State.writePlaces .none o.hp 0 bad s bs ps), s)

/-! ## Maps (R403 to R405) -/

def mapNdim (m : Nat) : Nat := bitsOf m 10 8
def mapSpd (m : Nat) : Nat := bitsOf m 18 16
def mapDpd (m : Nat) : Nat := bitsOf m 22 20
def mapPerm (m j : Nat) : Nat := bitsOf m (26 + 3 * j) (24 + 3 * j)
def mapExt (m d : Nat) : Nat := bitsOf m (95 + 32 * d) (64 + 32 * d)
def mapStr (m at_ d : Nat) : Int := if d = 0 then 2 ^ bitsOf m 2 0 else intOf64 (bitsOf m (at_ + 63 + 64 * d) (at_ + 64 * d))
def mapSs (m d : Nat) : Int := mapStr m 192 d
def mapDs (m j : Nat) : Int := mapStr m 448 j

/-- Own and Loc of R404. -/
def ownOf (cyclic : Bool) (x ext p : Nat) : Nat := if cyclic then x % p else x / (ext / p)
def locOf (cyclic : Bool) (x ext p : Nat) : Nat := if cyclic then x / p else x % (ext / p)
/-- The index that member q holds at place t. -/
def globalOf (cyclic : Bool) (t ext p q : Nat) : Nat := if cyclic then t * p + q else q * (ext / p) + t

/-- Local extents of a member: of the source, and of the destination in its own order. -/
def srcExts (m p : Nat) : List Nat := (List.range (mapNdim m)).map fun d => if d = mapSpd m then mapExt m d / p else mapExt m d
def dstExts (m p : Nat) : List Nat :=
  (List.range (mapNdim m)).map fun j => let d := mapPerm m j; if d = mapDpd m then mapExt m d / p else mapExt m d

/-- The bounding interval of a side, as in 09 R296. -/
def sideBounds (base es : Nat) (exts : List Nat) (strides : List Int) : Int × Int :=
  TileDesc.bounds { es := es, ext := exts, sstr := strides.drop 1, dstr := [] } base (strides.drop 1)

def mapMalformed (m p src dst : Nat) : Bool :=
  let n := mapNdim m
  let es : Nat := 2 ^ bitsOf m 2 0
  let dims := List.range n
  let perms := dims.map (mapPerm m)
  let exts := dims.map (mapExt m)
  bitsOf m 7 3 != 0 || bitsOf m 15 11 != 0 || bitsOf m 63 39 != 0 || bitsOf m 255 224 != 0 || m / 2 ^ 768 != 0
    || decide (bitsOf m 2 0 > 4 ∨ n = 0 ∨ n > 5 ∨ mapSpd m ≥ n ∨ mapDpd m ≥ n)
    || (List.range 5).any (fun j => decide (n ≤ j) && (mapPerm m j != 0 || mapExt m j != 0 || (j != 0 && (mapSs m j != 0 || mapDs m j != 0))))
    || perms.any (fun d => decide (n ≤ d)) || perms.eraseDups.length != n || exts.any (· == 0)
    || mapExt m (mapSpd m) % p != 0 || mapExt m (mapDpd m) % p != 0
    || dims.any (fun d => mapSs m d % (es : Int) != 0 || mapDs m d % (es : Int) != 0)
    || decide ((srcExts m p).prod > 2 ^ 32 ∨ (dstExts m p).prod > 2 ^ 32) || src % es != 0 || dst % es != 0
    || intervalsMeet (sideBounds src es (srcExts m p) (dims.map (mapSs m))) (sideBounds dst es (dstExts m p) (dims.map (mapDs m)))

/-- An element of member q's destination: the member that holds it, its offset there, and its offset at q. -/
structure Moved where
  owner : Nat
  soff : Int
  doff : Int

def movedAt (m p q k : Nat) : Moved :=
  let t := coordsOf (dstExts m p) k
  let smode := bitOf m 19
  let dmode := bitOf m 23
  let g := fun d =>
    match (List.range (mapNdim m)).find? fun j => mapPerm m j == d with
    | some j => if d = mapDpd m then globalOf dmode (t.getD j 0) (mapExt m d) p q else t.getD j 0
    | none => 0
  let sd := mapSpd m
  { owner := ownOf smode (g sd) (mapExt m sd) p
    soff := dotStride ((List.range (mapNdim m)).map fun d => if d = sd then locOf smode (g d) (mapExt m d) p else g d) ((List.range (mapNdim m)).map (mapSs m))
    doff := dotStride t ((List.range (mapNdim m)).map (mapDs m)) }

def dstCount (m p : Nat) : Nat := (dstExts m p).prod

/-! ## Lists (R401, R402) -/

/-- A member list that is not well formed: reserved fields, the count, a member twice, a die pair of another partition. -/
def State.listBad (s : State) (hp hd : Nat) (es : List Nat) : Bool :=
  let fab := bitOf hd 16
  let n := hd % 65536
  bitsOf hd 31 17 != 0 || hd / 2 ^ 64 != 0 || decide (n = 0 ∨ n > 1024 ∨ (!fab ∧ n > 4))
    || es.any (fun e => bitsOf e 15 10 != 0 || bitsOf e 31 22 != 0 || (!fab && bitsOf e 21 16 != 0))
    || (let ms := es.map fun e => bitsOf e 9 0; ms.eraseDups.length != ms.length || (!fab && ms.any fun m => !((s.pairsOf hp).contains m)))

/-- A body that R416 refuses. -/
def collBodyBad (o : CollOp) : Bool :=
  let es := o.es
  let n := o.count * es
  let red := o.op < 2
  o.count == 0 || bitsOf o.rec_ 447 437 != 0
    || (if red then !(o.ety ∈ [.i32, .z32, .i64, .z64, .f16, .bf16, .f32, .f64]) || decide (o.rop > 5) || (!o.ety.isInt && decide (o.rop > 2))
        else o.ety == .e2m1 || o.rop != 0)
    || (if o.op = 0 ∨ o.op = 2 then decide (o.n ≤ o.root) else o.root != 0)
    || (o.insw && !(o.fab && red && decide (n ≤ 8 * 2 ^ 20))) || decide (n > 2 ^ 32 ∨ (o.op = 3 ∧ o.n * n > 2 ^ 32))
    || o.src % es != 0 || o.dst % es != 0
    || (let dl := if o.op = 3 then o.n * n else n
        intervalsMeet ((o.src : Int), ((o.src + n : Nat) : Int)) ((o.dst : Int), ((o.dst + dl : Nat) : Int)) && !(o.op == 2 && o.rank == o.root && o.dst == 0))

/-- The checks of R402, R405 and R416 that a member's operation can fail with its list well formed. -/
def State.collBad (s : State) (o : CollOp) : Bool :=
  let reserved := bitsOf o.rec_ 463 448 != 0 || o.statrec % 64 != 0 || (o.dove && o.mapVa % 256 != 0) || o.memb % 64 != 0
  let me := o.members.getD o.rank (0, 0)
  reserved || decide (o.n ≤ o.rank)
    || (o.fab && (me.1 != (s.hpFab o.hp).peer || me.2 != o.ctx || !(s.hpFab o.hp).en
        || (o.members.any fun m => !bitOf (s.peerEntry o.hp o.ctx m.1).1 0)))
    || (if o.dove then mapMalformed o.map o.n o.src o.dst else collBodyBad o)

/-- Another operation of the context with this CTAG and RANK is active here. -/
def State.collTwice (s : State) (o : CollOp) : Bool :=
  s.coll.ops.any fun x => x.oid != o.oid && x.half == o.half && x.hp == o.hp && x.ctx == o.ctx && x.ctag == o.ctag && x.rank == o.rank && x.stage != 0

/-! ## Messages (R410) -/

/-- A message to member q. -/
def State.collMsg (s : State) (o : CollOp) (q mtype : Nat) (offset : Nat) (ty aopst : Nat) (data : List Byte) (bad : Bool) : Msg :=
  let d := o.members.getD q (0, 0)
  let me := o.members.getD o.rank (0, 0)
  let x := s.hpFab o.hp
  { mtype := BitVec.ofNat 4 mtype, vc := 2, num := false, ptag := o.tag, dpeer := BitVec.ofNat 10 d.1,
    dinc := if o.fab then BitVec.ofNat 8 (o.incs.getD q 0) else 0, speer := BitVec.ofNat 10 me.1, sinc := if o.fab then BitVec.ofNat 8 x.inc else 0,
    sctx := BitVec.ofNat 6 o.ctx, rctx := BitVec.ofNat 6 (if o.fab then d.2 else o.ctx), win := 0, len := BitVec.ofNat 16 data.length,
    tag := BitVec.ofNat 16 o.rank, mseq := 0, offset := BitVec.ofNat 64 offset, ty := BitVec.ofNat 4 ty, aopst := BitVec.ofNat 4 aopst,
    wkey := BitVec.ofNat 32 o.ctag, hash := dataHash data, interval := if bad then 1 else 0, data := data }

/-- Sends it: over Limop, or on the on-package network. -/
def State.sendColl (s : State) (o : CollOp) (m : Msg) : Option State :=
  if o.fab then s.sendMsg o.hp m none
  else some { s with fab := { s.fab with inbox := s.fab.inbox ++ [m] } }

def CollOp.others (o : CollOp) : List Nat := (List.range o.n).filter (· != o.rank)

def sendEach (o : CollOp) (mk : Nat → Msg) : State → List Nat → State
  | s, [] => s
  | s, q :: qs => sendEach o mk ((s.sendColl o (mk q)).getD s) qs

/-- The MISSING bitmap, as 128 bytes. -/
def missingBytes (ms : List Nat) : List Byte :=
  (List.range 128).map fun b => BitVec.ofNat 8 (((List.range 8).map fun k => if ms.contains (8 * b + k) then 2 ^ k else 0).sum)

/-- ABORT to every other member that can be reached. -/
def State.abortOthers (s : State) (o : CollOp) (status : Nat) (missing : List Nat) : State :=
  let data := BitVec.ofNat 8 status :: zeroBytes 15 ++ missingBytes missing
  sendEach o (fun q => s.collMsg o q 15 0 0 2 data false) s o.others

/-- The operation fails: its status, and ABORT to the others where the rule says so. -/
def State.failColl (s : State) (o : CollOp) (status : Nat) (missing : List Nat) (abort : Bool) : State :=
  let s := s.setColl { o with stage := 3, status := status, missing := missing, waits := [], early := [], toSend := [] }
  if abort then s.abortOthers o status missing else s

/-! ## Sending (R409, R417, R418) -/

/-- A piece that a member sends: to whom, where, the bytes, whether poisoned, and whether it is a contribution. -/
structure Piece where
  q : Nat
  off : Nat
  data : List Byte
  bad : Bool
  red : Bool

/-- Appends an element to the last piece where it continues it within 256 bytes. -/
def addPiece (p : Piece) : List Piece → List Piece
  | [] => [p]
  | [x] =>
    if x.q = p.q ∧ x.off + x.data.length = p.off ∧ x.data.length + p.data.length ≤ 256 ∧ x.bad = p.bad then [{ x with data := x.data ++ p.data }] else [x, p]
  | x :: xs => x :: addPiece p xs

/-- The pieces of a Dovetail for receiver q. -/
def State.dovePieces (o : CollOp) (q : Nat) : State → List Piece → List Nat → Except CopyStop (List Piece) × State
  | s, ps, [] => (.ok ps, s)
  | s, ps, k :: ks =>
    let m := movedAt o.map o.n q k
    if m.owner ≠ o.rank then State.dovePieces o q s ps ks
    else
      match s.collSend o (wrap64 ((o.src : Int) + m.soff)) o.es with
      | (.error e, s) => (.error e, s)
      | (.ok (bs, bad), s) => State.dovePieces o q s (addPiece { q := q, off := wrap64 m.doff, data := bs, bad := bad, red := false } ps) ks

/-- Receivers in the order RANK + 1, RANK + 2, …, the member itself last. -/
def CollOp.ring (o : CollOp) : List Nat := (List.range o.n).map fun k => (o.rank + 1 + k) % o.n

/-- One piece to each receiver in turn. -/
def inTurn (ls : List (List Piece)) : List Piece := (List.range (ls.map (·.length)).sum).flatMap fun k => ls.filterMap (·[k]?)

def State.allDove (o : CollOp) : State → List (List Piece) → List Nat → Except CopyStop (List Piece) × State
  | s, ls, [] => (.ok (inTurn ls), s)
  | s, ls, q :: qs =>
    match State.dovePieces o q s [] (List.range (dstCount o.map o.n)) with
    | (.error e, s) => (.error e, s)
    | (.ok xs, s) => State.allDove o s (ls ++ [xs]) qs

/-- Pieces of 256 bytes of a run of the source, sector by sector for poison. -/
def State.rangePieces (o : CollOp) (q base : Nat) (red : Bool) : Nat → State → Nat → Nat → Except CopyStop (List Piece) × State
  | 0, s, _, _ => (.ok [], s)
  | k + 1, s, lo, hi =>
    if hi ≤ lo then (.ok [], s)
    else
      let n := min (hi - lo) (256 - lo % 256)
      match s.collSend o (o.src + lo) n with
      | (.error e, s) => (.error e, s)
      | (.ok (bs, bad), s) =>
        match State.rangePieces o q base red k s (lo + n) hi with
        | (.error e, s) => (.error e, s)
        | (.ok ps, s) => (.ok ({ q := q, off := base + lo, data := bs, bad := bad, red := red } :: ps), s)

def segBytes : Nat := 65536

/-- The member that reduces a segment (R418). -/
def CollOp.reducer (o : CollOp) (seg : Nat) : Nat := if o.op = 0 then o.root else seg % o.n

def CollOp.total (o : CollOp) : Nat := o.count * o.es

def CollOp.segments (o : CollOp) : List Nat := List.range ((o.total + segBytes - 1) / segBytes)

def CollOp.segEnd (o : CollOp) (g : Nat) : Nat := min o.total ((g + 1) * segBytes)

/-- What a COLL member sends, as (receiver, destination base, contribution, from, to). -/
def CollOp.runs (o : CollOp) : List (Nat × Nat × Bool × Nat × Nat) :=
  if o.inSwitch then [(if o.op = 0 then o.root else 0, 0, true, 0, o.total)]
  else
    match o.op with
    | 2 => if o.rank = o.root then o.ring.filterMap fun q => if q = o.rank ∧ o.dst = 0 then none else some (q, 0, false, 0, o.total) else []
    | 3 => o.ring.map fun q => (q, o.rank * o.total, false, 0, o.total)
    | _ => o.segments.map fun g => (o.reducer g, 0, true, g * segBytes, o.segEnd g)

def State.collRuns (o : CollOp) : State → List (Nat × Nat × Bool × Nat × Nat) → Except CopyStop (List Piece) × State
  | s, [] => (.ok [], s)
  | s, (q, base, red, lo, hi) :: rs =>
    match State.rangePieces o q base red ((hi - lo) / 256 + 2) s lo hi with
    | (.error e, s) => (.error e, s)
    | (.ok ps, s) =>
      match State.collRuns o s rs with
      | (.error e, s) => (.error e, s)
      | (.ok qs, s) => (.ok (ps ++ qs), s)

def State.pieces (s : State) (o : CollOp) : Except CopyStop (List Piece) × State :=
  if o.dove then State.allDove o s [] o.ring else State.collRuns o s o.runs

/-- A piece of the member's own: written at its destination, with no message. -/
def CollOp.own (o : CollOp) (p : Piece) : Bool := p.q == o.rank && !o.inSwitch

/-- The places of the member's own pieces. -/
def State.ownPlaces (o : CollOp) : State → List Piece → Except CopyStop (List (Piece × List Place)) × State
  | s, [] => (.ok [], s)
  | s, p :: ps =>
    match State.collPlaces o .write 3 s (o.dst + p.off) p.data.length with
    | (.error e, s) => (.error e, s)
    | (.ok x, s) =>
      match State.ownPlaces o s ps with
      | (.error e, s) => (.error e, s)
      | (.ok xs, s) => (.ok ((p, x) :: xs), s)

def State.writeOwn (hp : Nat) : State → List (Piece × List Place) → State
  | s, [] => s
  | s, (p, x) :: xs => State.writeOwn hp (State.writePlaces .none hp 0 p.bad s p.data x) xs

/-- Sends the pieces of the others; the first member that no port reaches ends it. -/
def State.sendPieces (o : CollOp) : State → List Piece → Option Nat × State
  | s, [] => (none, s)
  | s, p :: ps =>
    let m := s.collMsg o p.q 14 p.off (if p.red then o.ety.code.toNat else 0) (if p.red then o.rop else 0) p.data p.bad
    match s.sendColl o m with
    | some s => State.sendPieces o s ps
    | none => (some p.q, s)

/-! ## What is owed (R409, R418) -/

/-- The bytes that member r owes this one. -/
def CollOp.owes (o : CollOp) (r : Nat) : Nat :=
  if r = o.rank then 0
  else if o.dove then o.es * ((List.range (dstCount o.map o.n)).filter fun k => (movedAt o.map o.n o.rank k).owner == r).length
  else
    match o.op with
    | 0 => if o.rank = o.root then o.total else 0
    | 1 => ((o.segments.filter fun g => o.reducer g == o.rank || o.reducer g == r).map fun g => o.segEnd g - g * segBytes).sum
    | 2 => if r = o.root then o.total else 0
    | _ => o.total

def CollOp.paid (o : CollOp) (r : Nat) : Bool := smGet 0 r o.got == o.owes r

/-- DONE to a member whose bytes have all performed. -/
def State.sendDone (s : State) (o : CollOp) (r : Nat) : State := (s.sendColl o (s.collMsg o r 15 0 0 1 [] false)).getD s

def sendDones (o : CollOp) : State → List Nat → State
  | s, [] => s
  | s, r :: rs => sendDones o (s.sendDone o r) rs

/-- The data phase: everything is read, then the own share is written and the rest sent. -/
def State.startData (s : State) (o : CollOp) : State :=
  match s.pieces o with
  | (.error (.absent fid _), s) => s.setColl { o with stage := 2, waits := [fid] }
  | (.error .held, s) => s.setColl { o with stage := 2 }
  | (.error (.error st _), s) => s.failColl o st [] true
  | (.ok ps, s) =>
    match State.ownPlaces o s (ps.filter o.own) with
    | (.error (.absent fid _), s) => s.setColl { o with stage := 2, waits := [fid] }
    | (.error .held, s) => s.setColl { o with stage := 2 }
    | (.error (.error st _), s) => s.failColl o st [] true
    | (.ok own, s) =>
      let s := State.writeOwn o.hp s own
      let o := { o with stage := 2, sent := true, waits := [], poison := o.poison || ps.any (·.bad) }
      match State.sendPieces o s (ps.filter fun p => !(o.own p)) with
      | (some q, s) => s.failColl o 0x1B [q] true
      | (none, s) =>
        let s := s.setColl o
        if o.inSwitch then s else sendDones o s (o.others.filter fun r => o.owes r == 0)

/-! ## The handshake (R407) -/

/-- H. -/
def CollOp.handshake (o : CollOp) (mapBytes listBytes : List Byte) : Quad :=
  crc64 ((if o.dove then mapBytes else bytesOfNat 8 (o.f 447 384)) ++ listBytes.take 4 ++ listBytes.drop 64)

/-- With every CSET in hand, the hashes are compared. -/
def State.compareHashes (s : State) (o : CollOp) : State :=
  if o.others.all fun q => (smGet none q o.csets).isSome then
    let bad := o.others.filter fun q => smGet none q o.csets != some o.hash
    if bad.isEmpty then s.startData o else s.failColl o 0x12 bad false
  else s.setColl o

/-! ## Receipt (R409, R415, R418) -/

/-- A message addressed to this member's operation. A switch's message names no member. -/
def State.collTakes (s : State) (m : Msg) (o : CollOp) : Bool :=
  let me := o.members.getD o.rank (0, 0)
  let from_ := o.members.getD m.tag.toNat (0, 0)
  (o.stage == 1 || o.stage == 2) && o.ctag == m.wkey.toNat && o.ctx == m.rctx.toNat && me.1 == m.dpeer.toNat
    && (if o.fab then (s.hpFab o.hp).peer == m.dpeer.toNat && (s.hpFab o.hp).inc == m.dinc.toNat && (s.hpFab o.hp).en else m.dinc == 0 && m.sinc == 0)
    && ((o.inSwitch && o.stage == 2) || (m.aopst == 4 && m.mtype == 15) || (decide (m.tag.toNat < o.n) && m.tag.toNat != o.rank && from_.1 == m.speer.toNat))

def State.collFor (s : State) (m : Msg) : Option CollOp := s.coll.ops.find? (s.collTakes m)

/-- What a combination leaves at an element. -/
def combineElem (o : CollOp) (old new : List Byte) : List Byte := bytesOfNat o.es (atomNew o.rop o.ety (natOfBytes old) (natOfBytes new) 0)

def combineAll (o : CollOp) (old new : List Byte) : List Byte :=
  (List.range (new.length / o.es)).flatMap fun k => combineElem o ((old.drop (k * o.es)).take o.es) ((new.drop (k * o.es)).take o.es)

/-- A finished segment goes to every other member, or waits to be read. -/
def State.sendSegment (s : State) (o : CollOp) (g : Nat) : State :=
  let o' := { o with rec_ := setBits o.rec_ 191 128 o.dst }
  match State.rangePieces o' 0 0 false 260 s (g * segBytes) (o.segEnd g) with
  | (.error (.absent fid _), s) => s.setColl { o with toSend := o.toSend ++ [g], waits := o.waits ++ [fid] }
  | (.error .held, s) => s.setColl { o with toSend := o.toSend ++ [g] }
  | (.error (.error st _), s) => s.failColl o st [] true
  | (.ok ps, s) =>
    match State.sendPieces o s (o.others.flatMap fun q => ps.map fun p => { p with q := q }) with
    | (some q, s) => s.failColl o 0x1B [q] true
    | (none, s) => s

/-- Bytes have performed from member r. -/
def State.creditData (s : State) (o : CollOp) (r n : Nat) : State :=
  let o := { o with got := smPut 0 r (smGet 0 r o.got + n) o.got }
  let s := s.setColl o
  if !o.inSwitch && decide (0 < n) && o.paid r then s.sendDone o r else s

/-- Where the results of the switch are counted. -/
def switchRank : Nat := 1024

/-- The data of one CDAT, at its place. -/
def State.applyData (s : State) (o : CollOp) (m : Msg) : State :=
  let off := m.offset.toNat
  let n := m.data.length
  let seg := off / segBytes
  let red := !o.dove && decide (o.op < 2) && !o.inSwitch && o.reducer seg == o.rank
  let bad := m.interval != 0
  match State.collPlaces o .write 3 s (o.dst + off) n with
  | (.error (.absent fid _), s) => s.setColl { o with early := o.early ++ [m], waits := o.waits ++ [fid] }
  | (.error .held, s) => s.setColl { o with early := o.early ++ [m] }
  | (.error (.error st _), s) => s.failColl o st [] true
  | (.ok ps, s) =>
    let (old, was) := s.readPlaces 0 ps
    let new := if red then combineAll o old m.data else m.data
    let s := State.writePlaces .none o.hp 0 (bad || (red && was)) s new ps
    let o := { o with poison := o.poison || bad }
    if red then
      let have_ := smGet 0 seg o.segs + n
      let o := { o with segs := smPut 0 seg have_ o.segs }
      let s := s.creditData o m.tag.toNat n
      if o.op = 1 ∧ have_ = (o.n - 1) * (o.segEnd seg - seg * segBytes) then s.sendSegment ((s.coll? o.oid).getD o) seg else s
    else s.creditData o (if o.inSwitch then switchRank else m.tag.toNat) n

/-- A hash that fails (R415): the message is discarded, its destination poisoned; the record; CONTAIN and ABORT. -/
def State.collHash (s : State) (o : CollOp) (m : Msg) : State :=
  let line := match State.collPlaces o .write 1 s (o.dst + m.offset.toNat) 1 with
    | (.ok (.mem pa _ _ _ _ :: _), _) => some (lineOf pa)
    | _ => none
  let chk : ScribeId := if o.fab then farScribe o.half else match line with | some l => s.homeScribe o.hp l | none => farScribe o.half
  let a : Affected := { scope := if o.fab then 3 else 2, source := 3, lclass := .none, line := none, interval := 0, team := (s.team o.ref.tid).linear,
                        bent := o.ref.bent, sl := o.ref.sl, half := 0, cluster := 0, pc := o.pc.toNat }
  let s := s.countViol o.hp 5
  let s := match line with | some l => s.reportHash l | none => s.bumpErr 14
  if s.scribeObserves o.hp chk then s.observe o.hp o.ctx a 5 chk none
  else
    let s := match (if m.mtype = 14 then State.collPlaces o .write 3 s (o.dst + m.offset.toNat) m.data.length else (.ok [], s)) with
      | (.ok ps, s) => State.writePlaces .none o.hp 0 true s (s.readPlaces 0 ps).1 ps
      | (.error _, s) => s
    (s.logError o.hp o.ctx (containRecord a 5 chk none false s.ns)).failColl o 0x19 [] true

/-- A message that no active operation takes: CSETs and ABORTs are held, others dropped and counted. With 4,096 held the half stops VC 2,
and what has come stays in the receive buffer. -/
def State.unclaimed (s : State) (m : Msg) (keep : Bool) : State :=
  let hp := (s.hpOfPeer m.dpeer.toNat).getD 0
  let half := s.dieOf hp m.speer.toNat
  if keep then { s with coll := { s.coll with held := s.coll.held ++ [{ half := half, m := m, since := s.ns }] } }
  else s.staleDrop hp m.speer.toNat

/-- A message whose sender is of another incarnation than the list's member: STALE. -/
def collStale (o : CollOp) (m : Msg) : Bool := o.fab && !(o.inSwitch && o.stage == 2) && m.sinc.toNat != o.incs.getD m.tag.toNat 0

/-- A collective message: its hash, its incarnation, then its own effect. -/
def State.takeColl (s : State) (m : Msg) (keep : Bool) (f : State → CollOp → State) : State :=
  match s.collFor m with
  | none => s.unclaimed m keep
  | some o =>
    if !(msgHashOk m) then
      let s := s.collHash o m
      match s.coll? o.oid with
      | some o' => if o'.stage = o.stage then f s o' else s
      | none => s
    else if collStale o m then s.failColl o 0x1A [m.tag.toNat] true
    else f s o

/-- CSET (R407): A half receives a member's CSET and, with all in hand, compares hashes. -/
def State.takeCset (s : State) (m : Msg) : State :=
  s.takeColl m true fun s o =>
    if o.stage = 1 then s.compareHashes { o with csets := smSet m.tag.toNat (some (BitVec.ofNat 64 (natOfBytes m.data))) o.csets } else s

/-- CCTL ABORT (R407, R419): a switch's, before COMMIT, names the status; a member's is PEERFAULT. -/
def State.takeAbort (s : State) (m : Msg) : State :=
  let status := (m.data.headD 0).toNat
  let bits := natOfBytes (m.data.drop 16)
  s.takeColl m true fun s o =>
    if o.inSwitch ∧ o.commit then s
    else
      let missing := (List.range o.n).filter fun r => bitOf bits r || (!(o.inSwitch && o.stage == 2) && r == m.tag.toNat)
      let st := if o.inSwitch ∧ o.stage = 2 ∧ (status = 0x13 ∨ status = 0x14) then status else 0x16
      s.failColl o st missing false

end Sys2Proof.Machine
end

