-- ==== Sys2Proof/Machine/CollEvents.lean ====
section
/-! DEFINITION. Steps of the collective engine: posting, messages, completion, timeouts and kills; DVT and COLL; and error
responses, which end collectives with a dead peer (13 R400, R407 to R423, 12 R378, R398). -/

namespace Sys2Proof.Machine

/-! ## Posting (R352, R356, R407) -/

/-- A packet's body goes to its half. -/
def State.postPacket (s : State) (e : Entry) (dove : Bool) : State :=
  let o := newColl s.mem.nextOp e.engine e.hp e.ctx (some e.eid) { tid := 0, bent := 0, sl := 0 } dove e.n e.tag
  (s.addColl { o with posted := s.ns }).setEntry { e with stage := 4 }

/-- DOVETAIL_PACKET (R408): Posts a Dovetail to a collective half. -/
def execEvDovetailPacket (eid : Nat) (s : State) : Host.Outcome State Fault Refusal :=
  match s.toStart? eid with
  | none => .next s
  | some e => .next (if e.stage = 3 ∧ e.kind = 3 then s.postPacket e true else s)

/-- COLLECTIVE_PACKET (R408): Posts a collective to a collective half. -/
def execEvCollectivePacket (eid : Nat) (s : State) : Host.Outcome State Fault Refusal :=
  match s.toStart? eid with
  | none => .next s
  | some e => .next (if e.stage = 3 ∧ e.kind = 4 then s.postPacket e false else s)

/-- Held messages that an operation claims are taken in order (R407). -/
def State.claimHeld (s : State) (oid : Nat) : State :=
  match s.coll? oid with
  | none => s
  | some o =>
    let mine := s.coll.held.filter fun h => s.collTakes h.m o
    let s := { s with coll := { s.coll with held := s.coll.held.filter fun h => !(s.collTakes h.m o) } }
    mine.foldl (fun s h => if h.m.mtype = 13 then s.takeCset h.m else s.takeAbort h.m) s

/-- The list as read: its header, its entries. -/
def entriesOf (bs : List Byte) : Nat × List Nat :=
  let hd := natOfBytes (bs.take 64)
  (hd, (List.range (hd % 65536)).map fun r => natOfBytes ((bs.drop (64 + 4 * r)).take 4))

/-- The operation with its list. -/
def State.withList (s : State) (o : CollOp) (hd : Nat) (es : List Nat) : CollOp :=
  let fab := bitOf hd 16
  { o with fab := fab, members := es.map (fun e => (bitsOf e 9 0, bitsOf e 21 16)), timeout := bitsOf hd 63 32,
           incs := if fab then es.map (fun e => bitsOf (s.peerEntry o.hp o.ctx (bitsOf e 9 0)).1 15 8) else es.map fun _ => 0 }

/-- A wait for a fault record, a try again, or the end with FAULT. -/
def State.collStops (s : State) (o : CollOp) (abort : Bool) : CopyStop → State
  | .absent fid _ => s.setColl { o with waits := [fid] }
  | .held => s.setColl o
  | .error st _ => s.failColl o st [] abort

/-- A judged operation sends its CSETs, or fails. -/
def State.judgeColl (s : State) (o : CollOp) (mapBytes listBytes : List Byte) : State :=
  if s.collTwice o then s.failColl o 0x11 [] false
  else if s.collBad o then s.failColl o 0x11 [] true
  else
    let o := { o with stage := 1, waits := [], hash := o.handshake mapBytes listBytes }
    let s := s.setColl o
    let data := bytesOfNat 8 o.hash.toNat
    match o.others.find? fun q => (s.sendColl o (s.collMsg o q 13 0 0 0 data false)).isNone with
    | some q => s.failColl o 0x1B [q] true
    | none =>
      let s := (sendEach o (fun q => s.collMsg o q 13 0 0 0 data false) s o.others).claimHeld o.oid
      match s.coll? o.oid with
      | some o => if o.stage = 1 then s.compareHashes o else s
      | none => s

/-- A half reads the objects of an operation (R407 step 1). -/
def State.judge0 (s : State) (o : CollOp) : State :=
  match s.collRead o o.memb 64 with
  | (.error e, s) => s.collStops o false e
  | (.ok (hd, bad), s) =>
    let n := natOfBytes hd % 65536
    if bad then s.failColl o 0x15 [] false
    else if n = 0 ∨ n > 1024 ∨ o.memb % 64 ≠ 0 then s.failColl o 0x11 [] false
    else
      match s.collRead o o.memb (64 + 4 * n) with
      | (.error e, s) => s.collStops o false e
      | (.ok (bs, bad), s) =>
        let (hd, es) := entriesOf bs
        if bad then s.failColl o 0x15 [] false
        else if s.listBad o.hp hd es then s.failColl o 0x11 [] false
        else
          let o := s.withList o hd es
          if o.dove then
            match s.collRead o o.mapVa 256 with
            | (.error e, s) => s.collStops o true e
            | (.ok (mb, bad), s) => if bad then s.failColl o 0x15 [] true else s.judgeColl { o with map := natOfBytes mb } mb bs
          else s.judgeColl o [] bs

/-- The start release of an instruction has been sealed (R414). -/
def State.collSealed (s : State) (o : CollOp) : Bool :=
  o.eid.isSome || s.mem.ops.all fun p => p.kind != OpKind.collIssue o.oid || p.performed

def State.beginColl (s : State) (o : CollOp) : CollOp × State :=
  let s := { s with mem := { s.mem with ops := s.mem.ops.filter fun p => p.kind != OpKind.collIssue o.oid } }
  let o := if o.eid.isNone && o.posted == 0 then { o with posted := s.ns } else o
  (o, s.setColl o)

/-- CDATs that came too early, or found their page absent, are applied in order. -/
def State.takeEarly (s : State) (oid : Nat) : List Msg → State
  | [] => s
  | m :: ms =>
    match s.coll? oid with
    | some o => if o.stage = 2 then (s.applyData o m).takeEarly oid ms else s
    | none => s

/-- Finished segments that could not be read are sent. -/
def State.sendSegments (s : State) (oid : Nat) : List Nat → State
  | [] => s
  | g :: gs =>
    match s.coll? oid with
    | some o => if o.stage = 2 then (s.sendSegment o g).sendSegments oid gs else s
    | none => s

/-- COLLECTIVE_POST (R407): A half checks a posted collective and sends its CSETs; or goes on with one whose fault has been
answered. -/
def execEvCollectivePost (oid : Nat) (s : State) : Host.Outcome State Fault Refusal :=
  match s.coll? oid with
  | none => .next s
  | some o =>
    if !(s.collSealed o) || !o.waits.isEmpty then .next s
    else
      let (o, s) := s.beginColl o
      if o.stage = 0 then .next (s.judge0 o)
      else if o.stage = 2 ∧ !o.sent then .next (s.startData o)
      else if o.stage = 2 then .next (((s.setColl { o with early := [], toSend := [] }).sendSegments oid o.toSend).takeEarly oid o.early)
      else .next s

/-! ## Messages (R407 to R419) -/

/-- CSET (R407): A half receives a member's CSET and, with all in hand, compares hashes. -/
def execEvCset (m : Msg) (s : State) : Host.Outcome State Fault Refusal := .next (s.takeCset { m with mtype := 13 })

/-- CDAT (R409): A receiver writes a collective data message at its destination offset; before its own data phase it keeps
the message. -/
def execEvCdat (m : Msg) (s : State) : Host.Outcome State Fault Refusal :=
  .next (s.takeColl { m with mtype := 14 } false fun s o =>
    if o.stage = 2 && o.sent && o.early.isEmpty then s.applyData o m else s.setColl { o with early := o.early ++ [m] })

/-- CCTL_DONE (R409): A sender learns a receiver has performed all its bytes. -/
def execEvCctlDone (m : Msg) (s : State) : Host.Outcome State Fault Refusal :=
  .next (s.takeColl { m with mtype := 15, aopst := 1 } false fun s o => s.setColl { o with dones := (o.dones ++ [m.tag.toNat]).eraseDups })

/-- CCTL_ABORT (R407): A member's abort ends the operation with PEERFAULT. -/
def execEvCctlAbort (m : Msg) (s : State) : Host.Outcome State Fault Refusal := .next (s.takeAbort { m with mtype := 15, aopst := 2 })

/-- CCTL_COMMIT (R418): The switch commits an in-switch reduction. -/
def execEvCctlCommit (m : Msg) (s : State) : Host.Outcome State Fault Refusal :=
  .next (s.takeColl { m with mtype := 15, aopst := 3 } false fun s o => s.setColl { o with commit := true })

/-- CCTL_NOSW (R418): The switch refuses in-switch reduction: the member runs as with INSW = 0. -/
def execEvCctlNosw (m : Msg) (s : State) : Host.Outcome State Fault Refusal :=
  .next (s.takeColl { m with mtype := 15, aopst := 4 } false fun s o =>
    let o' := { o with nosw := true }
    if o.stage = 2 ∧ o.inSwitch then s.startData { o' with sent := false, got := [] } else s.setColl o')

/-- HELD_MESSAGE_DISCARD (R407): Held CSETs and ABORTs not claimed within 2 × REQTO are discarded. -/
def execEvHeldMessageDiscard (half : Nat) (s : State) : Host.Outcome State Fault Refusal :=
  let limit := fun (h : HeldColl) => h.since + 2 * (s.hpFab ((s.hpOfPeer h.m.dpeer.toNat).getD 0)).timeout
  match s.coll.held.find? fun h => h.half == half with
  | none => .next s
  | some h =>
    let s := s.reachNs (limit h)
    .next { s with coll := { s.coll with held := s.coll.held.filter fun h => !(h.half == half && decide (limit h ≤ s.ns)) } }

/-! ## Completion (R411, R412) -/

/-- Step 1: the member may complete. -/
def CollOp.finished (o : CollOp) : Bool :=
  o.stage == 3 ||
    (o.stage == 2 && o.sent && o.early.isEmpty && o.toSend.isEmpty &&
      (if o.inSwitch then o.commit && (!(o.op == 1 || o.rank == o.root) || smGet 0 switchRank o.got == o.total)
       else o.others.all fun r => o.paid r && o.dones.contains r))

def CollOp.finalStatus (o : CollOp) : Nat := if o.status = 0 ∧ o.poison then 0x17 else o.status

/-- The status record. -/
def statusRecord (o : CollOp) (status : Nat) : List Byte :=
  bytesOfNat 64 (packFields [(status, 0), (bitVal (o.inSwitch && o.insw && status == 0), 8), (o.missing.length, 16)]) ++ missingBytes o.missing

/-- Steps 3 and 4. -/
def State.endColl (s : State) (o : CollOp) (status : Nat) : State :=
  let err := status != 0
  let s := s.dropColl o.oid
  match o.eid with
  | some eid =>
    match s.entry? eid with
    | some e => s.completeEntry e err
    | none => s.advance o.hp o.ctx o.tlid o.tlval err { kind := 3, source := 0xFFFFFFFF, where_ := 0 }
  | none =>
    let s := s.advance o.hp o.ctx o.tlid o.tlval err { kind := 3, source := 0xFFFFFFFF, where_ := 0 }
    let s := s.clearToken o.ref (some o.token)
    if err && !o.nt then s.completionFault o.ref { cause := causeRemote, sub := status, lanes := 15, addr := 0 } o.pc o.inst else s

/-- COLLECTIVE_COMPLETE (R411): A member completes, writes status, advances its timeline and clears its token. At sys scope it
waits for its deferred windows (07 R235). -/
def execEvCollectiveComplete (oid : Nat) (s : State) : Host.Outcome State Fault Refusal :=
  match s.coll? oid with
  | none => .next s
  | some o =>
    if !o.finished || !o.waits.isEmpty || (o.fab && s.windowsHold .sys) then .next s
    else
      let status := o.finalStatus
      if o.statrec = 0 ∨ o.statrec % 64 ≠ 0 then .next (s.endColl o status).retire
      else
        match s.collWrite o o.statrec (statusRecord o status) false with
        | (.error (.absent fid _), s) => .next (s.setColl { o with stage := 3, status := status, waits := [fid] })
        | (.error .held, s) => .next s
        | (.error (.error _ _), s) => .next ((s.bumpErr 23).endColl o (if status = 0 then 0x15 else status)).retire
        | (.ok s, _) => .next (s.endColl o status).retire

/-- COLLECTIVE_TIMEOUT (R419): TIMEOUT elapses before a collective completes. -/
def execEvCollectiveTimeout (oid : Nat) (s : State) : Host.Outcome State Fault Refusal :=
  match s.coll? oid with
  | none => .next s
  | some o =>
    if o.timeout = 0 ∨ o.stage = 0 ∨ o.finished then .next s
    else
      let s := s.reachNs (o.posted + 1000 * o.timeout)
      let late := o.others.filter fun r => if o.stage = 1 then (smGet none r o.csets).isNone else !(o.paid r) || !(o.dones.contains r)
      .next (s.failColl o 0x13 late true)

/-! ## The ends that others bring -/

def abortEach (status : Nat) : State → List CollOp → State
  | s, [] => s
  | s, o :: os => abortEach status (s.failColl o status [] true) os

/-- A KILL ends every active collective of the context (R421). -/
def State.killColls (s : State) (hp ctx : Nat) : State :=
  abortEach 0x18 s (s.coll.ops.filter fun o => o.hp == hp && o.ctx == ctx && o.stage != 3)

/-- Collectives with a peer that is dead (R398, R420). -/
def deadColls (peer inc : Nat) : State → List CollOp → State
  | s, [] => s
  | s, o :: os =>
    let rs := (List.range o.n).filter fun r => r != o.rank && (o.members.getD r (0, 0)).1 == peer && o.incs.getD r 0 == inc
    deadColls peer inc (if rs.isEmpty then s else s.failColl o 0x14 rs true) os

/-- ERRRSP (R378): An error response completes requests with a status; DEAD is recorded once, and ends the collectives that
the dead peer belongs to. -/
def execEvErrrsp (m : Msg) (s : State) : Host.Outcome State Fault Refusal :=
  .next (s.takeAnswer m 0 fun s r =>
    let st := m.aopst.toNat
    let s := if st = 7 then
        deadColls r.m.dpeer.toNat r.m.dinc.toNat (s.noteDead r.hp r.m) (s.coll.ops.filter fun o => o.hp == r.hp && o.fab && (o.stage == 1 || o.stage == 2))
      else s
    s.finishReq r st none)

/-! ## DVT and COLL (R422, R423) -/

/-- A header that the instruction refuses. -/
def State.recordBad (s : State) (hp ctx : Nat) (dove : Bool) (n : Nat) : Bool :=
  n % 256 != (if dove then 3 else 4) || bitOf n 8 || bitOf n 9 || bitsOf n 15 10 != 0 || bitsOf n 23 18 != 0
    || (bitsOf n 63 32 != 0 && (s.timelineVa hp ctx (bitsOf n 63 32)).isNone)

/-- The half of an instruction (R400). -/
def State.sliceHalf (s : State) (r : SliceRef) : Nat := if s.clusterOf r / 48 < 2 then 0 else 1

/-- The operation's scope, by FAB of its list. -/
def State.collScope (s : State) (hp ctx memb : Nat) : Scope × State :=
  match s.tryRead hp ctx memb 8 with
  | .ok (bs, s) => (if bitOf (natOfBytes bs) 16 then .sys else .dev, s)
  | .error (_, s) => (.dev, s)

def State.postSlice (s : State) (i : Instr) (h : Head) (w : Command) (r : SliceRef) (dove : Bool) (n : Nat) : State :=
  let x := s.slice r
  let t := s.team r.tid
  let o := { newColl s.mem.nextOp (s.sliceHalf r) t.hp t.ctx none r dove n x.tag with
               token := h.d.toNat % 8, nt := w.flg.getLsbD 0, pc := x.pc, inst := instrWord i }
  let (sc, s) := s.collScope t.hp t.ctx o.memb
  let s := s.addColl o
  let s := s.addOp (newOp s r i .r sc (.collIssue o.oid) [] false false none)
  s.modSlice r fun x => x.setToken o.token sc

def dvtSlice (i : Instr) (h : Head) (w : Command) (dove : Bool) (s : State) (r : SliceRef) : SliceStep :=
  let x := s.slice r
  let t := s.team r.tid
  if !x.sliceOn h.gp h.gn then skipSlice i s r
  else if s.squareFull (s.clusterOf r) [] || !(s.collRoom (s.sliceHalf r) t.hp t.ctx) then .stall .retry
  else
    let ea := (x.getPair (h.a.toNat - 128)).toNat
    let (c, s') := s.checkLanes r .read 64 (fun _ => false) [(0, ea)]
    match c with
    | .ok accs =>
      let o := newOp s' r i .l .dev (.load .b128 true 0) (accs.map fun a => a.elem 64 [] []) false (s'.anyHost t.hp accs) none
      if s'.mustWait o false then .stall .retry
      else
        let (xs, s) := State.readLanes { s'.loadOf r false 0 with via := if o.host || s'.anyMsa accs then .home else .l1, client := .none } 64 s' accs
        match poisonFault xs with
        | some f => .ok s (.trap { f with lanes := 15 } none)
        | none =>
          let n := natOfBytes (xs.flatMap fun p => p.2.getD [])
          if s.recordBad t.hp t.ctx dove n then .ok s (.trap (faultAll causeRemote 0x11 0) none)
          else .ok (s.postSlice i h w r dove n) (.go (nextPc i x.pc))
    | .fault f => .ok s' (.trap { f with lanes := 15 } none)
    | .absent fids _ addr => .ok s' (.park (.fault fids 15 (BitVec.ofNat 64 addr)))

def dvtInfo (h : Head) : Info :=
  { Head.info h (regGroup true 2 (h.a.toNat - 128) ++ guardRegs h) with token := some (h.d.toNat % 8) }

/-- DVT (R423): Posts a Dovetail from a record in memory. -/
def execXvDvt (h : Head) (w : Command) (s : State) : Host.Outcome State Fault Refusal :=
  let i : Instr := .xvDvt h w
  issueSlices i (dvtInfo h) (dvtSlice i h w true) s

/-- COLL (R423): Posts a collective reduction from a record in memory. -/
def execXvColl (h : Head) (w : Command) (s : State) : Host.Outcome State Fault Refusal :=
  let i : Instr := .xvColl h w
  issueSlices i (dvtInfo h) (dvtSlice i h w false) s

end Sys2Proof.Machine
end

