-- ==== Sys2Proof/Machine/Retry.lean ====
section
/-! DEFINITION. Fault records and the answers of system software (06 R175 to R177, 11 R340). -/

namespace Sys2Proof.Machine

/-- The record of R176. -/
def faultRecord (f : FaultRec) (tag time : Nat) : List Byte :=
  bytesOfNat 8 f.va
    ++ bytesOfNat 8 (f.level + (if f.mig then 8 else 0) + f.access * 2 ^ 4 + f.source * 2 ^ 8 + tag * 2 ^ 16 + f.unit_ * 2 ^ 32)
    ++ bytesOfNat 8 (f.team + f.bent * 2 ^ 32 + f.slice * 2 ^ 40)
    ++ bytesOfNat 8 time

/-- The fault queue has room (11 R340). -/
def Ccb.faultRoom (c : Ccb) : Bool := decide ((c.fqwr - c.fqrd).toNat < 2 ^ c.fqlog)

def Ccb.faultUsable (c : Ccb) : Bool := decide (4 ≤ c.fqlog ∧ c.fqlog ≤ 16)

/-- The tag is unique among unanswered records of its context. -/
def State.tagFree (s : State) (hp ctx tag : Nat) : Bool :=
  !(s.mem.faults.any fun f => f.hp == hp && f.ctx == ctx && f.tag == some tag)

def State.pickTag (s : State) (hp ctx : Nat) : Nat :=
  (firstFrom (fun t => s.tagFree hp ctx (t % 2 ^ 16)) (s.mem.faults.length + 1) s.mem.nextTag.toNat).getD 0 % 2 ^ 16

/-! ## Answers (R177) -/

/-- A requester no longer waits for a record. -/
def without (fid : Nat) (fids : List Nat) : List Nat := fids.filter (· != fid)

def Wait.answered (fid : Nat) : Wait → Wait
  | .fault fids lanes addr => if without fid fids = [] then .none else .fault (without fid fids) lanes addr
  | w => w

def Wait.waitsFor (fid : Nat) : Wait → Bool
  | .fault fids _ _ => fids.contains fid
  | _ => false

def Slice.answered (fid : Nat) (x : Slice) : Slice := { x with wait := x.wait.answered fid }
def TileSeq.answered (fid : Nat) (q : TileSeq) : TileSeq := { q with waits := without fid q.waits }
def Team.answered (fid : Nat) (t : Team) : Team := { t with seq := t.seq.answered fid, seq1 := t.seq1.answered fid }

/-- An entry that waited for its descriptor is prepared again. -/
def Entry.answered (fid : Nat) (e : Entry) : Entry := if e.stage = 5 ∧ e.until_ = fid then { e with stage := 3 } else e

/-- FAIL = 0: every requester attached to the record tries again. -/
def State.retryFault (s : State) (fid : Nat) : State :=
  { s with
    slices := s.slices.map fun p => (p.1, p.2.answered fid)
    teams := s.teams.map fun p => (p.1, p.2.answered fid)
    copy := { s.copy with copies := s.copy.copies.map (fun c => { c with waits := without fid c.waits })
                          scrubs := s.copy.scrubs.map (fun x => { x with waits := without fid x.waits }) }
    dist := { s.dist with entries := s.dist.entries.map (Entry.answered fid)
                          savedCopies := s.dist.savedCopies.map fun p => (p.1, p.2.map fun c => { c with waits := without fid c.waits }) }
    coll := { s.coll with ops := s.coll.ops.map fun o => { o with waits := without fid o.waits } }
    mem := { s.mem with faults := s.mem.faults.filter fun f => f.fid != fid } }

def refOfKey (k : Nat) : SliceRef := { tid := k / 512, bent := k / 8 % 64, sl := k % 8 }

/-- A slice's wait ends with XLATE on its instruction. -/
def State.failSlice (s : State) (r : SliceRef) : State :=
  match (s.slice r).wait with
  | .fault _ lanes addr => s.faultAt r { cause := causeXlate, sub := 0, lanes := lanes, addr := addr }
  | _ => s

def failSlices : State → List SliceRef → State
  | s, [] => s
  | s, r :: rs => failSlices (s.failSlice r) rs

/-- A copy that failed completes in error with status 7. -/
def Copy.failed (fid : Nat) (c : Copy) : Copy :=
  if c.waits.contains fid then { c.fail 7 c.failva with waits := [], abandoned := false } else c

def failScrubs : State → List Scrub → State
  | s, [] => s
  | s, x :: xs => failScrubs (s.endScrub x true) xs

/-- A matrix command that waited fails with subcode 3 (10 R331). -/
def State.failHead (s : State) (fid : Nat) (p : Nat × Nat) : State :=
  let t := s.team p.1
  let q := t.seqOf p.2
  match t.queueOf p.2 with
  | c :: _ => if q.waits.contains fid then s.failTile p.1 p.2 c 3 q.failva else s
  | [] => s

def failHeads (fid : Nat) : State → List (Nat × Nat) → State
  | s, [] => s
  | s, p :: ps => failHeads fid (s.failHead fid p) ps

/-- A copy packet whose descriptor could not be read. -/
def State.failDesc (s : State) (f : FaultRec) (e : Entry) : State :=
  let va := e.field 447 384
  s.failPacketCopy e 7 (if faultKey f.level va = f.va then va else va + 64)

def failDescs (f : FaultRec) : State → List Entry → State
  | s, [] => s
  | s, e :: es => failDescs f (s.failDesc f e) es

/-- A collective that waited ends with FAULT; for its status record, as step 2 of 13 R411 says of one that cannot be
written. -/
def State.failWaiting (s : State) (o : CollOp) : State :=
  if o.stage = 3 ∨ o.finished then
    (s.bumpErr 23).endColl { o with waits := [] } (if o.finalStatus = 0 then 0x15 else o.finalStatus)
  else s.failColl o 0x15 [] (!o.members.isEmpty)

def failWaitings : State → List CollOp → State
  | s, [] => s
  | s, o :: os => failWaitings (s.failWaiting o) os

/-- FAIL = 1: every wait attached to the record ends in an error. -/
def State.failFault (s : State) (f : FaultRec) : State :=
  let fid := f.fid
  let s := { s with mem := { s.mem with faults := s.mem.faults.filter fun g => g.fid != fid } }
  let s := failSlices s ((s.slices.filter fun p => p.2.wait.waitsFor fid).map fun p => refOfKey p.1)
  let s := { s with copy := { s.copy with copies := s.copy.copies.map (Copy.failed fid) }
                    dist := { s.dist with savedCopies := s.dist.savedCopies.map fun p => (p.1, p.2.map (Copy.failed fid)) } }
  let s := failScrubs s (s.copy.scrubs.filter fun x => x.waits.contains fid)
  let s := failHeads fid s (s.teams.flatMap fun p => [(p.1, 0), (p.1, 1)])
  let s := failDescs f s (s.dist.entries.filter fun e => e.stage == 5 && e.until_ == fid)
  failWaitings s (s.coll.ops.filter fun o => o.waits.contains fid)

/-- FAULT_RECORD_POST (R176): The L2 TLB posts a fault record to the context's fault queue when it has room. With
an unusable queue, or a write that fails, the fault is answered as if with FAIL = 1 (11 R340). -/
def execEvFaultRecordPost (fid : Nat) (s : State) : Host.Outcome State Fault Refusal :=
  match s.mem.faults.find? fun f => f.fid == fid && f.tag.isNone with
  | none => .next s
  | some f =>
    let c := s.ccb f.hp f.ctx
    if !c.faultUsable then .next ((s.bumpErr 23).failFault f)
    else if !c.faultRoom then .next s
    else
      let tag := s.pickTag f.hp f.ctx
      match s.writeVirt f.hp f.ctx (c.fqbase.toNat + 32 * (c.fqwr.toNat % 2 ^ c.fqlog)) (faultRecord f tag s.ns) with
      | (false, s) => .next ((s.bumpErr 23).failFault f)
      | (true, s') =>
        let s' := s'.setCcb f.hp f.ctx { s'.ccb f.hp f.ctx with fqwr := c.fqwr + 1 }
        .next { s' with mem := { s'.mem with
          nextTag := BitVec.ofNat 16 (tag + 1)
          faults := s'.mem.faults.map fun g => if g.fid = fid then { g with tag := some tag } else g } }

/-- The record that a tag names. -/
def State.taggedFault (s : State) (hp ctx tag : Nat) : Option FaultRec :=
  s.mem.faults.find? fun f => f.hp == hp && f.ctx == ctx && f.tag == some tag

/-- RETRY_RETRY (R177): A retry command with FAIL = 0 makes every attached requester retry. -/
def execEvRetryRetry (hp ctx tag : Nat) (s : State) : Host.Outcome State Fault Refusal :=
  match s.taggedFault hp ctx tag with
  | none => .next (s.bumpErr 12)
  | some f => .next (s.retryFault f.fid)

/-- RETRY_FAIL (R177): A retry command with FAIL = 1 ends attached waits with XLATE or an engine error. -/
def execEvRetryFail (hp ctx tag : Nat) (s : State) : Host.Outcome State Fault Refusal :=
  match s.taggedFault hp ctx tag with
  | none => .next (s.bumpErr 12)
  | some f => .next (s.failFault f)

end Sys2Proof.Machine
end

