-- ==== Sys2Proof/Machine/Context.lean ====
section
/-! DEFINITION. Contexts: their control, save, restore and kill, and arrivals redirected to an image (11 R340, R358 to
R366, 08 R286, R287). -/

namespace Sys2Proof.Machine

/-! ## Control (R340) -/

/-- The word at offset 0 of a control block takes a write: EN while idle, the others while idle or saved. -/
def Ccb.writeControl (c : Ccb) (v : Nat) : Ccb :=
  let c := if c.state = 0 ∨ c.state = 3 then
      { c with ptag := bitOf v 1, migth := BitVec.ofNat 3 (bitsOf v 4 2), tlogon := bitOf v 5, err := c.err && !(bitOf v 10) }
    else c
  if c.state = 0 then { c with en := bitOf v 0 } else c

/-- CTX_EN_WRITE (R340): Setting EN reads the tables and starts the context running. -/
def execEvCtxEnWrite (hp ctx : Nat) (v : Quad) (s : State) : Host.Outcome State Fault Refusal :=
  let old := s.ccb hp ctx
  let c := old.writeControl v.toNat
  if c.en && !old.en then .next ((s.setCcb hp ctx { c with state := 1 }).readQueueTable hp ctx) else .next (s.setCcb hp ctx c)

/-- FQRD_WRITE (R340): Software consumes fault records by advancing FQRD. -/
def execEvFqrdWrite (hp ctx : Nat) (v : Word) (s : State) : Host.Outcome State Fault Refusal :=
  let c := s.ccb hp ctx
  .next (if (c.fqwr - v).toNat ≤ 2 ^ c.fqlog then s.setCcb hp ctx { c with fqrd := v } else s)

def State.ctxError (s : State) (hp ctx : Nat) : State := s.setCcb hp ctx { s.ccb hp ctx with err := true }

def State.setSaving (s : State) (hp ctx n : Nat) : State := { s with dist := { s.dist with saving := smPut 0 (ccbKey hp ctx) n s.dist.saving } }

/-- CTX_SAVE (R358): CMD SAVE starts draining the context. -/
def execEvCtxSave (hp ctx : Nat) (s : State) : Host.Outcome State Fault Refusal :=
  let c := s.ccb hp ctx
  if c.state ≤ 1 ∧ s.imageNeed hp ctx ≤ c.imglen.toNat then
    let s := s.setCcb hp ctx { c with state := 2 }
    .next { s with dist := { s.dist with drainEnd := smPut 0 (ccbKey hp ctx) (s.ns + 1000 * c.drainlim.toNat) s.dist.drainEnd } }
  else .next (s.ctxError hp ctx)

/-! ## The image written -/

/-- Writes in pieces of a page; a piece that cannot be written is lost. -/
def State.writePieces (hp ctx : Nat) : Nat → State → Nat → List Byte → State
  | 0, s, _, _ => s
  | k + 1, s, va, bs =>
    if bs.isEmpty then s
    else
      let n := 4096 - va % 4096
      let s := s.putLost hp ctx (va % 2 ^ 64) (bs.take n) 0xFFFFFFFF 0
      State.writePieces hp ctx k s (va + n) (bs.drop n)

def State.writeAt (s : State) (hp ctx off : Nat) (bs : List Byte) : State :=
  State.writePieces hp ctx (bs.length / 4096 + 2) s ((s.ccb hp ctx).imgbase.toNat + off) bs

def State.readAt (s : State) (hp ctx off n : Nat) : Option (List Byte) × State :=
  match s.tryReadAll hp ctx ((s.ccb hp ctx).imgbase.toNat + off) n with
  | .ok (bs, s) => (some bs, s)
  | .error (c, s) => (none, s.countMiss c)

/-- Reads in pieces of a page; what cannot be read back is a free value. -/
def State.readPieces (hp ctx : Nat) : Nat → State → Nat → Nat → List Byte × State
  | 0, s, _, _ => ([], s)
  | k + 1, s, va, n =>
    if n = 0 then ([], s)
    else
      let m := min n (4096 - va % 4096)
      let (bs, s) := match s.tryRead hp ctx (va % 2 ^ 64) m with
        | .ok (bs, s) => (bs, s)
        | .error (c, s) => let s := s.countMiss c; ((List.range m).map fun i => Config.freeByte s.free (va + i), s)
      let (cs, s) := State.readPieces hp ctx k s (va + m) (n - m)
      (bs ++ cs, s)

/-- The entries of a context that have left the pool for an engine and have not started there. -/
def State.starting (s : State) (hp ctx : Nat) : Bool :=
  s.dist.entries.any fun e => e.hp == hp && e.ctx == ctx && (e.stage == 3 || e.stage == 5)

def State.residentOf (s : State) (hp ctx : Nat) : List Nat :=
  (s.teams.filter fun p => p.2.hp == hp && p.2.ctx == ctx && p.2.resident).map (·.1)

/-- The teams of a context that an image holds and that are not yet restored. -/
def State.savedOf (s : State) (hp ctx : Nat) : List Nat := smGet [] (ccbKey hp ctx) s.dist.savedTeams

/-- All work of a context has ended (R358 step 2). -/
def State.drained (s : State) (hp ctx : Nat) : Bool :=
  (s.residentOf hp ctx).isEmpty && (s.savedOf hp ctx).isEmpty && (s.ctxCopies hp ctx).isEmpty && !(s.starting hp ctx)
    && (s.coll.ops.all fun o => o.hp != hp || o.ctx != ctx) && (s.copy.scrubs.all fun x => x.hp != hp || x.ctx != ctx)
    && s.mem.migs.all fun m => m.hp != hp || m.ctx != ctx

def placeLaunches (hp ctx : Nat) : List Nat → List Launch → List Launch
  | o :: os, l :: ls => if l.hp = hp ∧ l.ctx = ctx then { l with imageOff := o } :: placeLaunches hp ctx os ls else l :: placeLaunches hp ctx (o :: os) ls
  | _, ls => ls

def placeTeams : State → List Nat → List Nat → State
  | s, t :: ts, o :: os => placeTeams (s.modTeam t fun x => { x with imageOff := o }) ts os
  | s, _, _ => s

/-- The records of teams that the context's image still holds. -/
def State.keptRecords (hp ctx : Nat) : State → List Nat → SMap (List Byte) × State
  | s, [] => ([], s)
  | s, tid :: tids =>
    let t := s.team tid
    let (bs, s) := State.readPieces hp ctx (t.recordBytes / 4096 + 2) s ((s.ccb hp ctx).imgbase.toNat + t.imageOff) t.recordBytes
    let (ks, s) := State.keptRecords hp ctx s tids
    ((tid, bs) :: ks, s)

/-- Writes the image of a context with these teams and copies; teams that wait to be restored keep their records. -/
def State.saveImage (s : State) (hp ctx : Nat) (teams : List Nat) (copies : List Copy) : State :=
  let y := s.layout hp ctx teams copies
  let (kept, s) := State.keptRecords hp ctx s (s.savedOf hp ctx)
  let s := { s.writeAt hp ctx 0 (s.imageBytes hp ctx y kept) with free := s.free + 1 }
  placeTeams { s with dist := { s.dist with launches := placeLaunches hp ctx y.launchOffs s.dist.launches } } teams y.teamOffs

/-- SAVE_DRAIN_DONE (R358): All started work has ended within the drain limit, and the image is written. -/
def execEvSaveDrainDone (hp ctx : Nat) (s : State) : Host.Outcome State Fault Refusal :=
  if (s.ccb hp ctx).state = 2 ∧ smGet 0 (ccbKey hp ctx) s.dist.saving = 0 ∧ s.drained hp ctx then
    .next ((s.saveImage hp ctx [] []).setSaving hp ctx 2)
  else .next s

/-! ## The forced save (R359) -/

/-- A team's slices stop issuing, and its engines stop at their next interruptible points. -/
def holdTeams : State → List Nat → State
  | s, [] => s
  | s, t :: ts =>
    if (s.team t).stopped then holdTeams s ts
    else holdTeams (((s.modTeam t fun x => { x with held := true }).haltTile t 0).haltTile t 1) ts

/-- A copy that the save abandons: not one of a team whose kill it must not hold up. -/
def State.abandonedBy (s : State) (hp ctx : Nat) (c : Copy) : Bool :=
  c.hp == hp && c.ctx == ctx && !c.placing && (c.eid.isSome || !(s.team c.ref.tid).stopped)

/-- FORCED_SAVE (R359): Expiry of the drain limit stops the context's slices and abandons copies. -/
def execEvForcedSave (hp ctx : Nat) (s : State) : Host.Outcome State Fault Refusal :=
  if (s.ccb hp ctx).state = 2 ∧ smGet 0 (ccbKey hp ctx) s.dist.saving = 0 then
    let s := s.reachNs (smGet 0 (ccbKey hp ctx) s.dist.drainEnd)
    let s := holdTeams s (s.residentOf hp ctx)
    .next (({ s with copy := { s.copy with copies := s.copy.copies.map (fun c =>
                if s.abandonedBy hp ctx c then { c with abandoned := c.abandoned || c.started } else c) } }.restClasses).setSaving hp ctx 1)
  else .next s

/-- Every arrival of an issue of barrier instructions has been sealed. -/
def State.arrivalsSealed (s : State) (grp : Nat) : Bool := s.mem.ops.all fun o => o.grp != grp || o.performed

/-- A slice that may be saved: its results are written, but for those of TRDs that wait in their team's queue (R95). -/
def State.sliceSettled (s : State) (r : SliceRef) : Bool :=
  let x := s.slice r
  (x.pend.all fun p => p.queued) && (x.trapWait.isNone || !x.pend.isEmpty) && x.moveTo.isNone &&
    (match x.wait with
     | .op _ => false
     | .arrival g => s.arrivalsSealed g
     | _ => true)

/-- An operation that a save leaves behind: the sealed issue of a copy or a tile command, a sealed arrival, or one that will
never be acknowledged. -/
def Op.keeps (o : Op) : Bool :=
  o.failed || (o.performed && (match o.kind with
    | .copyIssue _ => true
    | .barrier _ _ _ _ _ => true
    | .group _ _ => true
    | _ => false))

/-- A running tile command that a save completes first. -/
def Team.tileBusy (t : Team) (half : Nat) : Bool :=
  (t.seqOf half).phase == 4 || (match t.queueOf half with | c :: _ => c.kind == 4 && (t.seqOf half).started | [] => false)

def State.teamSettled (s : State) (tid : Nat) : Bool :=
  let t := s.team tid
  !t.stopped && (s.teamSlices tid).all s.sliceSettled && (s.mem.ops.all fun o => o.ref.tid != tid || o.keeps) && !(s.teamColl tid)
    && !(t.tileBusy 0) && !(t.tileBusy 1) && s.copy.copies.all fun c => c.eid.isSome || c.ref.tid != tid || !c.placing

/-- A slice as it is saved: at the instruction that it waits at, past one whose arrivals are sealed, at its QUIET again, or at the
TPC of a fault that waits; with no window open (03 R95). -/
def Slice.settled (x : Slice) : Slice :=
  let pc := match x.trapWait, x.wait with
    | some w, _ => w.tpc
    | none, .quiet _ _ _ => x.pc - 12
    | none, _ => x.pc
  { x.closeWindows with pc := pc, wait := .none }

def State.settleSlices (s : State) (tids : List Nat) : State :=
  { s with slices := s.slices.map fun p => if tids.contains (p.1 / 512) then (p.1, p.2.settled) else p }

/-- What is left of a team on the device: nothing but its place in the launch. -/
def Team.leave (t : Team) : Team :=
  { t with away := true, held := false, scratch := [], paired := [], remote := [], plate := [], tiles := [] }

def leaveTeams : State → List Nat → State
  | s, [] => s
  | s, t :: ts => leaveTeams ((s.modTeam t Team.leave)) ts

/-- The group entries of a context leave the unit. -/
def State.freeGroups (s : State) (hp ctx : Nat) : State :=
  let mine := (s.ctxLaunches hp ctx).map (·.lid)
  { s with sync := { s.sync with groups := s.sync.groups.filter fun p => !(mine.contains p.1) } }

/-- The image is written and the teams and copies leave the device. -/
def State.forceImage (s : State) (hp ctx : Nat) : State :=
  let tids := s.residentOf hp ctx
  let s := s.settleSlices tids
  let copies := s.ctxCopies hp ctx
  let waiting := s.savedOf hp ctx
  let s := s.saveImage hp ctx (tids ++ waiting) copies
  let cids := copies.map (·.cid)
  let s := leaveTeams s tids
  let s := { s with
    gangs := s.gangs.filter fun p => !(tids.contains (p.1 / 64))
    mem := { s.mem with ops := s.mem.ops.filter (fun o => !(tids.contains o.ref.tid) || (match o.kind with | .copyIssue _ => false | _ => true))
                        ranges := s.mem.ranges.filter fun e => !(cids.contains e.cid) }
    copy := { s.copy with copies := s.copy.copies.filter fun c => !(cids.contains c.cid) } }
  let key := ccbKey hp ctx
  { s with dist := { s.dist with savedTeams := smPut [] key (tids ++ waiting) s.dist.savedTeams
                                 savedCopies := smPut [] key (copies.map fun c => { c with abandoned := true, started := true }) s.dist.savedCopies } }

/-- STATE becomes saved, and the context vector is raised (R358 step 5). -/
def State.endSave (s : State) (hp ctx : Nat) : State :=
  let s := (s.freeGroups hp ctx).setCcb hp ctx { s.ccb hp ctx with state := 3 }
  let key := ccbKey hp ctx
  ({ s with dist := { s.dist with saving := smPut 0 key 0 s.dist.saving, drainEnd := smPut 0 key 0 s.dist.drainEnd } }.devIrq 0)

/-- A forced save has nothing more to wait for. -/
def State.forcedReady (s : State) (hp ctx : Nat) : Bool :=
  (s.residentOf hp ctx).all s.teamSettled && !(s.starting hp ctx) && (s.copy.scrubs.all fun x => x.hp != hp || x.ctx != ctx)
    && s.mem.migs.all fun m => m.hp != hp || m.ctx != ctx

/-- SAVE_COMPLETE (R358): The image is written, resources are freed, STATE becomes saved and an interrupt is raised. -/
def execEvSaveComplete (hp ctx : Nat) (s : State) : Host.Outcome State Fault Refusal :=
  if (s.ccb hp ctx).state ≠ 2 then .next s
  else
    match smGet 0 (ccbKey hp ctx) s.dist.saving with
    | 2 => .next (s.endSave hp ctx)
    | 1 => if s.forcedReady hp ctx then .next ((s.forceImage hp ctx).endSave hp ctx) else .next s
    | _ => .next s

/-! ## Restore (R363) -/

/-- SIZE of an image whose header passes. -/
def headerSize (n len : Nat) : Option Nat :=
  if bitsOf n 31 0 = imageMagic ∧ bitsOf n 47 32 = 1 ∧ bitsOf n 127 64 ≤ len then some (bitsOf n 127 64) else none

def State.readImage (s : State) (hp ctx : Nat) : Option (List Byte) × State :=
  let (hd, s) := s.readAt hp ctx 0 256
  match hd.bind fun hd => headerSize (natOfBytes hd) (s.ccb hp ctx).imglen.toNat with
  | none => (none, s)
  | some n =>
    let (bs, s) := State.readPieces hp ctx (n / 4096 + 2) s (s.ccb hp ctx).imgbase.toNat n
    (some bs, s)

/-- A saved team on clusters with room. -/
def State.placeSaved (s : State) (tid : Nat) : Option Team :=
  let t := s.team tid
  match s.launch? t.launch with
  | some l => s.placeTeam t (s.launchPairs l)
  | none => s.placeTeam t (s.pairsOf t.hp)

/-- Restores the saved teams that fit; the others wait. -/
def restoreTeams (bs : List Byte) : State → List Nat → State
  | s, [] => s
  | s, tid :: tids =>
    match s.placeSaved tid with
    | none => restoreTeams bs s tids
    | some t =>
      let key := ccbKey t.hp t.ctx
      let left := (s.savedOf t.hp t.ctx).filter (· != tid)
      restoreTeams bs ({ s with dist := { s.dist with savedTeams := smPut [] key left s.dist.savedTeams } }.loadTeam tid t bs) tids

/-- ARRIVED and DROPPED of the saved teams. -/
def loadHeaders (bs : List Byte) : State → List Nat → State
  | s, [] => s
  | s, tid :: tids =>
    let n := natOfBytes (bytesAt bs (s.team tid).imageOff 32)
    loadHeaders bs (s.modTeam tid fun t => { t with arrived := BitVec.ofNat 4 (bitsOf n 131 128), dropped := BitVec.ofNat 4 (bitsOf n 135 132) }) tids

/-- CTX_RESTORE (R363): CMD RESTORE checks and reloads the context image. -/
def execEvCtxRestore (hp ctx : Nat) (s : State) : Host.Outcome State Fault Refusal :=
  let c := s.ccb hp ctx
  if c.state ≠ 3 then .next (s.ctxError hp ctx)
  else
    match s.readImage hp ctx with
    | (none, s) => .next (s.ctxError hp ctx)
    | (some bs, s) =>
      let key := ccbKey hp ctx
      let s := (s.setCcb hp ctx { c with state := 1, en := true }).readQueueTable hp ctx
      let s := State.loadGroups bs s (s.ctxLaunches hp ctx)
      let s := loadHeaders bs s (s.savedOf hp ctx)
      let s := { s with copy := { s.copy with copies := s.copy.copies ++ smGet [] key s.dist.savedCopies }
                        dist := { s.dist with savedCopies := smPut [] key [] s.dist.savedCopies } }
      .next (restoreTeams bs { s with free := s.free + 1 } (s.savedOf hp ctx))

/-- TEAM_START (R344, R354, R363): A team starts on a chosen cluster pair with its initial state and zeroed memory; a saved team of the
launch that had to wait for room comes first. -/
def execEvTeamStart (launch : Nat) (s : State) : Host.Outcome State Fault Refusal :=
  match s.launch? launch with
  | none => .next s
  | some l =>
    match (if s.running l.hp l.ctx then (s.savedOf l.hp l.ctx).find? fun t => (s.team t).launch == launch && (s.placeSaved t).isSome else none) with
    | none => .next (s.startNext l)
    | some tid =>
      match s.readImage l.hp l.ctx with
      | (some bs, s) => .next (restoreTeams bs { s with free := s.free + 1 } [tid])
      | (none, s) => .next s

/-! ## Arrivals for a saved team (08 R287) -/

def Team.wordAt (t : Team) (half off : Nat) : Nat := t.imageOff + 256 + t.slicesLen + half * t.desc.scratch + off
def Team.shadowAt (t : Team) (half off : Nat) : Nat :=
  t.imageOff + 256 + t.slicesLen + t.halves.length * t.desc.scratch + half * roundUp (t.desc.scratch / 32) + off / 32
def Team.sliceAt (t : Team) (r : SliceRef) : Nat :=
  t.imageOff + 256 + ((List.range r.bent).map fun b => 8 * sliceBytes (t.budget b)).sum + r.sl * sliceBytes (t.budget r.bent)

/-- A word of a saved team's image with its shadow bits, in each half. -/
def fetchBarWords (off : Nat) (tid : Nat) : State → List Nat → State
  | s, [] => s
  | s, h :: hs =>
    let t := s.team tid
    let (w, s) := s.readAt t.hp t.ctx (t.wordAt h off) 8
    let (b, s) := s.readAt t.hp t.ctx (t.shadowAt h off) 1
    let b := natOfBytes (b.getD [0]) / 4 ^ (off / 8 % 4)
    fetchBarWords off tid (s.setTeam tid (((t.putScratch h off (w.getD (zeroBytes 8))).setPaired h off (bitOf b 0)).setRemote h off (bitOf b 1))) hs

/-- Writes them back, and takes them from the device. -/
def returnWords (off : Nat) (tid : Nat) : State → List Nat → State
  | s, [] => s
  | s, h :: hs =>
    let t := s.team tid
    let at_ := t.shadowAt h off
    let k := off / 8 % 4
    let (old, s) := s.readAt t.hp t.ctx at_ 1
    let old := natOfBytes (old.getD [0])
    let new := setBits old (2 * k + 1) (2 * k) (shadowBit t h (off / 8))
    let s := (s.writeAt t.hp t.ctx (t.wordAt h off) (t.scratchBytes h off 8)).writeAt t.hp t.ctx at_ (bytesOfNat 1 new)
    returnWords off tid (s.modTeam tid fun t => ((t.putScratch h off (zeroBytes 8)).setPaired h off false).setRemote h off false) hs

/-- Writes the records of the slices that an arrival has changed. -/
def returnSlices (before : State) : State → List SliceRef → State
  | s, [] => s
  | s, r :: rs =>
    let t := s.team r.tid
    if s.slice r = before.slice r then returnSlices before s rs
    else returnSlices before (s.writeAt t.hp t.ctx (t.sliceAt r) ((s.slice r).image (t.budget r.bent))) rs

/-- Applies a step of the sync engine to a saved team's image. -/
def State.redirected (s : State) (tid off : Nat) (f : State → State) : State :=
  let hs := (s.team tid).halves
  let s' := f (fetchBarWords off tid s hs)
  let s' := { s' with gangs := s'.gangs.filter fun p => p.1 / 64 != tid }
  returnSlices s (returnWords off tid s' hs) (s.teamSlices tid)

/-- ARRIVED and DROPPED of a saved team, written to its image. -/
def writeHeaders : State → List Nat → State
  | s, [] => s
  | s, tid :: tids =>
    let t := s.team tid
    writeHeaders (s.writeAt t.hp t.ctx (t.imageOff + 16) (bytesOfNat 1 (t.arrived.toNat + 16 * t.dropped.toNat))) tids

/-- A group arrival after the unit has written its entries to the image. -/
def State.redirectGroup (s : State) (o : Op) (slot : Nat) (drop : Bool) : State :=
  let t := s.team o.ref.tid
  match s.launch? t.launch with
  | none => s
  | some l =>
    let held := smGet [] l.lid s.sync.groups
    let s := if held.isEmpty then (let (bs, s) := s.readImage l.hp l.ctx; State.loadGroups (bs.getD []) s [l]) else s
    let s := s.groupStep o slot drop
    let s := { s with gangs := s.gangs.filter fun p => p.1 / 64 != o.ref.tid }
    let s := writeHeaders s (s.savedOf l.hp l.ctx)
    if held.isEmpty then
      let s := s.writeAt l.hp l.ctx (l.imageOff + 256) ((smGet [] l.lid s.sync.groups).flatMap fun e => bytesOfNat 8 (groupWord e))
      { s with sync := { s.sync with groups := smDel l.lid s.sync.groups } }
    else s

/-- REDIRECTED_ARRIVAL (08 R287): An arrival for a saved team is applied to its barrier image. -/
def execEvRedirectedArrival (op : Nat) (s : State) : Host.Outcome State Fault Refusal :=
  match s.op? op with
  | none => .next s
  | some o =>
    let tid := o.ref.tid
    if !o.performed || !(s.team tid).away then .next s
    else
      match o.kind with
      | .barrier what half off flag v =>
        .next (s.redirected tid off fun s =>
          let half' := s.arrivalHalf o.ref what half off
          if what ≤ 1 then
            let all := s.sameWord o what half off
            let refs := all.map (·.ref)
            (dropOps s all).countArrival o refs half' off (if flag then 1 else all.length) flag (what == 1)
          else if what = 2 then (s.dropOp o.id).bari tid half' off flag v.toNat
          else (s.dropOp o.id).barx tid half' off)
      | .group slot drop =>
        let s' := (s.dropOp o.id).redirectGroup o slot drop
        .next (returnSlices s s' (s.teamSlices tid))
      | _ => .next s

/-- HALFDONE for a saved team (08 R272, R287): its other half's completion reaches the image. -/
def State.halfdoneAway (s : State) (tid half off : Nat) : State :=
  s.redirected tid off fun s => s.modTeam tid fun t => ({ t with halfdone := removeFirst (half, off) t.halfdone }).takeHalfdone half off

/-- HALFDONE (08 R272, R287): The other half of a pair barrier reports its local completion; for a saved team, to its image. -/
def execEvHalfdone (tid half off : Nat) (s : State) : Host.Outcome State Fault Refusal :=
  let t := s.team tid
  if !(t.halfdone.contains (half, off)) then .next s
  else if t.away then .next (s.halfdoneAway tid half off)
  else .next ((s.setTeam tid (({ t with halfdone := removeFirst (half, off) t.halfdone }).takeHalfdone half off)).wakeTeam tid (waitsOn half off))

/-! ## The kill of a context (R366) -/

def killTeams : State → List Nat → State
  | s, [] => s
  | s, t :: ts => killTeams ((s.modTeam t fun x => { x with held := false }).stopTeam t 0xFF) ts

/-- A saved copy completes with status 11. -/
def State.killSaved (s : State) (c : Copy) : State :=
  let c := c.fail 11 0
  let s := s.logCopy c
  match c.eid with
  | none => s.advance c.hp c.ctx c.tlid c.tlval.toNat true { kind := 1, source := 0xFFFFFFFF, where_ := 0 }
  | some eid => match s.entry? eid with | some e => s.completeEntry e true | none => s

/-- Saved teams are discarded with their image, and drop out of their groups (08 R276). -/
def dropSaved : State → List Nat → State
  | s, [] => s
  | s, tid :: tids =>
    let lid := (s.team tid).launch
    let s := leaveGroups tid s (List.range 4)
    let s := { s with slices := s.slices.filter fun p => p.1 / 512 != tid
                      teams := smDel tid s.teams
                      mem := { s.mem with ops := s.mem.ops.filter fun o => o.ref.tid != tid } }
    dropSaved (s.teamGone lid true) tids

/-- Entries that have not started, and WAITs, complete in error. -/
def Entry.killable (e : Entry) : Bool := e.stage != 4 || e.kind == 9

def endEntries : State → List Entry → State
  | s, [] => s
  | s, e :: es => endEntries (s.completeEntry e true) es

/-- Nodes not admitted are skipped. -/
def skipNodes (gid : Nat) : State → List Nat → State
  | s, [] => s
  | s, k :: ks => skipNodes gid (s.skipNode gid k) ks

def skipGraphs : State → List Graph → State
  | s, [] => s
  | s, g :: gs => skipGraphs (skipNodes g.gid s ((List.range g.nnode).filter fun k => smGet 0 k g.nodes == 0 || smGet 0 k g.nodes == 6)) gs

/-- The implicit drop of a team that is never started (08 R276). -/
def dropGroups (lid : Nat) : State → List Nat → State
  | s, [] => s
  | s, g :: gs =>
    dropGroups lid (match (smGet [] lid s.sync.groups)[g]? with
      | some e => (s.setGroup lid g { e with next := e.next - 1, pending := e.pending - 1 }).closeGroup lid g
      | none => s) gs

/-- The drops of the teams that a cancelled launch has not started. -/
def dropUnstarted : State → List Launch → State
  | s, [] => s
  | s, l :: ls => dropUnstarted (dropGroups l.lid s (l.slots.drop l.next).flatten) ls

def State.stopLaunches (s : State) (hp ctx : Nat) : State :=
  let s := dropUnstarted s (s.ctxLaunches hp ctx)

  { s with dist := { s.dist with launches := s.dist.launches.map fun l => if l.hp = hp ∧ l.ctx = ctx then { l with next := l.total, killed := true } else l } }

/-- Each queue of the context enters the error state at its RDIDX. -/
def stopQueues (hp ctx : Nat) : State → List Nat → State
  | s, [] => s
  | s, q :: qs =>
    let s := match (s.userQueue hp ctx q).map (s.queueHead hp ctx) with
      | some (some (idx, _), s) => s.queueError hp ctx q idx
      | some (none, s) => s
      | none => s
    stopQueues hp ctx s qs

/-- CTX_KILL (R366): CMD KILL kills every team and discards every pending item in error. -/
def execEvCtxKill (hp ctx : Nat) (s : State) : Host.Outcome State Fault Refusal :=
  let c := s.ccb hp ctx
  let key := ccbKey hp ctx
  if c.state = 0 then .next (s.ctxError hp ctx)
  else
    let s := killTeams s (s.residentOf hp ctx)
    let s := (smGet [] key s.dist.savedCopies).foldl State.killSaved s
    let s := dropSaved s (s.savedOf hp ctx)
    let s := s.stopLaunches hp ctx
    let s := endEntries s (s.dist.entries.filter fun e => e.hp == hp && e.ctx == ctx && e.killable)
    let s := skipGraphs s (s.dist.graphs.filter fun g => g.hp == hp && g.ctx == ctx)
    let s := stopQueues hp ctx s ((s.dist.queues.filter fun p => p.1 / 65536 == key).map fun p => p.1 % 65536)
    let s := s.killColls hp ctx
    let s := s.setCcb hp ctx { s.ccb hp ctx with state := 0, en := false }
    .next { s with
      dist := { s.dist with savedTeams := smPut [] key [] s.dist.savedTeams, savedCopies := smPut [] key [] s.dist.savedCopies
                            saving := smPut 0 key 0 s.dist.saving, drainEnd := smPut 0 key 0 s.dist.drainEnd }
      fab := { s.fab with ctxs := smPut CtxFab.reset key { smGet CtxFab.reset key s.fab.ctxs with rxen := false } s.fab.ctxs } }

end Sys2Proof.Machine
end

