-- ==== Sys2Proof/Machine/HostEvents.lean ====
section
/-! DEFINITION. Power, partitions, keys, trusted interfaces and Glomel (01 R16 to R19, 14 R424 to R437). -/

namespace Sys2Proof.Machine


/-- The state that an outcome leaves. -/
def nextOr (s : State) : Host.Outcome State Fault Refusal → State
  | .next t => t
  | _ => s

/-! ## Performance steps (R435, 01 R16 to R18) -/

/-- A change of a die's step begins: issue is held until it has relocked. -/
def State.startStep (s : State) (die step : Nat) : State :=
  if smGet 0 die s.dev.steps = step then s
  else s.withDev { s.dev with steps := smPut 0 die step s.dev.steps, relock := smPut false die true s.dev.relock }

/-- One die's field of a write: 6 and 7 are refused; during a change the value is held. -/
def State.writeStep (s : State) (die step : Nat) : State :=
  if step ≥ 6 then s.withDev { s.dev with stepErr := true }
  else if smGet false die s.dev.relock then s.withDev { s.dev with stepHeld := smPut 0 die (step + 1) s.dev.stepHeld }
  else s.startStep die step

def writeSteps (v : Nat) : State → List Nat → State
  | s, [] => s
  | s, n :: ns => writeSteps v (s.writeStep n (bitsOf v (4 * n + 2) (4 * n))) ns

/-- PSTEP_WRITE (R435): Commands performance steps for compute dies. -/
def execEvPstepWrite (v : Quad) (s : State) : Host.Outcome State Fault Refusal :=
  let s := s.withDev { s.dev with stepErr := s.dev.stepErr && !(v.getLsbD 32) }
  .next (writeSteps v.toNat s (List.range Config.computeDies))

/-- STEP_RELOCK_DONE (01 R18): A compute die's clocks relock and it resumes issue. A held write is applied after. -/
def execEvStepRelockDone (die : Nat) (s : State) : Host.Outcome State Fault Refusal :=
  if smGet false die s.dev.relock then
    let h := smGet 0 die s.dev.stepHeld
    let s := s.withDev { s.dev with relock := smPut false die false s.dev.relock, stepHeld := smPut 0 die 0 s.dev.stepHeld }
    .next (if h = 0 then s else s.startStep die (h - 1))
  else .next s

/-! ## The thermal trip and the resets (01 R19, R435) -/

/-- 110 °C in sixteenths. -/
def tripTemp : Nat := 1760

/-- THERM of a trip. -/
def thermOf (die : Nat) (temp : Half) (us : Nat) : Quad :=
  BitVec.ofNat 64 (1 + die % 32 * 2 ^ 1 + temp.toNat * 2 ^ 16 + us % 2 ^ 32 * 2 ^ 32)

/-- THERMAL_TRIP (01 R19): A die reaching 110 °C stops all clocks but Glomel's. -/
def execEvThermalTrip (die : Nat) (temp : Half) (s : State) : Host.Outcome State Fault Refusal :=
  if temp.toNat < tripTemp then .next s
  else .next ((s.withDev { s.dev with therm := thermOf die temp (s.ns / 1000), tripped := true }).bumpErr 15)

/-- HOST_RESET (01 R19): A host reset resumes the device after a trip; THERM keeps its record. -/
def execEvHostReset (s : State) : Host.Outcome State Fault Refusal := .next (s.withDev { s.dev with tripped := false })

/-- POWER_ON_RESET (R435): Power-on reset returns every register to its reset value. What is to come, and the free values not yet
drawn, are no registers. -/
def execEvPowerOnReset (s : State) : Host.Outcome State Fault Refusal :=
  .next { State.reset with agenda := s.agenda, free := s.free }

/-! ## Hard partitions (R427) -/

def State.allIdle (s : State) : Bool := s.ccbs.all fun p => p.2.state == 0
def State.anyVault (s : State) : Bool := s.mem.vaults.any fun p => p.2.vault != 0

/-- PARTCFG_WRITE (R427): Changes the partition plan or ownership, or sets ERR. -/
def execEvPartcfgWrite (v : Quad) (s : State) : Host.Outcome State Fault Refusal :=
  let n := v.toNat
  let s := s.withDev { s.dev with planErr := s.dev.planErr && !(bitOf n 4) }
  if !s.allIdle || s.anyVault || s.dev.planBusy then .next (s.withDev { s.dev with planErr := true })
  else
    let plan := bitsOf n 2 0
    let s := s.withDev { s.dev with cxlown := BitVec.ofNat 16 (bitsOf n 31 16), lmown := BitVec.ofNat 32 (bitsOf n 63 32) }
    if plan > 4 then .next (s.withDev { s.dev with planErr := true })
    else if plan = s.dev.plan then .next s
    else .next (s.withDev { s.dev with plan := plan, planBusy := true })

/-- Near memory, the Sills included, holds zeros; every line that was used has a new interval, and no cache holds it. -/
def State.zeroNear (s : State) : State :=
  let near := fun (line : Nat) => decide (line < 0x8000000000 / 128)
  { s with mem := { s.mem with
      bytes := clearRange s.mem.bytes 0 0x8000000000
      poison := s.mem.poison.filter fun p => !(decide (p.1 < 0x8000000000 / 32))
      lines := s.mem.lines.map fun p => if near p.1 then (p.1, { interval := p.2.interval + 1, writer := none, readers := [], narrow := [] }) else p
      l1 := []
      l2 := (s.mem.l2.map fun p => (p.1, p.2.filter fun x => !(near x.line))).filter fun p => !p.2.isEmpty
      sill := [] } }

/-- PLAN_CHANGE_DONE (R427): Zeroing for a plan change ends and BUSY clears. -/
def execEvPlanChangeDone (s : State) : Host.Outcome State Fault Refusal :=
  .next (if s.dev.planBusy then s.zeroNear.withDev { s.dev with planBusy := false } else s)

/-! ## Keys (R428 to R430) -/

def State.keyRefused (s : State) : State := s.withDev { s.dev with keyErr := true }

/-- The key that a slot holds, once drawn (R429). -/
def KeySlot.key (x : KeySlot) : Option (BitVec 256) := if x.st = 1 ∧ x.imported.isNone then some (Config.freeKey x.draw) else none

structure KeyCmd where
  slot : Nat
  part : Nat
  handle : Nat

def keyCmd (v : Quad) : KeyCmd := { slot := bitsOf v.toNat 12 0, part := bitsOf v.toNat 17 16, handle := bitsOf v.toNat 47 32 }

/-- A command that is refused outright: to slot 0, or while BUSY (R429). -/
def State.keyBarred (s : State) (c : KeyCmd) : Bool := c.slot == 0 || s.dev.keyBusy

/-- PART names a hard partition, and the slot is EMPTY. -/
def State.mayLoad (s : State) (c : KeyCmd) : Bool := planDies s.dev.plan c.part != 0 && (s.keySlot c.slot).st == 0

/-- KEY_GENERATE (R429): Glomel draws a random key into a slot. -/
def execEvKeyGenerate (v : Quad) (s : State) : Host.Outcome State Fault Refusal :=
  let c := keyCmd v
  if s.keyBarred c || !(s.mayLoad c) then .next s.keyRefused
  else .next ({ s with free := s.free + 1 }.setKey c.slot { st := 1, part := c.part, draw := s.free, imported := none })

/-- KEY_DESTROY (R430): Starts destruction of a key slot. -/
def execEvKeyDestroy (v : Quad) (s : State) : Host.Outcome State Fault Refusal :=
  let c := keyCmd v
  if s.keyBarred c || (s.keySlot c.slot).st != 1 || s.boundInRun c.slot then .next s.keyRefused
  else .next (s.destroySlots [c.slot])

/-- KEY_CLEAR (R429): Returns a destroyed slot to EMPTY. -/
def execEvKeyClear (v : Quad) (s : State) : Host.Outcome State Fault Refusal :=
  let c := keyCmd v
  if s.keyBarred c || (s.keySlot c.slot).st != 2 || s.boundInRun c.slot then .next s.keyRefused
  else .next (s.setKey c.slot KeySlot.empty)

/-- A cluster's caches lose what the doomed slots tag: buffered stores are discarded, and count as performed. -/
def dropTagged (ks : List Nat) (p : Nat × L1) : Nat × L1 :=
  (p.1, { p.2 with sectors := p.2.sectors.filter fun x => !(ks.contains x.key), wbuf := p.2.wbuf.filter fun e => !(ks.contains e.key),
                   icache := p.2.icache.filter fun x => !(ks.contains x.2.key) })

def State.dropKeys (s : State) (ks : List Nat) : State :=
  let gone := (s.mem.l1.flatMap fun p => p.2.wbuf).filter fun e => ks.contains e.key
  let l1 := (s.mem.l1.map (dropTagged ks)).filter fun p => p.2 != L1.empty
  let left := l1.flatMap fun p => p.2.wbuf
  let l2 := (s.mem.l2.map fun p => (p.1, p.2.filter fun x => !(ks.contains x.key))).filter fun p => !p.2.isEmpty
  let sill := (s.mem.sill.map fun p => (p.1, p.2.filter fun x => !(ks.contains x.key))).filter fun p => !p.2.isEmpty
  ({ s with mem := { s.mem with l1 := l1, l2 := l2, sill := sill, ops := s.mem.ops.map (markDrained s left gone) } }).retire

/-- KEY_DESTROY_DONE (R430): Every unit has dropped the slots' lines and BUSY clears. -/
def execEvKeyDestroyDone (s : State) : Host.Outcome State Fault Refusal :=
  if s.dev.keyBusy then
    let s := s.dropKeys s.dev.keyDoomed
    .next (s.withDev { s.dev with keyBusy := false, keyDoomed := [] })
  else .next s

/-! ## Security alarms (R434) -/

/-- SECURITY_ALARM (R434): A security alarm takes the action set in GLPOL. -/
def execEvSecurityAlarm (a : Alarm) (s : State) : Host.Outcome State Fault Refusal := .next (s.alarm a)

/-- GLPOL_WRITE (R434): Sets alarm actions unless LOCK is set. -/
def execEvGlpolWrite (v : Quad) (s : State) : Host.Outcome State Fault Refusal :=
  .next (if bitOf s.dev.glpol.toNat 8 then s else s.withDev { s.dev with glpol := v &&& 0x1FF })

/-- KEY_IMPORT (R429): Imports a key delivered under an SPDM session; a handle of another session is key misuse. -/
def execEvKeyImport (v : Quad) (s : State) : Host.Outcome State Fault Refusal :=
  let c := keyCmd v
  if s.keyBarred c || !(s.mayLoad c) then .next s.keyRefused
  else if s.dev.handles.contains c.handle then .next (s.setKey c.slot { st := 1, part := c.part, draw := 0, imported := some c.handle })
  else .next (s.keyRefused.alarm { cause := .misuse, slots := [c.slot] })

/-! ## Trusted device interfaces (R431) -/

def tdiKey (port vf : Nat) : Nat := 128 * port + vf
def State.tdi (s : State) (port vf : Nat) : Tdi := smGet Tdi.reset (tdiKey port vf) s.dev.tdis
def State.setTdi (s : State) (port vf : Nat) (t : Tdi) : State := s.withDev { s.dev with tdis := smPut Tdi.reset (tdiKey port vf) t s.dev.tdis }

/-- LOCK_INTERFACE (R431): TDISP LOCK_INTERFACE binds key slots to a TDI. -/
def execEvLockInterface (port vf : Nat) (slots : List Nat) (s : State) : Host.Outcome State Fault Refusal :=
  .next (if (s.tdi port vf).st = 0 ∧ port < 2 ∧ 1 ≤ vf ∧ vf < 128 then s.setTdi port vf { st := 1, slots := slots } else s)

/-- START_INTERFACE (R431): A TDISP request moves a trusted device interface from CONFIG_LOCKED into RUN. -/
def execEvStartInterface (port vf : Nat) (s : State) : Host.Outcome State Fault Refusal :=
  let t := s.tdi port vf
  .next (if t.st = 1 then s.setTdi port vf { t with st := 2 } else s)

/-- A TDI ends in a state; from RUN its bound slots are destroyed first. -/
def State.endTdi (s : State) (port vf st : Nat) : State :=
  let t := s.tdi port vf
  let s := if t.st = 2 then s.destroySlots t.slots else s
  s.setTdi port vf { st := st, slots := if st = 3 then t.slots else [] }

/-- STOP_INTERFACE (R431): TDISP STOP_INTERFACE destroys the TDI's bound slots. -/
def execEvStopInterface (port vf : Nat) (s : State) : Host.Outcome State Fault Refusal := .next (s.endTdi port vf 0)

/-- IDE_INTEGRITY_FAILURE (R431): An IDE integrity failure makes the TDI leave RUN, destroying its keys. -/
def execEvIdeIntegrityFailure (port vf : Nat) (s : State) : Host.Outcome State Fault Refusal :=
  let s := s.bumpErr 20
  .next (if (s.tdi port vf).st = 2 then s.endTdi port vf 3 else s)

/-- FUNCTION_LEVEL_RESET (R431): A function-level reset makes the TDI leave RUN, destroying its keys. -/
def execEvFunctionLevelReset (port vf : Nat) (s : State) : Host.Outcome State Fault Refusal := .next (s.endTdi port vf 0)

/-! ## Glomel (R432, R433) -/

def BootImage.verifies (b : BootImage) : Bool := b.ecdsaOk && b.lmsOk && decide (Config.fusedVersion ≤ b.version)

/-- GLOMEL_BOOT (R432): At reset Glomel verifies its firmware chain; a step that fails leaves the device in reset. At its end slot 0
holds a random key (R428). -/
def execEvGlomelBoot (images : List BootImage) (s : State) : Host.Outcome State Fault Refusal :=
  if s.dev.booted || s.dev.bootFail || s.dev.alarmHold then .next s
  else if images.isEmpty || !(images.all BootImage.verifies) then .next (s.withDev { s.dev with bootFail := true })
  else
    let s := { s with free := s.free + 1 }.setKey 0 { st := 1, part := 0, draw := s.free, imported := none }
    .next (s.withDev { s.dev with booted := true })

/-- GLOMEL_FAILOVER (R432): The standby Glomel takes over after 10 ms without heartbeat; it mirrors keys and alarm policy. -/
def execEvGlomelFailover (s : State) : Host.Outcome State Fault Refusal := .next (s.withDev { s.dev with glActive := 1 })

/-- SPDM_REQUEST (R433): Glomel answers an SPDM attestation request; the session's handle is its number. -/
def execEvSpdmRequest (s : State) : Host.Outcome State Fault Refusal :=
  .next (s.withDev { s.dev with attested := s.dev.attested + 1, handles := s.dev.handles ++ [s.dev.attested] })

/-! ## Self-refresh (R437) -/

def State.chan (s : State) (c : Nat) : Srpol := smGet Srpol.reset c s.dev.srpol
def State.setChan (s : State) (c : Nat) (x : Srpol) : State := s.withDev { s.dev with srpol := smPut Srpol.reset c x s.dev.srpol }

def channels : Nat := 768

/-- SRPOL_WRITE (R437): Sets a pseudo-channel's self-refresh policy, entering now for MODE 2. -/
def execEvSrpolWrite (chan : Nat) (v : Quad) (s : State) : Host.Outcome State Fault Refusal :=
  if channels ≤ chan then .next s
  else
    let x := s.chan chan
    let x' := { x with mode := bitsOf v.toNat 1 0, idle := bitsOf v.toNat 31 8, spent := false }
    if x'.mode = 2 ∧ !x.insr then .next ((s.setChan chan { x' with insr := true }).bumpErr 16) else .next (s.setChan chan x')

/-- The tick at which the idle timer expires. -/
def Srpol.expiry (x : Srpol) : Nat := x.idleFrom + nsTicks x.idle

/-- SELF_REFRESH_ENTRY (R437): The idle timer expires and the pseudo-channel enters self-refresh. -/
def execEvSelfRefreshEntry (chan : Nat) (s : State) : Host.Outcome State Fault Refusal :=
  let x := s.chan chan
  if x.mode = 1 ∧ !x.insr ∧ chan < channels then .next (((s.reach x.expiry).setChan chan { x with insr := true }).bumpErr 16) else .next s

/-- A controller cycle of 0.625 ns in ticks, rounded up. -/
def controllerCycle : Nat := 1024

/-- SELF_REFRESH_EXIT (R437): A request finds self-refresh, and waits for the exit; the timer restarts at its completion. A request in the
cycle of the expiry wins, and the entry is abandoned and counted. -/
def execEvSelfRefreshExit (chan : Nat) (s : State) : Host.Outcome State Fault Refusal :=
  let x := s.chan chan
  if channels ≤ chan then .next s
  else
    let now := s.clk.ticks
    let y := { x with insr := false, idleFrom := now, spent := x.spent || x.mode == 2 }
    if !x.insr && x.mode == 1 && decide (x.expiry ≤ now ∧ now < x.expiry + controllerCycle) then .next ((s.setChan chan y).bumpErr 17)
    else .next (s.setChan chan y)

end Sys2Proof.Machine
end

