-- ==== Sys2Proof/Machine/Registers.lean ====
section
/-! DEFINITION. Device registers by physical address, the RESYNC summary, and accesses that a host port makes (00 R7, R8, 01 R28, R29, 06
R190, 07 R243 to R251, 08 R277, 11 R340, 12 R367, R369, R388, 14 R424 to R439). -/

namespace Sys2Proof.Machine

/-! ## The map of the registers -/

/-- A register block and the offset in it of an address. -/
inductive RegAt where
  /-- The device control block (14 R425). -/
  | device (off : Nat)
  | vault (die off : Nat)
  | qcr (q off : Nat)
  | check (hp off : Nat)
  | ccb (hp ctx off : Nat)
  | ctxFab (hp ctx off : Nat)
  | hpFab (hp off : Nat)
  | port (g off : Nat)
  | none
  deriving DecidableEq, Repr

def registerBase : Nat := 0xF000000000

/-- The block of an address. -/
def regAt (pa : Nat) : RegAt :=
  let a := pa - registerBase
  if pa < registerBase then .none
  else if a < 0x6000 then .device a
  else if 0x1000000 ≤ a ∧ a < 0x1004000 then .vault ((a - 0x1000000) / 0x1000) (a % 0x1000)
  else if 0x2000000 ≤ a ∧ a < 0x2020000 then .qcr ((a - 0x2000000) / 32) (a % 32)
  else if 0x3000000 ≤ a ∧ a < 0x3004000 then .check ((a - 0x3000000) / 0x1000) (a % 0x1000)
  else if 0x4000000 ≤ a ∧ a < 0x4100000 then .ccb ((a - 0x4000000) / 0x40000) ((a - 0x4000000) % 0x40000 / 0x1000) (a % 0x1000)
  else if 0x5000000 ≤ a ∧ a < 0x5100000 then .ctxFab ((a - 0x5000000) / 0x40000) ((a - 0x5000000) % 0x40000 / 0x1000) (a % 0x1000)
  else if 0x6000000 ≤ a ∧ a < 0x6004000 then .hpFab ((a - 0x6000000) / 0x1000) (a % 0x1000)
  else if 0x6080000 ≤ a ∧ a < 0x6081000 then .port ((a - 0x6080000) / 0x100) (a % 0x100)
  else .none

/-! ## What they read as -/

def Dev.partcfg (d : Dev) : Nat := packFields [(d.plan, 0), (bitVal d.planBusy, 3), (bitVal d.planErr, 4), (d.cxlown.toNat, 16), (d.lmown.toNat, 32)]

def Dev.pstep (d : Dev) : Nat :=
  packFields ((List.range 8).flatMap (fun n => [(smGet 0 n d.steps, 4 * n), (bitVal (smGet false n d.relock), 4 * n + 3)]) ++ [(bitVal d.stepErr, 32)])

def Srpol.word (x : Srpol) : Nat := packFields [(x.mode, 0), (bitVal x.insr, 2), (x.idle, 8)]

def Dev.errAt (d : Dev) (n : Nat) : Nat := (smGet 0 n d.errcnt).toNat

def Dev.resync (d : Dev) : Nat := d.rsbase + 2 * bitVal d.rsBusy + 4 * bitVal d.rsErr

def Dev.read (d : Dev) (off : Nat) : Nat :=
  if off = 0 then d.partcfg
  else if off = 0x100 then d.pstep
  else if off = 0x108 then d.therm.toNat
  else if off = 0x200 then d.resync
  else if off = 0x300 then d.irqvec0.toNat
  else if off = 0x308 then d.irqvec1.toNat
  else if 0x1000 ≤ off ∧ off < 0x1800 then (smGet 0 ((off - 0x1000) / 8) d.fnmap).toNat
  else if 0x2000 ≤ off ∧ off < 0x2100 then d.errAt ((off - 0x2000) / 8)
  else if 0x3000 ≤ off ∧ off < 0x4800 then (smGet Srpol.reset ((off - 0x3000) / 8) d.srpol).word
  else if off = 0x5008 then bitVal d.keyBusy + 2 * bitVal d.keyErr
  else if off = 0x5100 then d.glpol.toNat
  else 0

def HpCheck.read (c : HpCheck) (off : Nat) : Nat :=
  if off = 0 then bitVal c.sqobs + 2 * bitVal c.scobs + 4 * bitVal c.lock
  else if off = 8 then c.ordinj.toNat
  else if off = 0x10 then c.ordinjva.toNat
  else if off = 0x20 then c.sdva.toNat
  else if off = 0x30 then bitVal c.sdBusy + 2 * bitVal c.sdErr + c.sdDone.toNat * 2 ^ 32
  else if 0x100 ≤ off ∧ off < 0x180 then (smGet 0 ((off - 0x100) / 8) c.chkcnt).toNat
  else 0

def Ccb.control (c : Ccb) : Nat :=
  packFields [(bitVal c.en, 0), (bitVal c.ptag, 1), (c.migth.toNat, 2), (bitVal c.tlogon, 5), (c.state, 8), (bitVal c.err, 10)]

/-- The fields of a control block, IMGNEED apart. -/
def Ccb.read (c : Ccb) (off : Nat) : Nat :=
  match off with
  | 0x00 => c.control
  | 0x08 => c.ptroot
  | 0x10 => c.fqbase.toNat
  | 0x18 => c.fqlog + c.fqwr.toNat * 2 ^ 32
  | 0x20 => c.fqrd.toNat
  | 0x30 => c.tlog.toNat
  | 0x38 => c.tltab.toNat
  | 0x40 => c.tlcnt
  | 0x48 => c.qtab.toNat
  | 0x50 => c.qcnt
  | 0x58 => c.elog.toNat
  | 0x60 => c.ellog + c.elwr.toNat * 2 ^ 32
  | 0x68 => c.drainlim.toNat
  | 0x70 => c.imgbase.toNat
  | 0x78 => c.imglen.toNat
  | 0x88 => bitsOf c.rsvcl.toNat 63 0
  | 0x90 => bitsOf c.rsvcl.toNat 127 64
  | 0x98 => bitsOf c.rsvcl.toNat 191 128
  | _ => 0

def HpFab.read (x : HpFab) (off : Nat) : Nat :=
  match off with
  | 0x00 => packFields [(x.peer, 0), (x.inc, 16), (bitVal x.en, 24)]
  | 0x08 => x.rtbase
  | 0x10 => x.evbase
  | 0x18 => x.evlog + x.evwr.toNat * 2 ^ 32
  | 0x20 => x.reqto
  | _ => 0

def CtxFab.read (x : CtxFab) (off : Nat) : Nat :=
  match off with
  | 0x00 => x.ptab.toNat
  | 0x08 => x.wtab.toNat
  | 0x10 => x.etab.toNat
  | 0x18 => bitVal x.rxen
  | _ => 0

def Port.status (p : Port) : Nat := packFields [(p.state, 0), (p.txmap.toNat, 16), (p.rxmap.toNat, 32)]

def Port.read (p : Port) (off : Nat) : Nat :=
  match off with
  | 0x00 => p.status
  | 0x08 => p.flits.toNat
  | 0x10 => p.replay.toNat
  | 0x18 => p.holes.toNat
  | 0x20 => p.crcerr.toNat
  | 0x28 => p.staledrop.toNat
  | 0x30 => p.seccor.toNat
  | 0x38 => p.txen.toNat
  | _ => 0

/-- The bits at an address that a 1 clears (R7). -/
def clearedByOne (pa : Nat) : Nat :=
  match regAt pa with
  | .device 0 => 2 ^ 4
  | .device 0x100 => 2 ^ 32
  | .device 0x200 => 2 ^ 2
  | .device 0x5008 => 2
  | .qcr _ 0 => 2
  | .check _ 8 => 2
  | .check _ 0x30 => 2
  | .ccb _ _ 0 => 2 ^ 10
  | _ => 0

/-- The 64 bits at an address of the register range; write-only and reserved bits read 0 (R7, R8). -/
def State.readRegister (s : State) (pa : Nat) : Nat :=
  match regAt pa with
  | .device off => s.dev.read off
  | .vault die off => if off = 0 then (s.vault die).vault.toNat + (s.vault die).busy.toNat * 2 ^ 16 else 0
  | .qcr q off => (s.queue q).qcr off
  | .check hp off => (s.check hp).read off
  | .ccb hp ctx off => if off = 0x80 then s.imageNeed hp ctx else (s.ccb hp ctx).read off
  | .ctxFab hp ctx off => (s.ctxFab hp ctx).read off
  | .hpFab hp off => (s.hpFab hp).read off
  | .port g off => (s.lport g).read off
  | .none => 0

/-! ## RESYNC (14 R439) -/

/-- Entries of a context that have started and have not completed. -/
def State.startedPackets (s : State) (hp ctx : Nat) : Nat :=
  (s.dist.entries.filter fun e => e.hp == hp && e.ctx == ctx && e.node.isNone && decide (3 ≤ e.stage)).length

def State.summaryCtx (s : State) (k : Nat) : Nat :=
  let hp := k / 64
  let ctx := k % 64
  let c := s.ccb hp ctx
  packFields [(c.state, 0), (bitVal c.en, 2), (bitVal c.err, 3), (s.poolCount hp ctx % 65536, 16), ((c.fqwr - c.fqrd).toNat % 65536, 32),
    (s.startedPackets hp ctx % 65536, 48)]

def State.summaryEngine (s : State) (e : Nat) : Nat :=
  let mine := s.copy.copies.filter fun c => c.engine == e
  mine.length + (mine.filter fun c => c.final.status != 0).length * 2 ^ 32

def State.summaryQueues (s : State) (die : Nat) : Nat :=
  let mine := s.sync.queues.filter fun p => p.1 / 1024 == die
  (mine.filter fun p => p.2.valid).length + (mine.filter fun p => p.2.err).length * 2 ^ 32

def State.loadedIn (s : State) (part : Nat) : Nat := (s.dev.keys.filter fun p => p.2.st == 1 && p.2.part == part).length

/-- INSR of the pseudo-channels, 64 a word. -/
def State.insrWord (s : State) (j : Nat) : Nat := ((List.range 64).map fun k => if (s.chan (64 * j + k)).insr then 2 ^ k else 0).sum

/-- A list of quads in a region of the block. -/
def quads (n : Nat) (qs : List Nat) : List Byte := let bs := qs.flatMap (bytesOfNat 8); bs ++ zeroBytes (n - bs.length)

/-- The summary block, taken at one moment. -/
def State.summary (s : State) : List Byte :=
  quads 64 [0x52535943 + 2 ^ 32, s.ns, s.ns]
    ++ quads 64 [s.dev.partcfg, packFields ((List.range 4).map fun p => (s.loadedIn p, 16 * p))]
    ++ quads 2048 ((List.range 256).map s.summaryCtx)
    ++ quads 256 ((List.range 20).map s.summaryEngine ++ (List.range 4).map s.summaryQueues
        ++ (List.range 2).map (fun d => (s.mem.migs.filter fun m => m.die == d).length) ++ (List.range 2).map (fun h => (s.coll.ops.filter fun o => o.half == h).length))
    ++ quads 256 ((List.range 16).map (fun g => (s.lport g).status) ++ (List.range 10).map fun k => (Config.linkStatus k).toNat)
    ++ quads 128 ([s.dev.pstep, s.dev.therm.toNat] ++ (List.range 12).map s.insrWord)
    ++ quads 256 ((List.range 32).map s.dev.errAt)
    ++ zeroBytes 1024

/-- RESYNC_GO (14 R439): Starts writing the summary block. -/
def execEvResyncGo (v : Quad) (s : State) : Host.Outcome State Fault Refusal :=
  let n := v.toNat
  let d := { s.dev with rsErr := s.dev.rsErr && !(bitOf n 2) }
  if d.rsBusy then .next (s.withDev { d with rsErr := d.rsErr || bitOf n 0 })
  else .next (s.withDev { d with rsbase := bitsOf n 51 12 * 4096, rsBusy := bitOf n 0 })

/-- The hard partition that an address belongs to, as the host reaches it. -/
def State.hpOfPa (s : State) (pa : Nat) : Option Nat := (List.range 4).find? fun hp => (s.region hp pa).backed

/-- RESYNC_DONE (14 R439): The summary is written, BUSY clears and the management vector is raised. -/
def execEvResyncDone (s : State) : Host.Outcome State Fault Refusal :=
  if !s.dev.rsBusy then .next s
  else
    let s := match s.hpOfPa s.dev.rsbase with
      | some hp => s.commitAll (homeWriter (s.region hp s.dev.rsbase).home) s.dev.rsbase s.summary
      | none => s.bumpErr 8
    .next ((s.withDev { s.dev with rsBusy := false }).devIrq 2)

/-! ## Writes -/

/-- A command of KEYCMD (R429). -/
def State.writeKeycmd (s : State) (v : Quad) : State :=
  match bitsOf v.toNat 15 13 with
  | 0 => s
  | 1 => nextOr s (execEvKeyGenerate v s)
  | 2 => nextOr s (execEvKeyImport v s)
  | 3 => nextOr s (execEvKeyDestroy v s)
  | 4 => nextOr s (execEvKeyClear v s)
  | _ => s.keyRefused

/-- FNMAP (R425): CTX and PART stand while EN is 1; a TDI that is not unlocked locks EN as well. -/
def State.writeFnmap (s : State) (k v : Nat) : State :=
  let old := (smGet 0 k s.dev.fnmap).toNat
  let t := smGet Tdi.reset k s.dev.tdis
  let en := if t.st = 0 then bitsOf v 10 10 else bitsOf old 10 10
  let low := if bitOf old 10 ∨ t.st ≠ 0 then bitsOf old 9 0 else bitsOf v 5 0 + bitsOf v 9 8 * 2 ^ 8
  if k % 128 = 0 then s else s.withDev { s.dev with fnmap := smPut 0 k (BitVec.ofNat 64 (low + en * 2 ^ 10)) s.dev.fnmap }

/-- The writable bits of IRQVEC. -/
def irqvecMask : Quad := 0x000707FF07FF07FF

def State.writeDevice (s : State) (off : Nat) (v : Quad) : State :=
  if off = 0 then nextOr s (execEvPartcfgWrite v s)
  else if off = 0x100 then nextOr s (execEvPstepWrite v s)
  else if off = 0x200 then nextOr s (execEvResyncGo v s)
  else if off = 0x300 then s.withDev { s.dev with irqvec0 := v &&& irqvecMask }
  else if off = 0x308 then s.withDev { s.dev with irqvec1 := v &&& irqvecMask }
  else if 0x1000 ≤ off ∧ off < 0x1800 then s.writeFnmap ((off - 0x1000) / 8) v.toNat
  else if 0x3000 ≤ off ∧ off < 0x4800 then nextOr s (execEvSrpolWrite ((off - 0x3000) / 8) v s)
  else if off = 0x5000 then s.writeKeycmd v
  else if off = 0x5008 then s.withDev { s.dev with keyErr := s.dev.keyErr && !(v.getLsbD 1) }
  else if off = 0x5100 then nextOr s (execEvGlpolWrite v s)
  else s

/-- SILLVAULT: the ways whose bit changes convert (R190). -/
def writeVault (die v : Nat) : State → List Nat → State
  | s, [] => s
  | s, w :: ws =>
    let has := (s.vault die).vault.getLsbD w
    let s := if bitOf v w && !has then nextOr s (execEvSillWayToVault die w s)
      else if !(bitOf v w) && has then nextOr s (execEvSillWayToCache die w s)
      else s
    writeVault die v s ws

def State.writeCheck (s : State) (hp off : Nat) (v : Quad) : State :=
  let c := s.check hp
  match off with
  | 0x00 => nextOr s (execEvChkmodeWrite hp v s)
  | 0x08 => nextOr s (execEvOrdinjWrite hp v s)
  | 0x10 => s.setCheck hp { c with ordinjva := v &&& 0x01FFFFFFFFFFFF80 }
  | 0x20 => s.setCheck hp { c with sdva := v &&& 0x01FFFFFFFFFFF000 }
  | 0x28 => nextOr s (execEvShootdownGo hp v s)
  | 0x30 => s.setCheck hp { c with sdErr := c.sdErr && !(v.getLsbD 1) }
  | _ => s

/-- Fields other than EN, CMD, RETRY and FQRD (R340). -/
def Ccb.writeField (c : Ccb) (off v : Nat) : Ccb :=
  let q := fun (low : Nat) => BitVec.ofNat 64 (v / 2 ^ low * 2 ^ low)
  match off with
  | 0x08 => { c with ptroot := bitsOf v 51 13 * 2 ^ 13 }
  | 0x10 => { c with fqbase := q 12 }
  | 0x18 => { c with fqlog := bitsOf v 4 0 }
  | 0x30 => { c with tlog := q 11 }
  | 0x38 => { c with tltab := q 0 }
  | 0x40 => { c with tlcnt := bitsOf v 16 0 }
  | 0x48 => { c with qtab := q 0 }
  | 0x50 => { c with qcnt := bitsOf v 15 0 }
  | 0x58 => { c with elog := q 12 }
  | 0x60 => { c with ellog := bitsOf v 4 0 }
  | 0x68 => { c with drainlim := BitVec.ofNat 32 v }
  | 0x70 => { c with imgbase := q 12 }
  | 0x78 => { c with imglen := q 0 }
  | 0x88 => { c with rsvcl := BitVec.ofNat 192 (setBits c.rsvcl.toNat 63 0 v) }
  | 0x90 => { c with rsvcl := BitVec.ofNat 192 (setBits c.rsvcl.toNat 127 64 v) }
  | 0x98 => { c with rsvcl := BitVec.ofNat 192 (setBits c.rsvcl.toNat 191 128 v) }
  | _ => c

def State.writeCmd (s : State) (hp ctx v : Nat) : State :=
  match v % 4 with
  | 1 => nextOr s (execEvCtxSave hp ctx s)
  | 2 => nextOr s (execEvCtxRestore hp ctx s)
  | 3 => nextOr s (execEvCtxKill hp ctx s)
  | _ => s

def State.writeRetry (s : State) (hp ctx v : Nat) : State :=
  if bitOf v 16 then nextOr s (execEvRetryFail hp ctx (bitsOf v 15 0) s) else nextOr s (execEvRetryRetry hp ctx (bitsOf v 15 0) s)

def State.writeCcb (s : State) (hp ctx off : Nat) (v : Quad) : State :=
  let c := s.ccb hp ctx
  match off with
  | 0x00 => nextOr s (execEvCtxEnWrite hp ctx v s)
  | 0x20 => nextOr s (execEvFqrdWrite hp ctx (v.setWidth 32) s)
  | 0x28 => s.writeRetry hp ctx v.toNat
  | 0xA0 => s.writeCmd hp ctx v.toNat
  | _ => if c.state = 0 ∨ c.state = 3 then s.setCcb hp ctx (c.writeField off v.toNat) else s

def CtxFab.writeField (x : CtxFab) (off : Nat) (v : Quad) : CtxFab :=
  match off with
  | 0x00 => { x with ptab := v >>> 13 <<< 13 }
  | 0x08 => { x with wtab := v >>> 12 <<< 12 }
  | 0x10 => { x with etab := v >>> 13 <<< 13 }
  | 0x18 => { x with rxen := v.getLsbD 0 }
  | _ => x

/-- The context fabric block (12 R369), by the access rules of R340: its fields are written while the context is idle or saved, GO at any
time (DEDUCED, log entry 62). -/
def State.writeCtxFab (s : State) (hp ctx off : Nat) (v : Quad) : State :=
  let st := (s.ccb hp ctx).state
  if off = 0x20 then nextOr s (execEvFabricInvalidate hp ctx v s)
  else if st = 0 ∨ st = 3 then s.setCtxFab hp ctx ((s.ctxFab hp ctx).writeField off v)
  else s

/-- RTBASE, EVBASE and EVLOG are written only while EN is 0 (R367). -/
def State.writeHpFab (s : State) (hp off : Nat) (v : Quad) : State :=
  let x := s.hpFab hp
  let n := v.toNat
  match off with
  | 0x00 => s.writeFabric hp n
  | 0x08 => if x.en then s else s.setHpFab hp { x with rtbase := bitsOf n 51 12 * 4096 }
  | 0x10 => if x.en then s else s.setHpFab hp { x with evbase := bitsOf n 51 6 * 64 }
  | 0x18 => if x.en then s else s.setHpFab hp { x with evlog := bitsOf n 4 0 }
  | 0x20 => s.setHpFab hp { x with reqto := bitsOf n 31 0 }
  | _ => s

/-- A write of 64 bits in the register range; read-only and reserved bits ignore it (R7, R8). One that no unit backs is dropped and
counted (R29). -/
def State.writeRegister (s : State) (pa : Nat) (v : Quad) : State :=
  match regAt pa with
  | .device off => s.writeDevice off v
  | .vault die off => if off = 0 then writeVault die v.toNat s (List.range 16) else s
  | .qcr q off => nextOr s (execEvQcrWrite q off v s)
  | .check hp off => s.writeCheck hp off v
  | .ccb hp ctx off => s.writeCcb hp ctx off v
  | .ctxFab hp ctx off => s.writeCtxFab hp ctx off v
  | .hpFab hp off => s.writeHpFab hp off v
  | .port g off => if off = 0x38 then nextOr s (execEvTxenWrite g v s) else s
  | .none => s.bumpErr 8

/-- REGISTER_WRITE (R7): A write to a register with no behaviour of its own. -/
def execEvRegisterWrite (pa : Nat) (v : Quad) (s : State) : Host.Outcome State Fault Refusal := .next (s.writeRegister pa v)

/-! ## Accesses of a host port (R424) -/

/-- An address belongs to an object of a context: `n` bytes from a virtual address on. -/
def State.objectHas (s : State) (hp ctx va pa : Nat) (n : Nat) : Nat → Bool
  | 0 => false
  | k + 1 =>
    if n = 0 then false
    else
      let m := min n (4096 - va % 4096)
      (match (s.xlate hp ctx va .probe).1 with | .ok _ at_ => decide (at_ ≤ pa ∧ pa < at_ + m) | _ => false)
        || State.objectHas s hp ctx (va + m) pa (n - m) k

/-- The user-mode queues and the timelines of a context, which alone a virtual function maps. -/
def State.vfMaps (s : State) (hp ctx pa : Nat) : Bool :=
  (s.dist.queues.any fun p => p.1 / 65536 == ccbKey hp ctx &&
      (s.objectHas hp ctx p.2.hdr pa 256 2 || s.objectHas hp ctx p.2.rbase pa (64 * 2 ^ p.2.log2n) (2 ^ p.2.log2n / 64 + 2)))
    || (List.range (min (s.ccb hp ctx).tlcnt 65536)).any fun n =>
        match s.timelineVa hp ctx n with | some va => s.objectHas hp ctx va pa 24 2 | none => false

/-- The partition through which an access reaches memory; none is a decode error. -/
def State.hostReaches (s : State) (a : HostWrite) : Option Nat :=
  if a.vf = 0 then (s.hpOfPa a.pa).filter fun hp => !(s.region hp a.pa).isHost
  else
    let m := (smGet 0 (128 * a.port + a.vf) s.dev.fnmap).toNat
    let hp := bitsOf m 9 8
    if bitOf m 10 && (s.region hp a.pa).backed && !(s.region hp a.pa).isHost && s.vfMaps hp (bitsOf m 5 0) a.pa then some hp else none

def hostIsRead : HostOp → Bool
  | .read _ => true
  | _ => false

/-- The bytes that an access leaves, from those that stand there. -/
def hostResult (op : HostOp) (old : Nat → List Byte) : List Byte :=
  match op with
  | .store data => data
  | .fetchAdd n v => bytesOfNat n (natOfBytes (old n) + v.toNat)
  | .swap n v => bytesOfNat n v.toNat
  | .cas n e v => if natOfBytes (old n) = e.toNat % 2 ^ (8 * n) then bytesOfNat n v.toNat else old n
  | .read _ => []

/-- The number by which a host port's accesses are known to a migration (06 R208). -/
def hostSource (port : Nat) : Nat := 7000 + port

def hostBytes : HostOp → Nat
  | .store data => data.length
  | .fetchAdd n _ => n
  | .swap n _ => n
  | .cas n _ _ => n
  | .read n => n

/-- What the host is given of memory. The spec does not say what poison reads as: free values (DESIGN CHOICE, log entry 121). -/
def State.hostGets (s : State) (pa n : Nat) : State :=
  if s.poisoned pa n then
    let s := s.bumpErr 6
    { s with free := s.free + 1, dev := { s.dev with hostData := s.lostBytes pa n } }
  else s.withDev { s.dev with hostData := memReadN s.mem.bytes pa n }

/-- An access that gives the host bytes. -/
def hostGives : HostOp → Bool
  | .store _ => false
  | _ => true

/-- Where an access of a host port goes in memory. -/
def State.hostRoute (s : State) (a : HostWrite) : Route :=
  if hostIsRead a.op then s.readRoute (hostSource a.port) a.pa else s.writeRoute (hostSource a.port) a.pa

/-- An access that finds a line or a page held waits; one that gives the host bytes, for the deferred windows of their lines as well
(07 R235). -/
def State.hostWaits (s : State) (a : HostWrite) : Bool :=
  let rt := s.hostRoute a
  let pa := rt.addr a.pa
  rt.isHeld || s.rangeHeld pa (hostBytes a.op) || (hostGives a.op && !(s.openWindows (some (linesOf pa (hostBytes a.op)))).isEmpty)

/-- An access of a host port performs. -/
def State.hostPerform (s : State) (a : HostWrite) (hp : Nat) : State :=
  let pa := (s.hostRoute a).addr a.pa
  let who := homeWriter (s.region hp pa).home
  let t := if hostGives a.op then s.hostGets pa (hostBytes a.op) else s
  if hostIsRead a.op then t.noteRead who pa else t.commitAll who pa (hostResult a.op fun n => memReadN s.mem.bytes pa n)

/-- What a register access of the host reads. -/
def State.hostReadsRegister (s : State) (pa n : Nat) : State :=
  s.withDev { s.dev with hostData := ((bytesOfNat 8 (s.readRegister (pa / 8 * 8))).drop (pa % 8)).take n }

/-- A read that no unit backs (R29). -/
def State.noData (s : State) (n : Nat) : State := (s.bumpErr 7).withDev { (s.bumpErr 7).dev with hostData := zeroBytes n }

/-- What the half of a register that a store does not name is written with: what it reads as, without its bits that a 1 clears; of PSTEP,
the steps that are held (R435). -/
def State.keptHalf (s : State) (base : Nat) : Nat :=
  match regAt base with
  | .device 0x100 => packFields ((List.range 8).map fun n => let h := smGet 0 n s.dev.stepHeld; (if h = 0 then smGet 0 n s.dev.steps else h - 1, 4 * n))
  | _ => let x := s.readRegister base; x - (x &&& clearedByOne base)

/-- A register access: stores of 8 bytes, or of 4 that leave the other half as it reads, its bits that a 1 clears among them. -/
def State.hostRegister (s : State) (a : HostWrite) : State :=
  match a.op with
  | .store data =>
    if data.length = 8 ∧ a.pa % 8 = 0 then s.writeRegister a.pa (BitVec.ofNat 64 (natOfBytes data))
    else if data.length = 4 ∧ a.pa % 4 = 0 then
      let base := a.pa / 8 * 8
      let lo := if a.pa % 8 = 0 then 0 else 32
      let kept := s.keptHalf base
      s.writeRegister base (BitVec.ofNat 64 (setBits kept (lo + 31) lo (natOfBytes data)))
    else s.bumpErr 8
  | .read n => if regAt (a.pa / 8 * 8) = .none then s.noData n else s.hostReadsRegister a.pa n
  | _ => s.bumpErr 8

/-- HOST_PORT_WRITE (R424): A memory write or AtomicOp that the host sends through a BAR of a host port is performed in device memory, and a
read returns its bytes. Of what no unit backs, a write is dropped and counted, and a read returns zeros and is counted (R29). -/
def execEvHostPortWrite (a : HostWrite) (s : State) : Host.Outcome State Fault Refusal :=
  if a.vf = 0 ∧ windowOf a.pa = 3 then .next (s.hostRegister a)
  else
    match s.hostReaches a with
    | none => .next (if hostIsRead a.op then s.noData (hostBytes a.op) else s.bumpErr 8)
    | some hp => .next (if !s.dev.hostq.isEmpty || s.hostWaits a then s.withDev { s.dev with hostq := s.dev.hostq ++ [a] } else s.hostPerform a hp)

/-- The oldest host access that waits, once it may go. -/
def State.hostNext (s : State) : State :=
  match s.dev.hostq with
  | [] => s
  | a :: as =>
    if s.hostWaits a then s
    else
      let s := s.withDev { s.dev with hostq := as }
      match s.hostReaches a with
      | none => if hostIsRead a.op then s.noData (hostBytes a.op) else s.bumpErr 8
      | some hp => s.hostPerform a hp

end Sys2Proof.Machine
end

