-- ==== Sys2Proof/Machine/Auto.lean ====
section
/-! DEFINITION. The scheduler that chooses the next engine step when the agenda names none (log entry 1): it takes in
turn a step that some engine can make, and an issue clock. It never chooses what the outside world does, nor a
failure. -/

namespace Sys2Proof.Machine

/-- Steps that act while the device is held in reset. -/
def actsHeld : Instr → Bool
  | .evGlomelBoot _ => true
  | .evPowerOnReset => true
  | .evHostReset => true
  | _ => false

/-- Steps that act while every clock but Glomel's is stopped. -/
def actsTripped : Instr → Bool
  | .evGlomelBoot _ => true
  | .evPowerOnReset => true
  | .evHostReset => true
  | .evThermalTrip _ _ => true
  | _ => false

/-- What a step could do. -/
abbrev Try := State → Host.Outcome State Fault Refusal

/-- A step whose time has come. -/
def dueAt (s : State) (ns : Nat) (f : Try) : List Try := if ns ≤ s.ns then [f] else []

/-! ## Memory operations (06, 07, 08, 11) -/

/-- The acknowledgement of a line of an operation, at a scope that it has reached there. -/
def Op.honestAck (o : Op) (line : Nat) (sc : Scope) : PerformAck := { line := line, scope := sc, interval := o.interval line, epoch := o.epoch, err := false }

/-- A line is acknowledged at a scope already. -/
def Op.lineAcked (o : Op) (line : Nat) (sc : Scope) : Bool :=
  match smFind line o.acks with
  | some a => decide (sc.rank ≤ a.rank)
  | none => false

/-- The acknowledgement of a line that comes next: of what the operation has reached there, or the host's completion. -/
def State.lineAck (s : State) (o : Op) (line : Nat) : Option PerformAck :=
  match s.reached o line with
  | none => if o.host then some (o.honestAck line .sys) else none
  | some sc =>
    let a := o.honestAck line sc
    if (if o.elems.isEmpty then o.ackedAt sc else o.lineAcked line sc) || (s.ackViolation o a).isSome then none else some a

def State.ackTries (s : State) (o : Op) : List Try :=
  if o.failed || o.cls == .none || o.kind.actsLater then []
  else ((if o.elems.isEmpty then [0] else opLines o.elems).filterMap (s.lineAck o)).map (execEvPerformAck o.id)

/-- A release goes when nothing is owed before it, or when it has been injected (07 R246). -/
def State.releaseTries (s : State) (o : Op) : List Try :=
  (if !o.arrived && (o.injected || (s.owed o).isEmpty) then [execEvReleaseArrival o.id] else []) ++ (if o.arrived then [execEvSquareSeal o.id] else [])

/-- The step of its own that an operation waits for. -/
def kindTries (o : Op) : List Try :=
  match o.kind with
  | .load _ _ _ => [execEvMsaAccess o.id]
  | .dec _ _ _ => [execEvMsaAccess o.id]
  | .store => [execEvMsaAccess o.id]
  | .atomic _ _ _ => [execEvL2Atomic o.id, execEvMsaAccess o.id]
  | .gather _ _ => [execEvMsaAccess o.id]
  | .scatter => execEvMsaAccess o.id :: (List.range (max 1 o.elems.length)).map (execEvScatterElement o.id)
  | .fence _ => [execEvFenceScComplete o.id]
  | .seal => [execEvSealComplete o.id]
  | .chkr => [execEvChkrComplete o.id]
  | .icinv => [execEvIcinvComplete o.id]
  | .barrier _ _ _ _ _ => [execEvBarrierArrivalCount o.id, execEvRedirectedArrival o.id]
  | .group _ _ => [execEvGroupArrival o.id, execEvRedirectedArrival o.id]
  | .push _ _ => [execEvQueuePushArrival o.id]
  | .pop _ _ _ => [execEvQueuePopArrival o.id]
  | .stat _ _ => [execEvQueueStatArrival o.id]
  | .nodego _ => [execEvNodegoArrival o.id]
  | _ => []

/-- The homes and stacks of a gather's elements. -/
def State.gatherTries (s : State) (o : Op) : List Try :=
  match o.kind with
  | .gather _ _ =>
    (o.elems.map fun e => execEvGatherSubpacket o.id (s.homeOf o e.pa)) ++ (o.elems.filterMap fun e => (s.stackOf o e.pa).map (execEvGatherExpanderRead o.id))
  | _ => []

def State.opTries (s : State) (o : Op) : List Try :=
  s.ackTries o ++ (if o.cls == .r || o.cls == .x then s.releaseTries o else []) ++ kindTries o ++ s.gatherTries o

def State.memTries (s : State) : List Try :=
  (s.mem.ops.flatMap s.opTries) ++ ((s.mem.publish.map (·.1)).eraseDups.map execEvForcedPublish)
    ++ ((s.mem.l1.filter fun p => !p.2.wbuf.isEmpty).map fun p => execEvL1WriteBufferDrain p.1)
    ++ (s.mem.xfers.map fun x => fun s => .next (s.scribeCheck (s.honestTransfer x) x.unit))
    ++ (s.mem.windows.flatMap fun w =>
        (if s.closesNow w then [execEvScribeWindowClose w.home w.peer] else dueAt s (w.since + 4000) (execEvScribeWindowClose w.home w.peer)) ++ (if w.bad.isEmpty then [] else [execEvScribeRecordExchange w.home w.peer]))
    ++ (s.mem.faults.filter (·.tag.isNone)).map (fun f => execEvFaultRecordPost f.fid)
    ++ (s.mem.vaults.flatMap fun p => (List.range 16).filterMap fun w => if p.2.busy.getLsbD w then some (execEvSillWayConvertDone p.1 w) else none)
    ++ (s.checks.filter fun p => p.2.sdBusy).map (fun p => execEvShootdownDone p.1)
    ++ s.mem.migs.flatMap (fun m => [execEvMigratePageLock m.mid, execEvMigratePageCopy m.mid, execEvMigratePageSwitch m.mid, execEvMigratePageShoot m.mid,
        execEvMigratePageRelease m.mid, execEvMigratePageDrainDone m.mid, execEvMigratePageFree m.mid])

/-! ## Slices, bents and teams (04, 10, 11) -/

/-- The step that ends a slice's wait. -/
def State.waitTries (s : State) (r : SliceRef) : List Try :=
  match (s.slice r).wait with
  | .wake n _ => if n ≤ s.partClock (s.partOfSlice r) then [execEvBarrierWake r] else []
  | .hold n => if n ≤ s.partClock (s.partOfSlice r) then [execEvYieldHoldExpiry r] else []
  | .token _ => [execEvTokenWaitRelease r]
  | .timeline _ _ => [execEvTlwtReturn r]
  | .quiet _ _ _ => [execEvQuietReturn r]
  | _ => []

def State.sliceTries (s : State) (r : SliceRef) : List Try :=
  s.waitTries r
    ++ ((s.slice r).pend.filter fun p => p.result.isSome || p.fault.isSome).map (fun p => execEvClassLResultWrite r p.pid)
    ++ (if (s.slice r).moveTo.isSome then [execEvSlotMigrationEnd r] else [])
    ++ (if (s.slice r).exiting && !(s.slice r).exited then [execEvSliceRetire r] else [])

/-- Traps that may be entered: of a team the first by R142. -/
def State.trapFirst (s : State) (rs : List SliceRef) (r : SliceRef) : Bool :=
  rs.all fun q => q.tid != r.tid || decide (s.trapOrder r ≤ s.trapOrder q)

def State.trapTries (s : State) (rs : List SliceRef) : List Try :=
  let ready := rs.filter s.trapReady
  (ready.filter (s.trapFirst ready)).map execEvTrapEntry

def tileTries (tid : Nat) (q : List TileCmd) : List Try :=
  match q with
  | [] => []
  | c :: _ => [execEvTmmaSlabLoad tid, execEvTmmaStream tid, execEvTmmaWriteback tid, execEvTmmaDone tid, execEvTstoComplete c.id]

def teamTries (p : Nat × Team) : List Try :=
  (p.2.halfdone.map fun h => execEvHalfdone p.1 h.1 h.2) ++ (if p.2.ended || p.2.away then [] else [execEvTeamEnd p.1])
    ++ (match p.2.killed with | some c => [execEvTeamKill p.1 c] | none => [])
    ++ tileTries p.1 p.2.tileQ ++ tileTries p.1 p.2.tileQ1
    ++ (if p.2.tileQ.isEmpty && p.2.tileQ1.isEmpty then [] else p.2.clusters.map execEvTileRotation)

def State.runTries (s : State) : List Try :=
  let rs := s.slices.map fun p => refOfKey p.1
  s.trapTries rs ++ rs.flatMap s.sliceTries ++ (s.gangs.map fun p => execEvRegangRelease (p.1 / 64) (p.1 % 64)) ++ s.teams.flatMap teamTries

/-! ## Copies, queues, packets and graphs (09, 11) -/

def State.copyTries (s : State) : List Try :=
  ((s.copy.copies.map (·.engine)).eraseDups.map execEvCopyChunkSend)
    ++ s.copy.copies.flatMap (fun c => [execEvCopyComplete c.cid, execEvFollowonEnter c.cid, execEvCopyReplay c.cid])
    ++ s.copy.scrubs.map (fun x => execEvScrubSector x.sid { fixed := false, bad := false })

/-- The start of a packet that has been dispatched. -/
def startTry (e : Entry) : List Try :=
  match e.kind with
  | 0 => [execEvNopPacket e.eid]
  | 1 => [execEvKernelPacket e.eid]
  | 2 => [execEvCopyPacket e.eid]
  | 3 => [execEvDovetailPacket e.eid]
  | 4 => [execEvCollectivePacket e.eid]
  | 5 => [execEvMigratePacket e.eid]
  | 6 => [execEvScrubPacket e.eid]
  | 7 => [execEvGraphPacket e.eid]
  | 8 => [execEvSignalPacket e.eid]
  | 9 => [execEvWaitPacket e.eid]
  | _ => []

def State.entryTries (s : State) (e : Entry) : List Try :=
  match e.stage with
  | 0 => dueAt s e.until_ (execEvEntryReady e.eid)
  | 1 => dueAt s e.agesAt (execEvLevelAging e.eid)
  | 2 => dueAt s e.until_ (execEvPrefetchWaitEnd e.eid)
  | 3 => startTry e
  | _ => if e.kind = 9 then execEvWaitSatisfied e.eid :: dueAt s e.until_ (execEvWaitTimeout e.eid) else []

/-- Completed nodes, and the nodes that wait for room in the pool. -/
def graphTries (g : Graph) : List Try :=
  ((g.nodes.filter fun p => p.2 == 2 || p.2 == 3).map fun p => execEvNodeComplete g.gid p.1)
    ++ ((g.nodes.filter fun p => p.2 == 6).map fun p => fun s => .next (State.admitNodes g.gid s [p.1]))

def State.distTries (s : State) : List Try :=
  s.dist.entries.flatMap s.entryTries ++ (s.dist.queues.map fun p => execEvQueueSlotRead (p.1 / 65536 / 64) (p.1 / 65536 % 64) (p.1 % 65536))
    ++ (if s.dist.entries.isEmpty then [] else (List.range 4).map execEvPoolDispatch)
    ++ s.dist.launches.flatMap (fun l => [execEvGroupTableLoad l.lid, execEvTeamStart l.lid, execEvLaunchComplete l.lid])
    ++ s.dist.graphs.flatMap graphTries
    ++ (s.sync.queues.filter fun p => p.2.scount != 0).map (fun p => execEvSpillMove p.1)
    ++ (s.ccbs.filter fun p => p.2.state == 2).flatMap (fun p =>
        [execEvSaveDrainDone (p.1 / 64) (p.1 % 64), execEvSaveComplete (p.1 / 64) (p.1 % 64)]
          ++ dueAt s (smGet 0 p.1 s.dist.drainEnd) (execEvForcedSave (p.1 / 64) (p.1 % 64)))

/-! ## Fabric and collectives (12, 13) -/

/-- A message that has arrived whole is taken (12 R372). -/
def takeMessage (m : Msg) : Try :=
  match m.mtype.toNat with
  | 1 => execEvRdreq m
  | 2 => execEvWrreq m
  | 3 => execEvAtreq m
  | 4 => execEvFnreq m
  | 5 => execEvSkip m
  | 8 => execEvRdrsp m
  | 9 => execEvWrack m
  | 10 => execEvAtrsp m
  | 11 => execEvFnack m
  | 12 => execEvErrrsp m
  | 13 => execEvCset m
  | 14 => execEvCdat m
  | 15 =>
    match m.aopst.toNat with
    | 1 => execEvCctlDone m
    | 2 => execEvCctlAbort m
    | 3 => execEvCctlCommit m
    | 4 => execEvCctlNosw m
    | _ => .next
  | _ => .next

def inboxTries (s : State) : List Try :=
  match s.fab.inbox with
  | [] => []
  | m :: ms => [fun s => takeMessage m { s with fab := { s.fab with inbox := ms } }]

def portTries (s : State) (k : Nat) (p : Port) : List Try :=
  (if p.nak = 1 then dueAt s (p.nakAt + 40) (execEvNakHoldExpiry k) else []) ++ (if p.nak = 2 then dueAt s (p.nakAt + 64) (execEvNakRepeat k) else [])
    ++ (if p.part.isEmpty then [] else dueAt s (p.lastUnit + 64) (execEvFlitFlush k)) ++ (if p.state = 2 then dueAt s (p.lastSent + 32) (execEvNullFlit k) else [])

def State.gapTry (s : State) (h : HeldReq) : List Try :=
  if h.m.num then dueAt s (h.since + 2 * (s.hpFab h.hp).timeout) (execEvLimopSeqGapTimeout h.hp h.m.speer.toNat h.m.sinc.toNat) else []

def State.fabTries (s : State) : List Try :=
  inboxTries s ++ ((s.fab.waiting.map (·.die)).eraseDups.map execEvRequestTableAdmit)
    ++ (s.fab.held.map fun h => fun s => .next (s.takeRequest h.m)) ++ s.fab.held.flatMap s.gapTry
    ++ s.fab.reqs.flatMap (fun r => dueAt s (r.sent + (s.hpFab r.hp).timeout) (execEvRequestTimeout r.die r.tag))
    ++ s.fab.cache.flatMap (fun c => dueAt s c.until_ (execEvResponseCacheExpiry c.die c.m.dpeer.toNat c.m.dinc.toNat c.m.tag.toNat))
    ++ s.fab.ports.flatMap (fun p => portTries s p.1 p.2)

def State.collTries (s : State) : List Try :=
  s.coll.ops.flatMap (fun o => [execEvCollectivePost o.oid, execEvCollectiveComplete o.oid]
      ++ (if o.timeout = 0 then [] else dueAt s (o.posted + 1000 * o.timeout) (execEvCollectiveTimeout o.oid)))
    ++ s.coll.held.flatMap (fun h =>
      dueAt s (h.since + 2 * (s.hpFab ((s.hpOfPeer h.m.dpeer.toNat).getD 0)).timeout) (execEvHeldMessageDiscard h.half))

/-! ## Registers (14) -/

/-- The oldest host access that waits is tried again. -/
def hostTries (s : State) : List Try := if s.dev.hostq.isEmpty then [] else [fun s => .next s.hostNext]

def State.devTries (s : State) : List Try :=
  hostTries s ++ (s.dev.relock.map fun p => execEvStepRelockDone p.1) ++ (if s.dev.planBusy then [execEvPlanChangeDone] else [])
    ++ (if s.dev.keyBusy then [execEvKeyDestroyDone] else []) ++ (if s.dev.rsBusy then [execEvResyncDone] else [])
    ++ s.dev.srpol.flatMap (fun p => if p.2.expiry ≤ s.clk.ticks then [execEvSelfRefreshEntry p.1] else [])

/-! ## The choice -/

def State.tries (s : State) : List Try :=
  s.memTries ++ s.runTries ++ s.copyTries ++ s.distTries ++ s.fabTries ++ s.collTries ++ s.devTries

def rotate {α : Type} (n : Nat) (xs : List α) : List α := xs.drop (n % max 1 xs.length) ++ xs.take (n % max 1 xs.length)

/-- The first that changes the machine, and has nothing to wait for. -/
def firstChange (s : State) : List Try → Option (Host.Outcome State Fault Refusal)
  | [] => none
  | f :: fs =>
    match f s with
    | .next t => if t.mem.blocked || t == s then firstChange s fs else some (.next t)
    | o => some o

/-- The partitions that have bents; the first of the device where none has. -/
def State.busyParts (s : State) : List Nat :=
  (s.gangs.map fun p => 4 * (s.team (p.1 / 64)).clusterOf (p.1 % 64) + (s.team (p.1 / 64)).partOf (p.1 % 64)).eraseDups

def State.autoClock (s : State) : Host.Outcome State Fault Refusal :=
  match rotate (s.clk.turn / 2) s.busyParts with
  | p :: _ => execEvIssueClock (p / 4) (p % 4) s
  | [] => execEvIssueClock 0 0 s

def State.bumpTurn (s : State) : State := { s with clk := { s.clk with turn := s.clk.turn + 1 } }

def bumpOutcome : Host.Outcome State Fault Refusal → Host.Outcome State Fault Refusal
  | .next s => .next s.bumpTurn
  | .fault f => .fault f
  | .refused r => .refused r

/-- The step of an engine, or the issue clock, whose turn it is. -/
def State.autoStep (s : State) : Host.Outcome State Fault Refusal :=
  if s.clk.turn % 2 = 0 then
    match firstChange s (rotate (s.clk.turn / 2) s.tries) with
    | some o => bumpOutcome o
    | none => bumpOutcome s.autoClock
  else bumpOutcome s.autoClock

end Sys2Proof.Machine
end

