-- ==== Sys2Proof/Machine/BaseArith.lean ====
section
/-! DEFINITION. The base classes BVI, BVF, BVH, BSI, BVII, BSII, BVC, BSC (05 R149 to R151). -/

namespace Sys2Proof.Machine

/-- Base forms round to nearest even, without SAT and FTZ (R149). -/
def baseMode : FMode := { rnd := .rn, sat := false, ftz := false }

/-- An i32 operation of XI as a base operation. -/
def base32 (op : IntOp) (a b _d : Nat) : Nat × FFlags := op .i32 false a b 0

def baseMov (_a b : Nat) (_d : Nat) : Nat × FFlags := (b, 0)

def imm32 (op : IntOp) (a b : Nat) : Nat × FFlags := op .i32 false a b 0

def immMov (_a b : Nat) : Nat × FFlags := (b, 0)

abbrev FOp2 := Fmt → FMode → Nat → Nat → Nat × FFlags

def fOp32 (op : FOp2) (a b _d : Nat) : Nat × FFlags := op fmtF32 baseMode a b

/-- Both halves of a packed pair (02 R43, 05 R150). -/
def packed (f : Nat → Nat → Nat → Nat × FFlags) (a b d : Nat) : Nat × FFlags :=
  let (lo, fl) := f (a % 2 ^ 16) (b % 2 ^ 16) (d % 2 ^ 16)
  let (hi, fl') := f (a / 2 ^ 16 % 2 ^ 16) (b / 2 ^ 16 % 2 ^ 16) (d / 2 ^ 16 % 2 ^ 16)
  (lo + hi * 2 ^ 16, fl ||| fl')

def packed2 (fmt : Fmt) (op : FOp2) : Nat → Nat → Nat → Nat × FFlags := packed fun a b _ => op fmt baseMode a b

def icmp (t : Ty) (cc : Nat) (a b : Nat) : Bool × FFlags := (intCompare t cc a b, 0)
def fcmp32 (cc : Nat) (a b : Nat) : Bool × FFlags := fSet fmtF32 false cc a b

/-- BVI_ADD (R149): Base vector integer add on i32, with B a vector or a scalar register. -/
def execBviAdd (o : B3) (s : State) : Host.Outcome State Fault Refusal :=
  issueB3 (.bviAdd o) false true true false o (base32 opAdd) s

/-- BVI_SUB (R149): Base vector integer subtract on i32. -/
def execBviSub (o : B3) (s : State) : Host.Outcome State Fault Refusal :=
  issueB3 (.bviSub o) false true true false o (base32 opSub) s

/-- BVI_MUL (R149): Base vector integer multiply, keeping bits 31:0. -/
def execBviMul (o : B3) (s : State) : Host.Outcome State Fault Refusal :=
  issueB3 (.bviMul o) false true true false o (base32 opMul) s

/-- BVI_MIN (R149): Base vector signed minimum. -/
def execBviMin (o : B3) (s : State) : Host.Outcome State Fault Refusal :=
  issueB3 (.bviMin o) false true true false o (base32 opMin) s

/-- BVI_MAX (R149): Base vector signed maximum. -/
def execBviMax (o : B3) (s : State) : Host.Outcome State Fault Refusal :=
  issueB3 (.bviMax o) false true true false o (base32 opMax) s

/-- BVI_AND (R149): Base vector bitwise AND. -/
def execBviAnd (o : B3) (s : State) : Host.Outcome State Fault Refusal :=
  issueB3 (.bviAnd o) false true true false o (base32 opAnd) s

/-- BVI_OR (R149): Base vector bitwise OR. -/
def execBviOr (o : B3) (s : State) : Host.Outcome State Fault Refusal :=
  issueB3 (.bviOr o) false true true false o (base32 opOr) s

/-- BVI_XOR (R149): Base vector bitwise XOR. -/
def execBviXor (o : B3) (s : State) : Host.Outcome State Fault Refusal :=
  issueB3 (.bviXor o) false true true false o (base32 opXor) s

/-- BVI_ANDN (R149): Base vector a AND NOT b. -/
def execBviAndn (o : B3) (s : State) : Host.Outcome State Fault Refusal :=
  issueB3 (.bviAndn o) false true true false o (base32 opAndn) s

/-- BVI_SHL (R149): Base vector shift left by an unsigned count. -/
def execBviShl (o : B3) (s : State) : Host.Outcome State Fault Refusal :=
  issueB3 (.bviShl o) false true true false o (base32 opShl) s

/-- BVI_SHR (R149): Base vector logical shift right. -/
def execBviShr (o : B3) (s : State) : Host.Outcome State Fault Refusal :=
  issueB3 (.bviShr o) false true true false o (base32 opShr) s

/-- BVI_SAR (R149): Base vector arithmetic shift right. -/
def execBviSar (o : B3) (s : State) : Host.Outcome State Fault Refusal :=
  issueB3 (.bviSar o) false true true false o (base32 opSar) s

/-- BVI_MOV (R149): Base vector move, d := b. -/
def execBviMov (o : B3) (s : State) : Host.Outcome State Fault Refusal :=
  issueB3 (.bviMov o) false false true false o baseMov s

/-- BSI_ADD (R149): Base scalar integer add, once per slice. -/
def execBsiAdd (o : B3) (s : State) : Host.Outcome State Fault Refusal :=
  issueB3 (.bsiAdd o) true true true false o (base32 opAdd) s

/-- BSI_SUB (R149): Base scalar subtract. -/
def execBsiSub (o : B3) (s : State) : Host.Outcome State Fault Refusal :=
  issueB3 (.bsiSub o) true true true false o (base32 opSub) s

/-- BSI_MUL (R149): Base scalar multiply. -/
def execBsiMul (o : B3) (s : State) : Host.Outcome State Fault Refusal :=
  issueB3 (.bsiMul o) true true true false o (base32 opMul) s

/-- BSI_MIN (R149): Base scalar signed minimum. -/
def execBsiMin (o : B3) (s : State) : Host.Outcome State Fault Refusal :=
  issueB3 (.bsiMin o) true true true false o (base32 opMin) s

/-- BSI_MAX (R149): Base scalar signed maximum. -/
def execBsiMax (o : B3) (s : State) : Host.Outcome State Fault Refusal :=
  issueB3 (.bsiMax o) true true true false o (base32 opMax) s

/-- BSI_AND (R149): Base scalar AND. -/
def execBsiAnd (o : B3) (s : State) : Host.Outcome State Fault Refusal :=
  issueB3 (.bsiAnd o) true true true false o (base32 opAnd) s

/-- BSI_OR (R149): Base scalar OR. -/
def execBsiOr (o : B3) (s : State) : Host.Outcome State Fault Refusal :=
  issueB3 (.bsiOr o) true true true false o (base32 opOr) s

/-- BSI_XOR (R149): Base scalar XOR. -/
def execBsiXor (o : B3) (s : State) : Host.Outcome State Fault Refusal :=
  issueB3 (.bsiXor o) true true true false o (base32 opXor) s

/-- BSI_ANDN (R149): Base scalar a AND NOT b. -/
def execBsiAndn (o : B3) (s : State) : Host.Outcome State Fault Refusal :=
  issueB3 (.bsiAndn o) true true true false o (base32 opAndn) s

/-- BSI_SHL (R149): Base scalar shift left. -/
def execBsiShl (o : B3) (s : State) : Host.Outcome State Fault Refusal :=
  issueB3 (.bsiShl o) true true true false o (base32 opShl) s

/-- BSI_SHR (R149): Base scalar logical shift right. -/
def execBsiShr (o : B3) (s : State) : Host.Outcome State Fault Refusal :=
  issueB3 (.bsiShr o) true true true false o (base32 opShr) s

/-- BSI_SAR (R149): Base scalar arithmetic shift right. -/
def execBsiSar (o : B3) (s : State) : Host.Outcome State Fault Refusal :=
  issueB3 (.bsiSar o) true true true false o (base32 opSar) s

/-- BSI_MOV (R149): Base scalar move. -/
def execBsiMov (o : B3) (s : State) : Host.Outcome State Fault Refusal :=
  issueB3 (.bsiMov o) true false true false o baseMov s

/-- BVF_FADD (R149): Base vector f32 add, to nearest even. -/
def execBvfFadd (o : B3) (s : State) : Host.Outcome State Fault Refusal :=
  issueB3 (.bvfFadd o) false true true false o (fOp32 fAdd) s

/-- BVF_FSUB (R149): Base vector f32 subtract. -/
def execBvfFsub (o : B3) (s : State) : Host.Outcome State Fault Refusal :=
  issueB3 (.bvfFsub o) false true true false o (fOp32 fSub) s

/-- BVF_FMUL (R149): Base vector f32 multiply. -/
def execBvfFmul (o : B3) (s : State) : Host.Outcome State Fault Refusal :=
  issueB3 (.bvfFmul o) false true true false o (fOp32 fMul) s

/-- BVF_FMIN (R149): Base vector f32 minimum. -/
def execBvfFmin (o : B3) (s : State) : Host.Outcome State Fault Refusal :=
  issueB3 (.bvfFmin o) false true true false o (fOp32 (fMinMax false)) s

/-- BVF_FMAX (R149): Base vector f32 maximum. -/
def execBvfFmax (o : B3) (s : State) : Host.Outcome State Fault Refusal :=
  issueB3 (.bvfFmax o) false true true false o (fOp32 (fMinMax true)) s

/-- BVF_FFMA (R149): Base vector f32 fused multiply-add, d := a*b + d. -/
def execBvfFfma (o : B3) (s : State) : Host.Outcome State Fault Refusal :=
  issueB3 (.bvfFfma o) false true true true o (fFma fmtF32 baseMode) s

/-- BVF_FRCP (R161): Base vector f32 reciprocal. -/
def execBvfFrcp (o : B3) (s : State) : Host.Outcome State Fault Refusal :=
  issueB3 (.bvfFrcp o) false true false false o (fun a _ _ => fRcp fmtF32 baseMode a) s

/-- BVF_FRSQ (R161): Base vector f32 reciprocal square root. -/
def execBvfFrsq (o : B3) (s : State) : Host.Outcome State Fault Refusal :=
  issueB3 (.bvfFrsq o) false true false false o (fun a _ _ => fRsq fmtF32 baseMode a) s

/-- BVF_FSQRT (R161): Base vector f32 square root. -/
def execBvfFsqrt (o : B3) (s : State) : Host.Outcome State Fault Refusal :=
  issueB3 (.bvfFsqrt o) false true false false o (fun a _ _ => fSqrt fmtF32 baseMode a) s

/-- BVF_FEX2 (R161): Base vector f32 base-2 exponential. -/
def execBvfFex2 (o : B3) (s : State) : Host.Outcome State Fault Refusal :=
  issueB3 (.bvfFex2 o) false true false false o (fun a _ _ => fEx2 fmtF32 baseMode a) s

/-- BVF_FLG2 (R161): Base vector f32 base-2 logarithm. -/
def execBvfFlg2 (o : B3) (s : State) : Host.Outcome State Fault Refusal :=
  issueB3 (.bvfFlg2 o) false true false false o (fun a _ _ => fLg2 fmtF32 baseMode a) s

/-- BVH_FADD_F16X2 (R150): Packed f16x2 add, element by element. -/
def execBvhFaddF16x2 (o : B3) (s : State) : Host.Outcome State Fault Refusal :=
  issueB3 (.bvhFaddF16x2 o) false true true false o (packed2 fmtF16 fAdd) s

/-- BVH_FSUB_F16X2 (R150): Packed f16x2 subtract. -/
def execBvhFsubF16x2 (o : B3) (s : State) : Host.Outcome State Fault Refusal :=
  issueB3 (.bvhFsubF16x2 o) false true true false o (packed2 fmtF16 fSub) s

/-- BVH_FMUL_F16X2 (R150): Packed f16x2 multiply. -/
def execBvhFmulF16x2 (o : B3) (s : State) : Host.Outcome State Fault Refusal :=
  issueB3 (.bvhFmulF16x2 o) false true true false o (packed2 fmtF16 fMul) s

/-- BVH_FMIN_F16X2 (R150): Packed f16x2 minimum. -/
def execBvhFminF16x2 (o : B3) (s : State) : Host.Outcome State Fault Refusal :=
  issueB3 (.bvhFminF16x2 o) false true true false o (packed2 fmtF16 (fMinMax false)) s

/-- BVH_FMAX_F16X2 (R150): Packed f16x2 maximum. -/
def execBvhFmaxF16x2 (o : B3) (s : State) : Host.Outcome State Fault Refusal :=
  issueB3 (.bvhFmaxF16x2 o) false true true false o (packed2 fmtF16 (fMinMax true)) s

/-- BVH_FFMA_F16X2 (R150): Packed f16x2 fused multiply-add into d. -/
def execBvhFfmaF16x2 (o : B3) (s : State) : Host.Outcome State Fault Refusal :=
  issueB3 (.bvhFfmaF16x2 o) false true true true o (packed (fFma fmtF16 baseMode)) s

/-- BVH_FADD_BF16X2 (R150): Packed bf16x2 add. -/
def execBvhFaddBf16x2 (o : B3) (s : State) : Host.Outcome State Fault Refusal :=
  issueB3 (.bvhFaddBf16x2 o) false true true false o (packed2 fmtBf16 fAdd) s

/-- BVH_FSUB_BF16X2 (R150): Packed bf16x2 subtract. -/
def execBvhFsubBf16x2 (o : B3) (s : State) : Host.Outcome State Fault Refusal :=
  issueB3 (.bvhFsubBf16x2 o) false true true false o (packed2 fmtBf16 fSub) s

/-- BVH_FMUL_BF16X2 (R150): Packed bf16x2 multiply. -/
def execBvhFmulBf16x2 (o : B3) (s : State) : Host.Outcome State Fault Refusal :=
  issueB3 (.bvhFmulBf16x2 o) false true true false o (packed2 fmtBf16 fMul) s

/-- BVH_FMIN_BF16X2 (R150): Packed bf16x2 minimum. -/
def execBvhFminBf16x2 (o : B3) (s : State) : Host.Outcome State Fault Refusal :=
  issueB3 (.bvhFminBf16x2 o) false true true false o (packed2 fmtBf16 (fMinMax false)) s

/-- BVH_FMAX_BF16X2 (R150): Packed bf16x2 maximum. -/
def execBvhFmaxBf16x2 (o : B3) (s : State) : Host.Outcome State Fault Refusal :=
  issueB3 (.bvhFmaxBf16x2 o) false true true false o (packed2 fmtBf16 (fMinMax true)) s

/-- BVH_FFMA_BF16X2 (R150): Packed bf16x2 fused multiply-add into d. -/
def execBvhFfmaBf16x2 (o : B3) (s : State) : Host.Outcome State Fault Refusal :=
  issueB3 (.bvhFfmaBf16x2 o) false true true true o (packed (fFma fmtBf16 baseMode)) s

/-- BVII_ADD (R149): Vector add of a sign-extended 9-bit immediate. -/
def execBviiAdd (o : BI) (s : State) : Host.Outcome State Fault Refusal :=
  issueBI (.bviiAdd o) false true o (imm32 opAdd) s

/-- BVII_AND (R149): Vector AND with an immediate. -/
def execBviiAnd (o : BI) (s : State) : Host.Outcome State Fault Refusal :=
  issueBI (.bviiAnd o) false true o (imm32 opAnd) s

/-- BVII_OR (R149): Vector OR with an immediate. -/
def execBviiOr (o : BI) (s : State) : Host.Outcome State Fault Refusal :=
  issueBI (.bviiOr o) false true o (imm32 opOr) s

/-- BVII_XOR (R149): Vector XOR with an immediate. -/
def execBviiXor (o : BI) (s : State) : Host.Outcome State Fault Refusal :=
  issueBI (.bviiXor o) false true o (imm32 opXor) s

/-- BVII_SHL (R149): Vector shift left by an immediate. -/
def execBviiShl (o : BI) (s : State) : Host.Outcome State Fault Refusal :=
  issueBI (.bviiShl o) false true o (imm32 opShl) s

/-- BVII_SHR (R149): Vector logical shift right by an immediate. -/
def execBviiShr (o : BI) (s : State) : Host.Outcome State Fault Refusal :=
  issueBI (.bviiShr o) false true o (imm32 opShr) s

/-- BVII_SAR (R149): Vector arithmetic shift right by an immediate. -/
def execBviiSar (o : BI) (s : State) : Host.Outcome State Fault Refusal :=
  issueBI (.bviiSar o) false true o (imm32 opSar) s

/-- BVII_MOV (R149): Vector move of a sign-extended immediate. -/
def execBviiMov (o : BI) (s : State) : Host.Outcome State Fault Refusal :=
  issueBI (.bviiMov o) false false o immMov s

/-- BSII_ADD (R149): Scalar add of an immediate. -/
def execBsiiAdd (o : BI) (s : State) : Host.Outcome State Fault Refusal :=
  issueBI (.bsiiAdd o) true true o (imm32 opAdd) s

/-- BSII_AND (R149): Scalar AND with an immediate. -/
def execBsiiAnd (o : BI) (s : State) : Host.Outcome State Fault Refusal :=
  issueBI (.bsiiAnd o) true true o (imm32 opAnd) s

/-- BSII_OR (R149): Scalar OR with an immediate. -/
def execBsiiOr (o : BI) (s : State) : Host.Outcome State Fault Refusal :=
  issueBI (.bsiiOr o) true true o (imm32 opOr) s

/-- BSII_XOR (R149): Scalar XOR with an immediate. -/
def execBsiiXor (o : BI) (s : State) : Host.Outcome State Fault Refusal :=
  issueBI (.bsiiXor o) true true o (imm32 opXor) s

/-- BSII_SHL (R149): Scalar shift left by an immediate. -/
def execBsiiShl (o : BI) (s : State) : Host.Outcome State Fault Refusal :=
  issueBI (.bsiiShl o) true true o (imm32 opShl) s

/-- BSII_SHR (R149): Scalar logical shift right by an immediate. -/
def execBsiiShr (o : BI) (s : State) : Host.Outcome State Fault Refusal :=
  issueBI (.bsiiShr o) true true o (imm32 opShr) s

/-- BSII_SAR (R149): Scalar arithmetic shift right by an immediate. -/
def execBsiiSar (o : BI) (s : State) : Host.Outcome State Fault Refusal :=
  issueBI (.bsiiSar o) true true o (imm32 opSar) s

/-- BSII_MOV (R149): Scalar move of an immediate. -/
def execBsiiMov (o : BI) (s : State) : Host.Outcome State Fault Refusal :=
  issueBI (.bsiiMov o) true false o immMov s

/-- BVC_ISET_EQ (R151): Vector signed i32 compare equal into a predicate. -/
def execBvcIsetEq (o : B3) (s : State) : Host.Outcome State Fault Refusal :=
  issueCmp (.bvcIsetEq o) false o (icmp .i32 0) s

/-- BVC_ISET_NE (R151): Vector compare not equal into a predicate. -/
def execBvcIsetNe (o : B3) (s : State) : Host.Outcome State Fault Refusal :=
  issueCmp (.bvcIsetNe o) false o (icmp .i32 1) s

/-- BVC_ISET_LT (R151): Vector signed compare less than into a predicate. -/
def execBvcIsetLt (o : B3) (s : State) : Host.Outcome State Fault Refusal :=
  issueCmp (.bvcIsetLt o) false o (icmp .i32 2) s

/-- BVC_ISET_LE (R151): Vector signed compare less or equal into a predicate. -/
def execBvcIsetLe (o : B3) (s : State) : Host.Outcome State Fault Refusal :=
  issueCmp (.bvcIsetLe o) false o (icmp .i32 3) s

/-- BVC_ISET_GT (R151): Vector signed compare greater than into a predicate. -/
def execBvcIsetGt (o : B3) (s : State) : Host.Outcome State Fault Refusal :=
  issueCmp (.bvcIsetGt o) false o (icmp .i32 4) s

/-- BVC_ISET_GE (R151): Vector signed compare greater or equal into a predicate. -/
def execBvcIsetGe (o : B3) (s : State) : Host.Outcome State Fault Refusal :=
  issueCmp (.bvcIsetGe o) false o (icmp .i32 5) s

/-- BVC_ISET_EQ_Z32 (R151): Vector unsigned compare equal into a predicate. -/
def execBvcIsetEqZ32 (o : B3) (s : State) : Host.Outcome State Fault Refusal :=
  issueCmp (.bvcIsetEqZ32 o) false o (icmp .z32 0) s

/-- BVC_ISET_NE_Z32 (R151): Vector unsigned compare not equal into a predicate. -/
def execBvcIsetNeZ32 (o : B3) (s : State) : Host.Outcome State Fault Refusal :=
  issueCmp (.bvcIsetNeZ32 o) false o (icmp .z32 1) s

/-- BVC_ISET_LT_Z32 (R151): Vector unsigned compare less than into a predicate. -/
def execBvcIsetLtZ32 (o : B3) (s : State) : Host.Outcome State Fault Refusal :=
  issueCmp (.bvcIsetLtZ32 o) false o (icmp .z32 2) s

/-- BVC_ISET_LE_Z32 (R151): Vector unsigned compare less or equal into a predicate. -/
def execBvcIsetLeZ32 (o : B3) (s : State) : Host.Outcome State Fault Refusal :=
  issueCmp (.bvcIsetLeZ32 o) false o (icmp .z32 3) s

/-- BVC_ISET_GT_Z32 (R151): Vector unsigned compare greater than into a predicate. -/
def execBvcIsetGtZ32 (o : B3) (s : State) : Host.Outcome State Fault Refusal :=
  issueCmp (.bvcIsetGtZ32 o) false o (icmp .z32 4) s

/-- BVC_ISET_GE_Z32 (R151): Vector unsigned compare greater or equal into a predicate. -/
def execBvcIsetGeZ32 (o : B3) (s : State) : Host.Outcome State Fault Refusal :=
  issueCmp (.bvcIsetGeZ32 o) false o (icmp .z32 5) s

/-- BVC_FSET_EQ (R151): Vector ordered f32 compare equal into a predicate. -/
def execBvcFsetEq (o : B3) (s : State) : Host.Outcome State Fault Refusal :=
  issueCmp (.bvcFsetEq o) false o (fcmp32 0) s

/-- BVC_FSET_NE (R151): Vector ordered f32 compare not equal into a predicate. -/
def execBvcFsetNe (o : B3) (s : State) : Host.Outcome State Fault Refusal :=
  issueCmp (.bvcFsetNe o) false o (fcmp32 1) s

/-- BVC_FSET_LT (R151): Vector f32 compare less than into a predicate. -/
def execBvcFsetLt (o : B3) (s : State) : Host.Outcome State Fault Refusal :=
  issueCmp (.bvcFsetLt o) false o (fcmp32 2) s

/-- BVC_FSET_LE (R151): Vector f32 compare less or equal into a predicate. -/
def execBvcFsetLe (o : B3) (s : State) : Host.Outcome State Fault Refusal :=
  issueCmp (.bvcFsetLe o) false o (fcmp32 3) s

/-- BVC_FSET_GT (R151): Vector f32 compare greater than into a predicate. -/
def execBvcFsetGt (o : B3) (s : State) : Host.Outcome State Fault Refusal :=
  issueCmp (.bvcFsetGt o) false o (fcmp32 4) s

/-- BVC_FSET_GE (R151): Vector f32 compare greater or equal into a predicate. -/
def execBvcFsetGe (o : B3) (s : State) : Host.Outcome State Fault Refusal :=
  issueCmp (.bvcFsetGe o) false o (fcmp32 5) s

/-- BVC_FSET_UNORD (R151): Vector f32 unordered test into a predicate. -/
def execBvcFsetUnord (o : B3) (s : State) : Host.Outcome State Fault Refusal :=
  issueCmp (.bvcFsetUnord o) false o (fcmp32 6) s

/-- BSC_ISET_EQ (R151): Scalar signed compare equal, writing 1 or 0. -/
def execBscIsetEq (o : B3) (s : State) : Host.Outcome State Fault Refusal :=
  issueCmp (.bscIsetEq o) true o (icmp .i32 0) s

/-- BSC_ISET_NE (R151): Scalar compare not equal. -/
def execBscIsetNe (o : B3) (s : State) : Host.Outcome State Fault Refusal :=
  issueCmp (.bscIsetNe o) true o (icmp .i32 1) s

/-- BSC_ISET_LT (R151): Scalar signed compare less than. -/
def execBscIsetLt (o : B3) (s : State) : Host.Outcome State Fault Refusal :=
  issueCmp (.bscIsetLt o) true o (icmp .i32 2) s

/-- BSC_ISET_LE (R151): Scalar signed compare less or equal. -/
def execBscIsetLe (o : B3) (s : State) : Host.Outcome State Fault Refusal :=
  issueCmp (.bscIsetLe o) true o (icmp .i32 3) s

/-- BSC_ISET_GT (R151): Scalar signed compare greater than. -/
def execBscIsetGt (o : B3) (s : State) : Host.Outcome State Fault Refusal :=
  issueCmp (.bscIsetGt o) true o (icmp .i32 4) s

/-- BSC_ISET_GE (R151): Scalar signed compare greater or equal. -/
def execBscIsetGe (o : B3) (s : State) : Host.Outcome State Fault Refusal :=
  issueCmp (.bscIsetGe o) true o (icmp .i32 5) s

/-- BSC_ISET_EQ_Z32 (R151): Scalar unsigned compare equal. -/
def execBscIsetEqZ32 (o : B3) (s : State) : Host.Outcome State Fault Refusal :=
  issueCmp (.bscIsetEqZ32 o) true o (icmp .z32 0) s

/-- BSC_ISET_NE_Z32 (R151): Scalar unsigned compare not equal. -/
def execBscIsetNeZ32 (o : B3) (s : State) : Host.Outcome State Fault Refusal :=
  issueCmp (.bscIsetNeZ32 o) true o (icmp .z32 1) s

/-- BSC_ISET_LT_Z32 (R151): Scalar unsigned compare less than. -/
def execBscIsetLtZ32 (o : B3) (s : State) : Host.Outcome State Fault Refusal :=
  issueCmp (.bscIsetLtZ32 o) true o (icmp .z32 2) s

/-- BSC_ISET_LE_Z32 (R151): Scalar unsigned compare less or equal. -/
def execBscIsetLeZ32 (o : B3) (s : State) : Host.Outcome State Fault Refusal :=
  issueCmp (.bscIsetLeZ32 o) true o (icmp .z32 3) s

/-- BSC_ISET_GT_Z32 (R151): Scalar unsigned compare greater than. -/
def execBscIsetGtZ32 (o : B3) (s : State) : Host.Outcome State Fault Refusal :=
  issueCmp (.bscIsetGtZ32 o) true o (icmp .z32 4) s

/-- BSC_ISET_GE_Z32 (R151): Scalar unsigned compare greater or equal. -/
def execBscIsetGeZ32 (o : B3) (s : State) : Host.Outcome State Fault Refusal :=
  issueCmp (.bscIsetGeZ32 o) true o (icmp .z32 5) s

end Sys2Proof.Machine
end

