-- ==== Sys2Proof/Machine/Cross.lean ====
section
/-! DEFINITION. The cross-lane instructions XL: SHFL, VOTE, GRED, GSCAN and MATCH (04 R131 to R135, 02 R67, R68). -/

namespace Sys2Proof.Machine

/-! ## Scopes and present lanes (R131) -/

/-- The number of positions of a scope. -/
def scopeSize (ls : BitVec 2) : Nat := if ls = 0 then 4 else 32

def scopePos (ls : BitVec 2) (r : SliceRef) (j : Nat) : Nat := if ls = 0 then j else bentPos r j

/-- The groups of slices over which the instruction acts: each slice alone, or all that take part. -/
def scopeGroups (ls : BitVec 2) (rs : List SliceRef) : List (List SliceRef) := if ls = 0 then rs.map fun r => [r] else [rs]

/-- A present lane: its slice, lane and position. -/
structure Lane where
  r : SliceRef
  j : Nat
  q : Nat

def lanesOf (s : State) (h : Head) (ls : BitVec 2) (rs : List SliceRef) : List Lane :=
  (presentLanes s h.gp h.gn rs).map fun p => { r := p.1, j := p.2, q := scopePos ls p.1 p.2 }

def posMask : List Lane → Nat
  | [] => 0
  | l :: ls => 2 ^ l.q + posMask ls

/-- Writes to lanes, applied. -/
def putLanes (s : State) : List (SliceRef × List RegWrite) → State
  | [] => s
  | (r, ws) :: xs => (putLanes s xs).modSlice r fun x => x.putAll ws

/-- Flags raised in every slice of a group (R134). The rule says so of additions; the model routes the NV of a minimum or maximum in
the same way (DESIGN CHOICE, log entry 27). -/
def raiseGroup (s : State) (fl : FFlags) : List SliceRef → State
  | [] => s
  | r :: rs => (raiseGroup s fl rs).modSlice r fun x => x.raise fl

/-- Applies `f` to each group. -/
def overGroups (f : State → List SliceRef → State) (s : State) : List (List SliceRef) → State
  | [] => s
  | g :: gs => overGroups f (f s g) gs

/-- The issue of an XL instruction: .slice and .gang at once, .bent after the implicit REGANG. -/
def issueCross (i : Instr) (h : Head) (w : Cross) (regs : List Reg) (f : State → List SliceRef → State) (s : State) :
    Host.Outcome State Fault Refusal :=
  let info := Head.info h (regs ++ guardRegs h)
  let body := fun (s : State) (rs : List SliceRef) =>
    Attempt.done (overGroups f s (scopeGroups w.ls rs)) (allGo i s rs)
  if w.ls = 2 then issueBent i info body s else issueGang i info body s

/-! ## SHFL (R133) -/

def shflSource (sub : Nat) (q b : Nat) : Int :=
  match sub with
  | 0 => b
  | 1 => (q : Int) - b
  | 2 => (q : Int) + b
  | _ => ((q ^^^ b : Nat) : Int)

def shflGroup (h : Head) (w : Cross) (s : State) (rs : List SliceRef) : State :=
  let lanes := lanesOf s h w.ls rs
  putLanes s (lanes.map fun l =>
    let x := s.slice l.r
    let b := if w.bi then (if h.lit.isSome then litBits h.lit % 2 ^ 32 else w.imm.toNat) else (x.getV h.b.toNat l.j).toNat
    let src := shflSource w.sub.toNat l.q b
    let v := match lanes.find? fun m => (m.q : Int) == src with
      | some m => (s.slice m.r).value w.ty false h.a.toNat m.j
      | none => if w.fl then x.value w.ty false h.c.toNat l.j else 0
    (l.r, writesFrom false l.j h.d.toNat (if w.ty.regs = 2 then [BitVec.ofNat 32 v, BitVec.ofNat 32 (v / 2 ^ 32)] else [BitVec.ofNat 32 v])))

/-- SHFL (R133): Moves a value between lane positions of a scope. -/
def execXlShfl (h : Head) (w : Cross) (s : State) : Host.Outcome State Fault Refusal :=
  let n := w.ty.regs
  issueCross (.xlShfl h w) h w
    (regGroup false n h.d.toNat ++ regGroup false n h.a.toNat ++ (if w.bi then [] else [.v h.b.toNat])
      ++ (if w.fl then regGroup false n h.c.toNat else [])) (shflGroup h w) s

/-! ## VOTE (R134) -/

def voteGroup (h : Head) (w : Cross) (s : State) (rs : List SliceRef) : State :=
  let lanes := lanesOf s h w.ls rs
  let set := lanes.filter fun l => (s.slice l.r).getP w.ps.toNat l.j
  match w.sub.toNat with
  | 3 => putLanes s (rs.map fun r => (r, [{ reg := .s h.d.toNat, lane := 0, val := BitVec.ofNat 32 (posMask set) }]))
  | n =>
    let v := match n with
      | 0 => !set.isEmpty
      | 1 => set.length == lanes.length
      | _ => set.isEmpty
    putLanes s (lanes.map fun l => (l.r, [{ reg := .p h.d.toNat, lane := l.j, val := boolWord v }]))

/-- VOTE (R134): Evaluates a predicate over the present lanes. -/
def execXlVote (h : Head) (w : Cross) (s : State) : Host.Outcome State Fault Refusal :=
  issueCross (.xlVote h w) h w [if w.sub = 3 then .s h.d.toNat else .p h.d.toNat, .p w.ps.toNat] (voteGroup h w) s

/-! ## GRED and GSCAN (R134) -/

/-- One step of a reduction on two patterns, with its flags: those of a float addition, and NV where a float minimum or maximum
consumes a signalling NaN (02 R46). -/
def combine2 (op : Nat) (t : Ty) (rnd : Rnd) (a b : Nat) : Nat × FFlags :=
  match tyFmt t with
  | some f =>
    let m : FMode := { rnd := rnd, sat := false, ftz := false }
    if op = 0 then fAdd f m a b else fMinMax (op == 2) f m a b
  | none =>
    match op with
    | 0 => opAdd t false a b 0
    | 1 => opMin t false a b 0
    | 2 => opMax t false a b 0
    | 3 => opAnd t false a b 0
    | 4 => opOr t false a b 0
    | _ => opXor t false a b 0

/-- One level of the pairwise tree: a node with one input passes it on (02 R68). -/
def treeLevel (op : Nat) (t : Ty) (rnd : Rnd) : List (Option Nat) → List (Option Nat) × FFlags
  | a :: b :: xs =>
    let (ys, fl) := treeLevel op t rnd xs
    match a, b with
    | some a, some b => let (v, f) := combine2 op t rnd a b; (some v :: ys, fl ||| f)
    | some a, none => (some a :: ys, fl)
    | none, b => (b :: ys, fl)
  | xs => (xs, 0)

/-- The tree over 2^k positions. -/
def treeReduce (op : Nat) (t : Ty) (rnd : Rnd) : Nat → List (Option Nat) → Option Nat × FFlags
  | 0, xs => (xs.headD none, 0)
  | k + 1, xs =>
    let (ys, fl) := treeLevel op t rnd xs
    let (v, fl') := treeReduce op t rnd k ys
    (v, fl ||| fl')

/-- The values at the positions of a scope. -/
def scopeValues (s : State) (h : Head) (w : Cross) (lanes : List Lane) : List (Option Nat) :=
  (List.range (scopeSize w.ls)).map fun q =>
    (lanes.find? fun l => l.q == q).map fun l => (s.slice l.r).value w.ty false h.a.toNat l.j

def typeWrites (t : Ty) (lane d v : Nat) : List RegWrite := resultWrites t false lane d v

def gredGroup (h : Head) (w : Cross) (s : State) (rs : List SliceRef) : State :=
  let lanes := lanesOf s h w.ls rs
  let (v, fl) := treeReduce w.sub.toNat w.ty w.rnd 5 (scopeValues s h w lanes)
  match v with
  | none => s
  | some v => raiseGroup (putLanes s (lanes.map fun l => (l.r, typeWrites w.ty l.j h.d.toNat v))) fl rs

def crossRegs (h : Head) (w : Cross) : List Reg := regGroup false w.ty.regs h.d.toNat ++ regGroup false w.ty.regs h.a.toNat

/-- GRED (R134): Reduces over the present lanes in tree order. -/
def execXlGred (h : Head) (w : Cross) (s : State) : Host.Outcome State Fault Refusal :=
  issueCross (.xlGred h w) h w (crossRegs h w) (gredGroup h w) s

/-- The identity of an exclusive scan (R134). -/
def scanIdentity (op : Nat) (t : Ty) : Nat :=
  match tyFmt t with
  | some f => match op with | 1 => f.infCode | 2 => f.withSign true f.infCode | _ => 0
  | none =>
    let w := tyWidth t
    match op with
    | 1 => wrapInt w (intMax (tySigned t) w)
    | 2 => wrapInt w (intMin (tySigned t) w)
    | 3 => 2 ^ w - 1
    | _ => 0

/-- What the lanes get, by rising position: with `excl` the combination of those below. `acc` is the combination
so far, if any lane was present. -/
def scanValues (op : Nat) (t : Ty) (rnd : Rnd) (excl : Bool) (acc : Option Nat) : List (Lane × Nat) → List (Lane × Nat) × FFlags
  | [] => ([], 0)
  | (l, v) :: rest =>
    let (inc, fl) := match acc with
      | none => (v, 0)
      | some a => combine2 op t rnd a v
    if excl then
      let (ys, fl') := scanValues op t rnd excl (some inc) rest
      ((l, acc.getD (scanIdentity op t)) :: ys, if rest.isEmpty then fl' else fl ||| fl')
    else
      let (ys, fl') := scanValues op t rnd excl (some inc) rest
      ((l, inc) :: ys, fl ||| fl')

/-- The lanes by rising position. -/
def sortLanes (n : Nat) (lanes : List Lane) : List Lane := (List.range n).flatMap fun q => lanes.filter fun l => l.q == q

def gscanGroup (h : Head) (w : Cross) (s : State) (rs : List SliceRef) : State :=
  let lanes := sortLanes (scopeSize w.ls) (lanesOf s h w.ls rs)
  let vals := lanes.map fun l => (l, (s.slice l.r).value w.ty false h.a.toNat l.j)
  let (out, fl) := scanValues (w.sub.toNat % 8) w.ty w.rnd (w.sub.getLsbD 3) none vals
  raiseGroup (putLanes s (out.map fun p => (p.1.r, typeWrites w.ty p.1.j h.d.toNat p.2))) fl rs

/-- GSCAN (R134): Prefix scan over the present lanes. -/
def execXlGscan (h : Head) (w : Cross) (s : State) : Host.Outcome State Fault Refusal :=
  issueCross (.xlGscan h w) h w (crossRegs h w) (gscanGroup h w) s

/-! ## MATCH (R134) -/

def matchGroup (h : Head) (w : Cross) (s : State) (rs : List SliceRef) : State :=
  let lanes := lanesOf s h w.ls rs
  let val := fun (l : Lane) => (s.slice l.r).value w.ty false h.a.toNat l.j
  if w.sub = 0 then
    putLanes s (lanes.map fun l =>
      (l.r, typeWrites w.ty l.j h.d.toNat (posMask (lanes.filter fun m => val m == val l))))
  else
    let same := match lanes with
      | [] => true
      | l :: ls => ls.all fun m => val m == val l
    let mask := if same then posMask lanes else 0
    putLanes s (lanes.map fun l =>
      (l.r, typeWrites w.ty l.j h.d.toNat mask ++ [{ reg := .p w.ps.toNat, lane := l.j, val := boolWord same }]))

/-- MATCH (R134): Finds the lanes whose values are equal. With a 64-bit type D is a pair, as A is (R132), and its high word is 0. -/
def execXlMatch (h : Head) (w : Cross) (s : State) : Host.Outcome State Fault Refusal :=
  issueCross (.xlMatch h w) h w
    (crossRegs h w ++ (if w.sub = 1 then [.p w.ps.toNat] else [])) (matchGroup h w) s

end Sys2Proof.Machine
end

