-- ==== Sys2Proof/Machine/Dispatch.lean ====
section
/-! DEFINITION. The meaning of each instruction: one arm a constructor. -/

namespace Sys2Proof.Machine

/-- What an instruction, or a step of an engine, does to the machine. -/
def exec (i : Instr) (s : State) : Host.Outcome State Fault Refusal :=
  match i with
  | .bviAdd o => Sys2Proof.Machine.execBviAdd o s
  | .bviSub o => Sys2Proof.Machine.execBviSub o s
  | .bviMul o => Sys2Proof.Machine.execBviMul o s
  | .bviMin o => Sys2Proof.Machine.execBviMin o s
  | .bviMax o => Sys2Proof.Machine.execBviMax o s
  | .bviAnd o => Sys2Proof.Machine.execBviAnd o s
  | .bviOr o => Sys2Proof.Machine.execBviOr o s
  | .bviXor o => Sys2Proof.Machine.execBviXor o s
  | .bviAndn o => Sys2Proof.Machine.execBviAndn o s
  | .bviShl o => Sys2Proof.Machine.execBviShl o s
  | .bviShr o => Sys2Proof.Machine.execBviShr o s
  | .bviSar o => Sys2Proof.Machine.execBviSar o s
  | .bviMov o => Sys2Proof.Machine.execBviMov o s
  | .bsiAdd o => Sys2Proof.Machine.execBsiAdd o s
  | .bsiSub o => Sys2Proof.Machine.execBsiSub o s
  | .bsiMul o => Sys2Proof.Machine.execBsiMul o s
  | .bsiMin o => Sys2Proof.Machine.execBsiMin o s
  | .bsiMax o => Sys2Proof.Machine.execBsiMax o s
  | .bsiAnd o => Sys2Proof.Machine.execBsiAnd o s
  | .bsiOr o => Sys2Proof.Machine.execBsiOr o s
  | .bsiXor o => Sys2Proof.Machine.execBsiXor o s
  | .bsiAndn o => Sys2Proof.Machine.execBsiAndn o s
  | .bsiShl o => Sys2Proof.Machine.execBsiShl o s
  | .bsiShr o => Sys2Proof.Machine.execBsiShr o s
  | .bsiSar o => Sys2Proof.Machine.execBsiSar o s
  | .bsiMov o => Sys2Proof.Machine.execBsiMov o s
  | .bvfFadd o => Sys2Proof.Machine.execBvfFadd o s
  | .bvfFsub o => Sys2Proof.Machine.execBvfFsub o s
  | .bvfFmul o => Sys2Proof.Machine.execBvfFmul o s
  | .bvfFmin o => Sys2Proof.Machine.execBvfFmin o s
  | .bvfFmax o => Sys2Proof.Machine.execBvfFmax o s
  | .bvfFfma o => Sys2Proof.Machine.execBvfFfma o s
  | .bvfFrcp o => Sys2Proof.Machine.execBvfFrcp o s
  | .bvfFrsq o => Sys2Proof.Machine.execBvfFrsq o s
  | .bvfFsqrt o => Sys2Proof.Machine.execBvfFsqrt o s
  | .bvfFex2 o => Sys2Proof.Machine.execBvfFex2 o s
  | .bvfFlg2 o => Sys2Proof.Machine.execBvfFlg2 o s
  | .bvhFaddF16x2 o => Sys2Proof.Machine.execBvhFaddF16x2 o s
  | .bvhFsubF16x2 o => Sys2Proof.Machine.execBvhFsubF16x2 o s
  | .bvhFmulF16x2 o => Sys2Proof.Machine.execBvhFmulF16x2 o s
  | .bvhFminF16x2 o => Sys2Proof.Machine.execBvhFminF16x2 o s
  | .bvhFmaxF16x2 o => Sys2Proof.Machine.execBvhFmaxF16x2 o s
  | .bvhFfmaF16x2 o => Sys2Proof.Machine.execBvhFfmaF16x2 o s
  | .bvhFaddBf16x2 o => Sys2Proof.Machine.execBvhFaddBf16x2 o s
  | .bvhFsubBf16x2 o => Sys2Proof.Machine.execBvhFsubBf16x2 o s
  | .bvhFmulBf16x2 o => Sys2Proof.Machine.execBvhFmulBf16x2 o s
  | .bvhFminBf16x2 o => Sys2Proof.Machine.execBvhFminBf16x2 o s
  | .bvhFmaxBf16x2 o => Sys2Proof.Machine.execBvhFmaxBf16x2 o s
  | .bvhFfmaBf16x2 o => Sys2Proof.Machine.execBvhFfmaBf16x2 o s
  | .bviiAdd o => Sys2Proof.Machine.execBviiAdd o s
  | .bviiAnd o => Sys2Proof.Machine.execBviiAnd o s
  | .bviiOr o => Sys2Proof.Machine.execBviiOr o s
  | .bviiXor o => Sys2Proof.Machine.execBviiXor o s
  | .bviiShl o => Sys2Proof.Machine.execBviiShl o s
  | .bviiShr o => Sys2Proof.Machine.execBviiShr o s
  | .bviiSar o => Sys2Proof.Machine.execBviiSar o s
  | .bviiMov o => Sys2Proof.Machine.execBviiMov o s
  | .bsiiAdd o => Sys2Proof.Machine.execBsiiAdd o s
  | .bsiiAnd o => Sys2Proof.Machine.execBsiiAnd o s
  | .bsiiOr o => Sys2Proof.Machine.execBsiiOr o s
  | .bsiiXor o => Sys2Proof.Machine.execBsiiXor o s
  | .bsiiShl o => Sys2Proof.Machine.execBsiiShl o s
  | .bsiiShr o => Sys2Proof.Machine.execBsiiShr o s
  | .bsiiSar o => Sys2Proof.Machine.execBsiiSar o s
  | .bsiiMov o => Sys2Proof.Machine.execBsiiMov o s
  | .bvcIsetEq o => Sys2Proof.Machine.execBvcIsetEq o s
  | .bvcIsetNe o => Sys2Proof.Machine.execBvcIsetNe o s
  | .bvcIsetLt o => Sys2Proof.Machine.execBvcIsetLt o s
  | .bvcIsetLe o => Sys2Proof.Machine.execBvcIsetLe o s
  | .bvcIsetGt o => Sys2Proof.Machine.execBvcIsetGt o s
  | .bvcIsetGe o => Sys2Proof.Machine.execBvcIsetGe o s
  | .bvcIsetEqZ32 o => Sys2Proof.Machine.execBvcIsetEqZ32 o s
  | .bvcIsetNeZ32 o => Sys2Proof.Machine.execBvcIsetNeZ32 o s
  | .bvcIsetLtZ32 o => Sys2Proof.Machine.execBvcIsetLtZ32 o s
  | .bvcIsetLeZ32 o => Sys2Proof.Machine.execBvcIsetLeZ32 o s
  | .bvcIsetGtZ32 o => Sys2Proof.Machine.execBvcIsetGtZ32 o s
  | .bvcIsetGeZ32 o => Sys2Proof.Machine.execBvcIsetGeZ32 o s
  | .bvcFsetEq o => Sys2Proof.Machine.execBvcFsetEq o s
  | .bvcFsetNe o => Sys2Proof.Machine.execBvcFsetNe o s
  | .bvcFsetLt o => Sys2Proof.Machine.execBvcFsetLt o s
  | .bvcFsetLe o => Sys2Proof.Machine.execBvcFsetLe o s
  | .bvcFsetGt o => Sys2Proof.Machine.execBvcFsetGt o s
  | .bvcFsetGe o => Sys2Proof.Machine.execBvcFsetGe o s
  | .bvcFsetUnord o => Sys2Proof.Machine.execBvcFsetUnord o s
  | .bscIsetEq o => Sys2Proof.Machine.execBscIsetEq o s
  | .bscIsetNe o => Sys2Proof.Machine.execBscIsetNe o s
  | .bscIsetLt o => Sys2Proof.Machine.execBscIsetLt o s
  | .bscIsetLe o => Sys2Proof.Machine.execBscIsetLe o s
  | .bscIsetGt o => Sys2Proof.Machine.execBscIsetGt o s
  | .bscIsetGe o => Sys2Proof.Machine.execBscIsetGe o s
  | .bscIsetEqZ32 o => Sys2Proof.Machine.execBscIsetEqZ32 o s
  | .bscIsetNeZ32 o => Sys2Proof.Machine.execBscIsetNeZ32 o s
  | .bscIsetLtZ32 o => Sys2Proof.Machine.execBscIsetLtZ32 o s
  | .bscIsetLeZ32 o => Sys2Proof.Machine.execBscIsetLeZ32 o s
  | .bscIsetGtZ32 o => Sys2Proof.Machine.execBscIsetGtZ32 o s
  | .bscIsetGeZ32 o => Sys2Proof.Machine.execBscIsetGeZ32 o s
  | .bbrBra o => Sys2Proof.Machine.execBbrBra o s
  | .bbrBrcNz o => Sys2Proof.Machine.execBbrBrcNz o s
  | .bbrBrcZ o => Sys2Proof.Machine.execBbrBrcZ o s
  | .bbrBrcAny o => Sys2Proof.Machine.execBbrBrcAny o s
  | .bbrBrcAll o => Sys2Proof.Machine.execBbrBrcAll o s
  | .bbrBrcNone o => Sys2Proof.Machine.execBbrBrcNone o s
  | .bbrBrez o => Sys2Proof.Machine.execBbrBrez o s
  | .bbrLoop o => Sys2Proof.Machine.execBbrLoop o s
  | .bbrCall o => Sys2Proof.Machine.execBbrCall o s
  | .bctNop o => Sys2Proof.Machine.execBctNop o s
  | .bctExit o => Sys2Proof.Machine.execBctExit o s
  | .bctRet o => Sys2Proof.Machine.execBctRet o s
  | .bctJmpr o => Sys2Proof.Machine.execBctJmpr o s
  | .bctCallr o => Sys2Proof.Machine.execBctCallr o s
  | .bctYield o => Sys2Proof.Machine.execBctYield o s
  | .bctRegang o => Sys2Proof.Machine.execBctRegang o s
  | .bctExsave o => Sys2Proof.Machine.execBctExsave o s
  | .bctExelse o => Sys2Proof.Machine.execBctExelse o s
  | .bctExrest o => Sys2Proof.Machine.execBctExrest o s
  | .bctExset o => Sys2Proof.Machine.execBctExset o s
  | .bctExget o => Sys2Proof.Machine.execBctExget o s
  | .bctGmask o => Sys2Proof.Machine.execBctGmask o s
  | .bctGwidth o => Sys2Proof.Machine.execBctGwidth o s
  | .bctSrd o => Sys2Proof.Machine.execBctSrd o s
  | .bctWaitk o => Sys2Proof.Machine.execBctWaitk o s
  | .bctTrap o => Sys2Proof.Machine.execBctTrap o s
  | .bctRft o => Sys2Proof.Machine.execBctRft o s
  | .bctBrkpt o => Sys2Proof.Machine.execBctBrkpt o s
  | .xiAdd h w => Sys2Proof.Machine.execXiAdd h w s
  | .xiSub h w => Sys2Proof.Machine.execXiSub h w s
  | .xiAddc h w => Sys2Proof.Machine.execXiAddc h w s
  | .xiSubb h w => Sys2Proof.Machine.execXiSubb h w s
  | .xiMul h w => Sys2Proof.Machine.execXiMul h w s
  | .xiMulh h w => Sys2Proof.Machine.execXiMulh h w s
  | .xiMad h w => Sys2Proof.Machine.execXiMad h w s
  | .xiMin h w => Sys2Proof.Machine.execXiMin h w s
  | .xiMax h w => Sys2Proof.Machine.execXiMax h w s
  | .xiAbs h w => Sys2Proof.Machine.execXiAbs h w s
  | .xiNeg h w => Sys2Proof.Machine.execXiNeg h w s
  | .xiAnd h w => Sys2Proof.Machine.execXiAnd h w s
  | .xiOr h w => Sys2Proof.Machine.execXiOr h w s
  | .xiXor h w => Sys2Proof.Machine.execXiXor h w s
  | .xiAndn h w => Sys2Proof.Machine.execXiAndn h w s
  | .xiOrn h w => Sys2Proof.Machine.execXiOrn h w s
  | .xiNot h w => Sys2Proof.Machine.execXiNot h w s
  | .xiShl h w => Sys2Proof.Machine.execXiShl h w s
  | .xiShr h w => Sys2Proof.Machine.execXiShr h w s
  | .xiSar h w => Sys2Proof.Machine.execXiSar h w s
  | .xiRol h w => Sys2Proof.Machine.execXiRol h w s
  | .xiShf h w => Sys2Proof.Machine.execXiShf h w s
  | .xiClz h w => Sys2Proof.Machine.execXiClz h w s
  | .xiCtz h w => Sys2Proof.Machine.execXiCtz h w s
  | .xiPopc h w => Sys2Proof.Machine.execXiPopc h w s
  | .xiBrev h w => Sys2Proof.Machine.execXiBrev h w s
  | .xiBfx h w => Sys2Proof.Machine.execXiBfx h w s
  | .xiBfi h w => Sys2Proof.Machine.execXiBfi h w s
  | .xiBperm h w => Sys2Proof.Machine.execXiBperm h w s
  | .xiSel h w => Sys2Proof.Machine.execXiSel h w s
  | .xiMov h w => Sys2Proof.Machine.execXiMov h w s
  | .xiIset h w => Sys2Proof.Machine.execXiIset h w s
  | .xiLea h w => Sys2Proof.Machine.execXiLea h w s
  | .xfFadd h w => Sys2Proof.Machine.execXfFadd h w s
  | .xfFsub h w => Sys2Proof.Machine.execXfFsub h w s
  | .xfFmul h w => Sys2Proof.Machine.execXfFmul h w s
  | .xfFfma h w => Sys2Proof.Machine.execXfFfma h w s
  | .xfFmin h w => Sys2Proof.Machine.execXfFmin h w s
  | .xfFmax h w => Sys2Proof.Machine.execXfFmax h w s
  | .xfFset h w => Sys2Proof.Machine.execXfFset h w s
  | .xfFclass h w => Sys2Proof.Machine.execXfFclass h w s
  | .xfFrnd h w => Sys2Proof.Machine.execXfFrnd h w s
  | .xfFrcp h w => Sys2Proof.Machine.execXfFrcp h w s
  | .xfFrsq h w => Sys2Proof.Machine.execXfFrsq h w s
  | .xfFsqrt h w => Sys2Proof.Machine.execXfFsqrt h w s
  | .xfFex2 h w => Sys2Proof.Machine.execXfFex2 h w s
  | .xfFlg2 h w => Sys2Proof.Machine.execXfFlg2 h w s
  | .xfFsin h w => Sys2Proof.Machine.execXfFsin h w s
  | .xfFcos h w => Sys2Proof.Machine.execXfFcos h w s
  | .xfFtanh h w => Sys2Proof.Machine.execXfFtanh h w s
  | .xqCvt h w => Sys2Proof.Machine.execXqCvt h w s
  | .xqQntz h w => Sys2Proof.Machine.execXqQntz h w s
  | .xqDqnt h w => Sys2Proof.Machine.execXqDqnt h w s
  | .xqDot4 h w => Sys2Proof.Machine.execXqDot4 h w s
  | .xqDot8 h w => Sys2Proof.Machine.execXqDot8 h w s
  | .xlShfl h w => Sys2Proof.Machine.execXlShfl h w s
  | .xlVote h w => Sys2Proof.Machine.execXlVote h w s
  | .xlGred h w => Sys2Proof.Machine.execXlGred h w s
  | .xlGscan h w => Sys2Proof.Machine.execXlGscan h w s
  | .xlMatch h w => Sys2Proof.Machine.execXlMatch h w s
  | .xcBra h w => Sys2Proof.Machine.execXcBra h w s
  | .xcBrc h w => Sys2Proof.Machine.execXcBrc h w s
  | .xcCall h w => Sys2Proof.Machine.execXcCall h w s
  | .xmLd h w => Sys2Proof.Machine.execXmLd h w s
  | .xmSt h w => Sys2Proof.Machine.execXmSt h w s
  | .xmLdc h w => Sys2Proof.Machine.execXmLdc h w s
  | .xmPrf h w => Sys2Proof.Machine.execXmPrf h w s
  | .xmLdg h w => Sys2Proof.Machine.execXmLdg h w s
  | .xmSct h w => Sys2Proof.Machine.execXmSct h w s
  | .xmIcinv h w => Sys2Proof.Machine.execXmIcinv h w s
  | .xsLds h w => Sys2Proof.Machine.execXsLds h w s
  | .xsSts h w => Sys2Proof.Machine.execXsSts h w s
  | .xsAtoms h w => Sys2Proof.Machine.execXsAtoms h w s
  | .xaAtom h w => Sys2Proof.Machine.execXaAtom h w s
  | .xoFence h w => Sys2Proof.Machine.execXoFence h w s
  | .xoSeal h w => Sys2Proof.Machine.execXoSeal h w s
  | .xoChkr h w => Sys2Proof.Machine.execXoChkr h w s
  | .xyBari h w => Sys2Proof.Machine.execXyBari h w s
  | .xyBara h w => Sys2Proof.Machine.execXyBara h w s
  | .xyBarad h w => Sys2Proof.Machine.execXyBarad h w s
  | .xyBarw h w => Sys2Proof.Machine.execXyBarw h w s
  | .xyBart h w => Sys2Proof.Machine.execXyBart h w s
  | .xyBarx h w => Sys2Proof.Machine.execXyBarx h w s
  | .xyGbara h w => Sys2Proof.Machine.execXyGbara h w s
  | .xyGbard h w => Sys2Proof.Machine.execXyGbard h w s
  | .xyGbarw h w => Sys2Proof.Machine.execXyGbarw h w s
  | .xuQpsh h w => Sys2Proof.Machine.execXuQpsh h w s
  | .xuQpop h w => Sys2Proof.Machine.execXuQpop h w s
  | .xuQst h w => Sys2Proof.Machine.execXuQst h w s
  | .xuPhsw h w => Sys2Proof.Machine.execXuPhsw h w s
  | .xuQuiet h w => Sys2Proof.Machine.execXuQuiet h w s
  | .xpCpy h w => Sys2Proof.Machine.execXpCpy h w s
  | .xpCpyt h w => Sys2Proof.Machine.execXpCpyt h w s
  | .xpCpyr h w => Sys2Proof.Machine.execXpCpyr h w s
  | .xpCpym h w => Sys2Proof.Machine.execXpCpym h w s
  | .xpTlwt h w => Sys2Proof.Machine.execXpTlwt h w s
  | .xpTlrd h w => Sys2Proof.Machine.execXpTlrd h w s
  | .xxMma h w => Sys2Proof.Machine.execXxMma h w s
  | .xxTmma h w => Sys2Proof.Machine.execXxTmma h w s
  | .xxTzro h w => Sys2Proof.Machine.execXxTzro h w s
  | .xxTrd h w => Sys2Proof.Machine.execXxTrd h w s
  | .xxTwr h w => Sys2Proof.Machine.execXxTwr h w s
  | .xxTsto h w => Sys2Proof.Machine.execXxTsto h w s
  | .xrRld h w => Sys2Proof.Machine.execXrRld h w s
  | .xrRst h w => Sys2Proof.Machine.execXrRst h w s
  | .xrRatm h w => Sys2Proof.Machine.execXrRatm h w s
  | .xrRfnc h w => Sys2Proof.Machine.execXrRfnc h w s
  | .xvDvt h w => Sys2Proof.Machine.execXvDvt h w s
  | .xvColl h w => Sys2Proof.Machine.execXvColl h w s
  | .xvNodego h w => Sys2Proof.Machine.execXvNodego h w s
  | .xzCsrr h w => Sys2Proof.Machine.execXzCsrr h w s
  | .xzCsrw h w => Sys2Proof.Machine.execXzCsrw h w s
  | .xzGett h w => Sys2Proof.Machine.execXzGett h w s
  | .xzPmrd h w => Sys2Proof.Machine.execXzPmrd h w s
  | .evIssueClock cl pt => Sys2Proof.Machine.execEvIssueClock cl pt s
  | .evRegangRelease tid bent => Sys2Proof.Machine.execEvRegangRelease tid bent s
  | .evYieldHoldExpiry r => Sys2Proof.Machine.execEvYieldHoldExpiry r s
  | .evSlotMigrationStart r slot => Sys2Proof.Machine.execEvSlotMigrationStart r slot s
  | .evSlotMigrationEnd r => Sys2Proof.Machine.execEvSlotMigrationEnd r s
  | .evClassLResultWrite r pid => Sys2Proof.Machine.execEvClassLResultWrite r pid s
  | .evTokenWaitRelease r => Sys2Proof.Machine.execEvTokenWaitRelease r s
  | .evTrapEntry r => Sys2Proof.Machine.execEvTrapEntry r s
  | .evSliceRetire r => Sys2Proof.Machine.execEvSliceRetire r s
  | .evTeamStart launch => Sys2Proof.Machine.execEvTeamStart launch s
  | .evTeamEnd tid => Sys2Proof.Machine.execEvTeamEnd tid s
  | .evTableWalk hp ctx va w => Sys2Proof.Machine.execEvTableWalk hp ctx va w s
  | .evFaultRecordPost fid => Sys2Proof.Machine.execEvFaultRecordPost fid s
  | .evRetryRetry hp ctx tag => Sys2Proof.Machine.execEvRetryRetry hp ctx tag s
  | .evRetryFail hp ctx tag => Sys2Proof.Machine.execEvRetryFail hp ctx tag s
  | .evL1WriteBufferDrain cl => Sys2Proof.Machine.execEvL1WriteBufferDrain cl s
  | .evGatherSubpacket op die => Sys2Proof.Machine.execEvGatherSubpacket op die s
  | .evGatherExpanderRead op stack => Sys2Proof.Machine.execEvGatherExpanderRead op stack s
  | .evScatterElement op k => Sys2Proof.Machine.execEvScatterElement op k s
  | .evL2Atomic op => Sys2Proof.Machine.execEvL2Atomic op s
  | .evMsaAccess op => Sys2Proof.Machine.execEvMsaAccess op s
  | .evSillWayToVault die way => Sys2Proof.Machine.execEvSillWayToVault die way s
  | .evSillWayToCache die way => Sys2Proof.Machine.execEvSillWayToCache die way s
  | .evSillWayConvertDone die way => Sys2Proof.Machine.execEvSillWayConvertDone die way s
  | .evMigratePageLock mid => Sys2Proof.Machine.execEvMigratePageLock mid s
  | .evMigratePageCopy mid => Sys2Proof.Machine.execEvMigratePageCopy mid s
  | .evMigratePageSwitch mid => Sys2Proof.Machine.execEvMigratePageSwitch mid s
  | .evMigratePageShoot mid => Sys2Proof.Machine.execEvMigratePageShoot mid s
  | .evMigratePageRelease mid => Sys2Proof.Machine.execEvMigratePageRelease mid s
  | .evMigratePageDrainDone mid => Sys2Proof.Machine.execEvMigratePageDrainDone mid s
  | .evMigratePageFree mid => Sys2Proof.Machine.execEvMigratePageFree mid s
  | .evMigrateHeldAccess mid a => Sys2Proof.Machine.execEvMigrateHeldAccess mid a s
  | .evReleaseArrival op => Sys2Proof.Machine.execEvReleaseArrival op s
  | .evSquareSeal op => Sys2Proof.Machine.execEvSquareSeal op s
  | .evPerformAck op a => Sys2Proof.Machine.execEvPerformAck op a s
  | .evScribeTransferCheck t => Sys2Proof.Machine.execEvScribeTransferCheck t s
  | .evScribeWindowClose home peer => Sys2Proof.Machine.execEvScribeWindowClose home peer s
  | .evScribeRecordExchange home peer => Sys2Proof.Machine.execEvScribeRecordExchange home peer s
  | .evForcedPublish cl => Sys2Proof.Machine.execEvForcedPublish cl s
  | .evSeqGapTimeout src dst => Sys2Proof.Machine.execEvSeqGapTimeout src dst s
  | .evFenceScComplete op => Sys2Proof.Machine.execEvFenceScComplete op s
  | .evSealComplete op => Sys2Proof.Machine.execEvSealComplete op s
  | .evChkrComplete op => Sys2Proof.Machine.execEvChkrComplete op s
  | .evIcinvComplete op => Sys2Proof.Machine.execEvIcinvComplete op s
  | .evChkmodeWrite hp v => Sys2Proof.Machine.execEvChkmodeWrite hp v s
  | .evOrdinjWrite hp v => Sys2Proof.Machine.execEvOrdinjWrite hp v s
  | .evShootdownGo hp v => Sys2Proof.Machine.execEvShootdownGo hp v s
  | .evShootdownDone hp => Sys2Proof.Machine.execEvShootdownDone hp s
  | .evBarrierArrivalCount op => Sys2Proof.Machine.execEvBarrierArrivalCount op s
  | .evBarrierWake r => Sys2Proof.Machine.execEvBarrierWake r s
  | .evHalfdone tid half off => Sys2Proof.Machine.execEvHalfdone tid half off s
  | .evGroupTableLoad launch => Sys2Proof.Machine.execEvGroupTableLoad launch s
  | .evGroupArrival op => Sys2Proof.Machine.execEvGroupArrival op s
  | .evQueuePushArrival op => Sys2Proof.Machine.execEvQueuePushArrival op s
  | .evQueuePopArrival op => Sys2Proof.Machine.execEvQueuePopArrival op s
  | .evQueueStatArrival op => Sys2Proof.Machine.execEvQueueStatArrival op s
  | .evSpillMove q => Sys2Proof.Machine.execEvSpillMove q s
  | .evQcrWrite q off v => Sys2Proof.Machine.execEvQcrWrite q off v s
  | .evQuietReturn r => Sys2Proof.Machine.execEvQuietReturn r s
  | .evRedirectedArrival op => Sys2Proof.Machine.execEvRedirectedArrival op s
  | .evQueueSlotRead hp ctx q => Sys2Proof.Machine.execEvQueueSlotRead hp ctx q s
  | .evPoolDispatch hp => Sys2Proof.Machine.execEvPoolDispatch hp s
  | .evEntryReady eid => Sys2Proof.Machine.execEvEntryReady eid s
  | .evLevelAging eid => Sys2Proof.Machine.execEvLevelAging eid s
  | .evPrefetchWaitEnd eid => Sys2Proof.Machine.execEvPrefetchWaitEnd eid s
  | .evNopPacket eid => Sys2Proof.Machine.execEvNopPacket eid s
  | .evKernelPacket eid => Sys2Proof.Machine.execEvKernelPacket eid s
  | .evCopyPacket eid => Sys2Proof.Machine.execEvCopyPacket eid s
  | .evScrubPacket eid => Sys2Proof.Machine.execEvScrubPacket eid s
  | .evMigratePacket eid => Sys2Proof.Machine.execEvMigratePacket eid s
  | .evGraphPacket eid => Sys2Proof.Machine.execEvGraphPacket eid s
  | .evSignalPacket eid => Sys2Proof.Machine.execEvSignalPacket eid s
  | .evWaitPacket eid => Sys2Proof.Machine.execEvWaitPacket eid s
  | .evWaitSatisfied eid => Sys2Proof.Machine.execEvWaitSatisfied eid s
  | .evWaitTimeout eid => Sys2Proof.Machine.execEvWaitTimeout eid s
  | .evDovetailPacket eid => Sys2Proof.Machine.execEvDovetailPacket eid s
  | .evCollectivePacket eid => Sys2Proof.Machine.execEvCollectivePacket eid s
  | .evNodeComplete gid node => Sys2Proof.Machine.execEvNodeComplete gid node s
  | .evNodegoArrival op => Sys2Proof.Machine.execEvNodegoArrival op s
  | .evLaunchComplete launch => Sys2Proof.Machine.execEvLaunchComplete launch s
  | .evCopyChunkSend engine => Sys2Proof.Machine.execEvCopyChunkSend engine s
  | .evCopyComplete cid => Sys2Proof.Machine.execEvCopyComplete cid s
  | .evCopyAbandon cid => Sys2Proof.Machine.execEvCopyAbandon cid s
  | .evCopyReplay cid => Sys2Proof.Machine.execEvCopyReplay cid s
  | .evScrubSector sid found => Sys2Proof.Machine.execEvScrubSector sid found s
  | .evTlwtReturn r => Sys2Proof.Machine.execEvTlwtReturn r s
  | .evFollowonEnter cid => Sys2Proof.Machine.execEvFollowonEnter cid s
  | .evTileRotation cl => Sys2Proof.Machine.execEvTileRotation cl s
  | .evTmmaSlabLoad tid => Sys2Proof.Machine.execEvTmmaSlabLoad tid s
  | .evTmmaStream tid => Sys2Proof.Machine.execEvTmmaStream tid s
  | .evTmmaWriteback tid => Sys2Proof.Machine.execEvTmmaWriteback tid s
  | .evTmmaDone tid => Sys2Proof.Machine.execEvTmmaDone tid s
  | .evTstoComplete id => Sys2Proof.Machine.execEvTstoComplete id s
  | .evCtxEnWrite hp ctx v => Sys2Proof.Machine.execEvCtxEnWrite hp ctx v s
  | .evCtxSave hp ctx => Sys2Proof.Machine.execEvCtxSave hp ctx s
  | .evCtxRestore hp ctx => Sys2Proof.Machine.execEvCtxRestore hp ctx s
  | .evCtxKill hp ctx => Sys2Proof.Machine.execEvCtxKill hp ctx s
  | .evFqrdWrite hp ctx v => Sys2Proof.Machine.execEvFqrdWrite hp ctx v s
  | .evSaveDrainDone hp ctx => Sys2Proof.Machine.execEvSaveDrainDone hp ctx s
  | .evForcedSave hp ctx => Sys2Proof.Machine.execEvForcedSave hp ctx s
  | .evSaveComplete hp ctx => Sys2Proof.Machine.execEvSaveComplete hp ctx s
  | .evTeamKill tid cause => Sys2Proof.Machine.execEvTeamKill tid cause s
  | .evBandwidthChange die port => Sys2Proof.Machine.execEvBandwidthChange die port s
  | .evFabricEnWrite hp v => Sys2Proof.Machine.execEvFabricEnWrite hp v s
  | .evRtload hp => Sys2Proof.Machine.execEvRtload hp s
  | .evFabricInvalidate hp ctx v => Sys2Proof.Machine.execEvFabricInvalidate hp ctx v s
  | .evRdreq m => Sys2Proof.Machine.execEvRdreq m s
  | .evWrreq m => Sys2Proof.Machine.execEvWrreq m s
  | .evAtreq m => Sys2Proof.Machine.execEvAtreq m s
  | .evFnreq m => Sys2Proof.Machine.execEvFnreq m s
  | .evSkip m => Sys2Proof.Machine.execEvSkip m s
  | .evRdrsp m => Sys2Proof.Machine.execEvRdrsp m s
  | .evWrack m => Sys2Proof.Machine.execEvWrack m s
  | .evAtrsp m => Sys2Proof.Machine.execEvAtrsp m s
  | .evFnack m => Sys2Proof.Machine.execEvFnack m s
  | .evErrrsp m => Sys2Proof.Machine.execEvErrrsp m s
  | .evFlitReceive port f => Sys2Proof.Machine.execEvFlitReceive port f s
  | .evNakReceive port fack => Sys2Proof.Machine.execEvNakReceive port fack s
  | .evNakRepeat port => Sys2Proof.Machine.execEvNakRepeat port s
  | .evNakHoldExpiry port => Sys2Proof.Machine.execEvNakHoldExpiry port s
  | .evFlitFlush port => Sys2Proof.Machine.execEvFlitFlush port s
  | .evNullFlit port => Sys2Proof.Machine.execEvNullFlit port s
  | .evLossOfLight port wave cause => Sys2Proof.Machine.execEvLossOfLight port wave cause s
  | .evActmapReceive port fack map => Sys2Proof.Machine.execEvActmapReceive port fack map s
  | .evWavelengthRecovery port wave => Sys2Proof.Machine.execEvWavelengthRecovery port wave s
  | .evPortDown port cause => Sys2Proof.Machine.execEvPortDown port cause s
  | .evPortUp port => Sys2Proof.Machine.execEvPortUp port s
  | .evRequestTableAdmit die => Sys2Proof.Machine.execEvRequestTableAdmit die s
  | .evRequestTimeout die tag => Sys2Proof.Machine.execEvRequestTimeout die tag s
  | .evResponseCacheExpiry die speer sinc tag => Sys2Proof.Machine.execEvResponseCacheExpiry die speer sinc tag s
  | .evSendWindowHole port fseq => Sys2Proof.Machine.execEvSendWindowHole port fseq s
  | .evLimopSeqGapTimeout hp speer sinc => Sys2Proof.Machine.execEvLimopSeqGapTimeout hp speer sinc s
  | .evTxenWrite port v => Sys2Proof.Machine.execEvTxenWrite port v s
  | .evCollectivePost oid => Sys2Proof.Machine.execEvCollectivePost oid s
  | .evCset m => Sys2Proof.Machine.execEvCset m s
  | .evCdat m => Sys2Proof.Machine.execEvCdat m s
  | .evCctlDone m => Sys2Proof.Machine.execEvCctlDone m s
  | .evCctlAbort m => Sys2Proof.Machine.execEvCctlAbort m s
  | .evCctlCommit m => Sys2Proof.Machine.execEvCctlCommit m s
  | .evCctlNosw m => Sys2Proof.Machine.execEvCctlNosw m s
  | .evCollectiveComplete oid => Sys2Proof.Machine.execEvCollectiveComplete oid s
  | .evCollectiveTimeout oid => Sys2Proof.Machine.execEvCollectiveTimeout oid s
  | .evHeldMessageDiscard half => Sys2Proof.Machine.execEvHeldMessageDiscard half s
  | .evPstepWrite v => Sys2Proof.Machine.execEvPstepWrite v s
  | .evStepRelockDone die => Sys2Proof.Machine.execEvStepRelockDone die s
  | .evThermalTrip die temp => Sys2Proof.Machine.execEvThermalTrip die temp s
  | .evHostReset => Sys2Proof.Machine.execEvHostReset s
  | .evPowerOnReset => Sys2Proof.Machine.execEvPowerOnReset s
  | .evPartcfgWrite v => Sys2Proof.Machine.execEvPartcfgWrite v s
  | .evPlanChangeDone => Sys2Proof.Machine.execEvPlanChangeDone s
  | .evKeyGenerate v => Sys2Proof.Machine.execEvKeyGenerate v s
  | .evKeyImport v => Sys2Proof.Machine.execEvKeyImport v s
  | .evKeyDestroy v => Sys2Proof.Machine.execEvKeyDestroy v s
  | .evKeyClear v => Sys2Proof.Machine.execEvKeyClear v s
  | .evKeyDestroyDone => Sys2Proof.Machine.execEvKeyDestroyDone s
  | .evLockInterface port vf slots => Sys2Proof.Machine.execEvLockInterface port vf slots s
  | .evStopInterface port vf => Sys2Proof.Machine.execEvStopInterface port vf s
  | .evIdeIntegrityFailure port vf => Sys2Proof.Machine.execEvIdeIntegrityFailure port vf s
  | .evFunctionLevelReset port vf => Sys2Proof.Machine.execEvFunctionLevelReset port vf s
  | .evGlomelBoot images => Sys2Proof.Machine.execEvGlomelBoot images s
  | .evGlomelFailover => Sys2Proof.Machine.execEvGlomelFailover s
  | .evSpdmRequest => Sys2Proof.Machine.execEvSpdmRequest s
  | .evSecurityAlarm a => Sys2Proof.Machine.execEvSecurityAlarm a s
  | .evGlpolWrite v => Sys2Proof.Machine.execEvGlpolWrite v s
  | .evSrpolWrite chan v => Sys2Proof.Machine.execEvSrpolWrite chan v s
  | .evSelfRefreshEntry chan => Sys2Proof.Machine.execEvSelfRefreshEntry chan s
  | .evSelfRefreshExit chan => Sys2Proof.Machine.execEvSelfRefreshExit chan s
  | .evResyncGo v => Sys2Proof.Machine.execEvResyncGo v s
  | .evResyncDone => Sys2Proof.Machine.execEvResyncDone s
  | .evRegisterWrite pa v => Sys2Proof.Machine.execEvRegisterWrite pa v s
  | .evHostPortWrite a => Sys2Proof.Machine.execEvHostPortWrite a s
  | .evStartInterface port vf => Sys2Proof.Machine.execEvStartInterface port vf s

end Sys2Proof.Machine
end

