-- ==== Sys2Proof/Machine/Run.lean ====
section
/-! DEFINITION. How a step runs: an instruction of the issuing gang, the next engine step that the agenda names,
or the one that the scheduler finds due; and a machine in which a given instruction is the next to run. -/

namespace Sys2Proof.Machine

def f64Lanes (w : Arith) : Bool := !w.dk && w.ty == .f64

/-- When the last gang that issued in this clock has issued, the partition's clock ends. -/
def endIssueOf : Host.Outcome State Fault Refusal → Host.Outcome State Fault Refusal
  | .next s => .next (if s.iss.now.isEmpty then s.endIssue else s)
  | .fault f => .fault f
  | .refused r => .refused r

/-- Lane-wise XF instructions of type f64, and lane-wise conversions that read or write f64, take a second clock (05 R148). One that
acts once per slice is not lane-wise and takes none (DEDUCED, log entry 98). -/
def takesSecond : Instr → Bool
  | .xfFadd _ w => f64Lanes w
  | .xfFsub _ w => f64Lanes w
  | .xfFmul _ w => f64Lanes w
  | .xfFfma _ w => f64Lanes w
  | .xfFmin _ w => f64Lanes w
  | .xfFmax _ w => f64Lanes w
  | .xfFset _ w => f64Lanes w
  | .xfFclass _ w => f64Lanes w
  | .xfFrnd _ w => f64Lanes w
  | .xfFrcp _ w => f64Lanes w
  | .xfFrsq _ w => f64Lanes w
  | .xfFsqrt _ w => f64Lanes w
  | .xqCvt h w => !w.dk && (w.ty == .f64 || h.srcTy == .f64)
  | _ => false

/-- The partition's next clock is the second one of an instruction that has issued. -/
def afterIssue (i : Instr) : Host.Outcome State Fault Refusal → Host.Outcome State Fault Refusal
  | .next s =>
    .next (if takesSecond i && s.iss.stalled.isNone then
      { s with iss := { s.iss with second := smSet s.iss.part (s.partClock s.iss.part + 1) s.iss.second } }
    else s)
  | .fault f => .fault f
  | .refused r => .refused r

/-- The issuing gang fetches at its PC (03 R71, R98): XLATE, PERM, POISON, a recoverable fault or ILL before an
instruction is known, or the instruction. -/
def State.fetchAndRun (g : GangRef) (s : State) : Host.Outcome State Fault Refusal :=
  match s.fetchFor g with
  | (.fault cause addr first, s') => .next (faultGang s' g { cause := cause, sub := 0, lanes := 15, addr := BitVec.ofNat 64 addr } first)
  | (.absent level mig addr, s') => .next (parkGang s' g level mig addr)
  | (.words ws, s') =>
    match decodeWords ws with
    | .ok i => afterIssue i (exec i s')
    | .error _ => .next (faultGang s' g (faultAll causeIll) (ws.headD 0))

/-- The same, or a stall where it meets a line or a page that is held. -/
def State.runGang (g : GangRef) (s : State) : Host.Outcome State Fault Refusal :=
  unlessBlocked (.next (s.popIssue.stallGang .retry g.refs)) (s.fetchAndRun g)

/-- A step while an instruction is to issue. -/
def State.stepGang (g : GangRef) (s : State) : Host.Outcome State Fault Refusal := endIssueOf (s.runGang g)

/-! ## Which gangs are ready (R117) -/

/-- A stall that is over unless the gang meets it again. -/
def Wait.cleared : Wait → Wait
  | .released => .released
  | w => if w.mayTry then .none else w

def clearWaits : State → List SliceRef → State
  | s, [] => s
  | s, r :: rs => (clearWaits s rs).modSlice r fun x => { x with wait := x.wait.cleared }

/-- The gang tries its next instruction. One that stalls stays as the attempt left it, and is not ready; of one that does not, nothing is
kept, and it is ready. -/
def State.probe (s : State) (g : GangRef) : State × Bool :=
  let s := clearWaits s g.refs
  match ({ s with iss := { s.iss with now := [g] } }).runGang g with
  | .next t => if t.iss.stalled.isSome then ({ t with iss := s.iss }, false) else (s, true)
  | .fault _ => (s, true)
  | .refused _ => (s, true)

/-- The gangs that no stall holds. -/
def probeAll : State → List Cand → State × List Cand
  | s, [] => (s, [])
  | s, c :: cs =>
    let (s, ok) := s.probe c.ref
    let (s, rest) := probeAll s cs
    (s, if ok then c :: rest else rest)

/-- A clock is open: its gang is chosen. -/
def State.stepChoice (s : State) : State :=
  let part := s.iss.part
  let s := { s with iss := { s.iss with opened := false } }
  let (s, cs) := probeAll s (s.candsOf Wait.mayTry (s.partClock part) (s.bentsOf part))
  s.choose cs

/-- A step of an engine: the head of the agenda, or what the scheduler finds. A head that has to wait stays, and the others go on. -/
def State.stepEngine (s : State) : Host.Outcome State Fault Refusal :=
  match s.agenda with
  | i :: rest => unlessBlocked s.autoStep (exec i { s with agenda := rest })
  | [] => s.autoStep

/-- Before the device has left reset only Glomel's boot and the resets act (14 R432, R435). -/
def State.stepHeld (s : State) : Host.Outcome State Fault Refusal :=
  match s.agenda with
  | i :: rest => if actsHeld i then exec i { s with agenda := rest } else .fault .heldInReset
  | [] => .fault .heldInReset

/-- After a thermal trip only Glomel and the host act (01 R19). -/
def State.stepTripped (s : State) : Host.Outcome State Fault Refusal :=
  match s.agenda with
  | i :: rest => if actsTripped i then exec i { s with agenda := rest } else .fault .clocksStopped
  | [] => .fault .clocksStopped

/-! ## A machine about to run an instruction (log entry 2) -/

/-- Where the code stands, virtual and physical. -/
def fetchBase : Nat := 0x10000

def fetchTlb : TlbEntry :=
  { hp := 0, ctx := 0, glob := false, va := fetchBase, size := 16, pa := fetchBase, r := true, w := true, x := true,
    dirty := true, msa := false, keyid := 0, fmt := 0, geom := 0 }

def fetchTeam : Team :=
  { Team.absent with desc := { Desc.zero with code := BitVec.ofNat 64 fetchBase, handler := 0x100, bents := 1, vregs := 256 }, gx := 1, gy := 1, gz := 1, ended := false }

def fetchSlice (i : Nat) : Slice :=
  { Slice.absent with exec := 15, pc := BitVec.ofNat 64 fetchBase, exited := false, slot := i }

def fetchGang : GangRef := { tid := 0, bent := 0, mask := 0xFF }

/-- A booted machine in which one team of one bent is resident and its gang issues next at `fetchBase`. -/
def State.withGang (s : State) : State :=
  { s with
    agenda := []
    iss := { Issue.reset with now := [fetchGang] }
    slices := (List.range 8).map fun i => (i, fetchSlice i)
    gangs := [(0, [{ mask := 0xFF, waiting := 0, readyAt := 0 }])]
    teams := [(0, fetchTeam)]
    mem := { s.mem with l1tlb := [(0, [fetchTlb])], l1 := [] }
    ccbs := smSet 0 { s.ccb 0 0 with en := true, state := 1 } s.ccbs
    dev := { s.dev with booted := true, tripped := false, keys := smSet 0 { KeySlot.empty with st := 1 } s.dev.keys } }

/-- The bytes of an instruction's words, with zeros above. -/
def fetchBytes (nbits w : Nat) : List Byte := bytesOfNat (4 * maxWords) (w % 2 ^ nbits)

def State.placeFetch (s : State) (nbits w : Nat) : State :=
  s.withGang.withBytes (memWriteN s.mem.bytes fetchBase (fetchBytes nbits w))

end Sys2Proof.Machine
end

