-- ==== Sys2Proof/Machine/Step.lean ====
section
/-! DEFINITION. One step of the machine, and the placing of an instruction where the next step runs it. -/

namespace Sys2Proof.Machine

/-- One step. -/
def step (s : State) : Host.Outcome State Fault Refusal :=
  if s.dev.booted then
    if s.dev.tripped then s.stepTripped
    else
      match s.iss.now with
      | g :: _ => s.stepGang g
      | [] => if s.iss.opened then .next s.stepChoice else s.stepEngine
  else s.stepHeld

/-- The machine with an instruction stored where its next step fetches, and all that this takes (log entry 2). -/
def State.withFetchWord (s : State) (nbits w : Nat) : State := s.placeFetch nbits w

end Sys2Proof.Machine
end

