-- ==== Sys2Proof/Safety.lean ====
section
/-! DEFINITION. What every run keeps, when a gang's instruction issues, and what an issue leaves alone, in the terms that
statements use. -/

namespace Sys2Proof.Safety

open Sys2Proof.Machine

/-- Memory has its one form. -/
def memoryCanonical (s : State) : Prop := Memory.wf s.mem.bytes = true

/-! ## When an instruction issues (03 R98) -/

/-- A slice that a team can hold: 64 bents of 8 slices. -/
def valid (r : SliceRef) : Prop := r.bent < 64 ∧ r.sl < 8

/-- The gang is the one that issues next, and each of its slices passes the checks of 03 R98 for an instruction that
names these registers: it is well-formed, they lie in the vector budget, no pending destination holds one, and no token
that it waits for is outstanding. -/
structure Issues (s : State) (g : GangRef) (i : Instr) (info : Info) : Prop where
  head : s.iss.now.head? = some g
  bent : g.bent < 64
  formed : i.wellFormed = true
  budget : ∀ r ∈ g.refs, ∀ q ∈ info.regs, overBudget ((s.team r.tid).budget r.bent) q = false
  scope : info.bentScope = true → ∀ r ∈ g.refs, (s.slice r).tmode = false
  tokens : ∀ r ∈ g.refs, (s.slice r).tokens &&& tokenMask info = 0
  pending : ∀ r ∈ g.refs, ∀ p ∈ (s.slice r).pend, ∀ q ∈ p.regs, q ∉ info.regs
  flags : info.waitFlags = true → ∀ r ∈ g.refs, (s.slice r).pend = []

/-! ## What an issue leaves alone -/

/-- Every slice outside the gang, every other bent's gangs, and every team but for its counters (04 R138) are as they
were. -/
structure Elsewhere (g : GangRef) (s t : State) : Prop where
  slices : ∀ r, valid r → r ∉ g.refs → t.slice r = s.slice r
  gangs : ∀ tid bent, bent < 64 → (tid, bent) ≠ (g.tid, g.bent) → t.gangsOf tid bent = s.gangsOf tid bent
  teams : ∀ tid, { t.team tid with counters := (s.team tid).counters } = s.team tid

/-- Nothing outside the compute clusters and the memory system has changed. -/
structure System (s t : State) : Prop where
  agenda : t.agenda = s.agenda
  clk : t.clk = s.clk
  sync : t.sync = s.sync
  copy : t.copy = s.copy
  mat : t.mat = s.mat
  dist : t.dist = s.dist
  fab : t.fab = s.fab
  coll : t.coll = s.coll
  ccbs : t.ccbs = s.ccbs
  dev : t.dev = s.dev
  free : t.free = s.free

/-- The gang at the head of those that issue has issued. -/
def popped (s t : State) : Prop := t.iss = { s.iss with now := s.iss.now.tail, stalled := none }

/-- An instruction that acts on its gang's registers alone: every byte of memory and all else of the memory system is as it
was, but for the L1 that a token's acquire drops (03 R96). -/
structure RegistersOnly (g : GangRef) (s t : State) : Prop where
  elsewhere : Elsewhere g s t
  system : System s t
  issue : popped s t
  checks : t.checks = s.checks
  mem : t.mem = { s.mem with l1 := t.mem.l1 }

/-! ## Registers after an instruction -/

/-- A write reaches a register of a lane; a scalar has one lane. -/
def reaches (w : RegWrite) (q : Reg) (lane : Nat) : Bool :=
  w.reg == q && (w.lane == lane || (match q with | .s _ => true | _ => false))

/-- The last value written to a register of a lane, or the old one. -/
def written (ws : List RegWrite) (q : Reg) (lane : Nat) (old : Word) : Word :=
  ws.foldl (fun v w => if reaches w q lane then w.val else v) old

/-- A predicate's new value: p7 always reads 1 (03 R88). -/
def writtenBit (ws : List RegWrite) (n lane : Nat) (old : Bool) : Bool :=
  if n = 7 then true else ws.foldl (fun v w => if reaches w (.p n) lane then w.val.getLsbD 0 else v) old

/-- The registers of `y` are those of `x` but for these writes. -/
structure Wrote (ws : List RegWrite) (x y : Slice) : Prop where
  v : ∀ n lane, lane < 4 → y.getV n lane = written ws (.v n) lane (x.getV n lane)
  s : ∀ n, y.getS n = written ws (.s n) 0 (x.getS n)
  p : ∀ n lane, n < 8 → lane < 4 → y.getP n lane = writtenBit ws n lane (x.getP n lane)

/-- The state of a slice beside its registers and its PC is as it was. -/
structure Control (x y : Slice) : Prop where
  exec : y.exec = x.exec
  tokens : y.tokens = x.tokens
  trap : y.trap = x.trap
  tmode : y.tmode = x.tmode
  exited : y.exited = x.exited
  slot : y.slot = x.slot

/-- An arithmetic instruction: it completes; in every slice of the gang each lane that executes (or the slice, once) reads
its registers as they were and writes what `f` gives; its flags are raised; the slice goes on at the instruction after; and
nothing else of the machine changes. -/
def computes (i : Instr) (g : GangRef) (s : State) (units : Slice → List Nat) (f : Slice → Nat → List RegWrite × FFlags) : Prop :=
  ∃ t, exec i s = .next t ∧ RegistersOnly g s t ∧ ∀ r ∈ g.refs,
    Wrote ((units (s.slice r)).flatMap fun u => (f (s.slice r) u).1) (s.slice r) (t.slice r) ∧
    (t.slice r).fflags = (units (s.slice r)).foldl (fun fl u => fl ||| (f (s.slice r) u).2) (s.slice r).fflags ∧
    Control (s.slice r) (t.slice r) ∧ (t.slice r).pc = nextPc i (s.slice r).pc

/-! ## Base forms (03 R73 to R77, 05 R149) -/

/-- Operand B of a vector form: the literal, a scalar register, or the lane's vector register. -/
def vectorB (o : B3) (x : Slice) (j : Nat) : Word :=
  match o.lit with
  | some l => l.setWidth 32
  | none => if o.bk then x.getS o.b.toNat else x.getV o.b.toNat j

/-- Operand B of a scalar form: the literal, the six-bit immediate, or a scalar register. -/
def scalarB (o : B3) (x : Slice) : Word :=
  match o.lit with
  | some l => l.setWidth 32
  | none => if o.bk then o.b.setWidth 32 else x.getS o.b.toNat

/-- The immediate of a BI form: the literal, or nine bits with their sign. -/
def immediateB (o : BI) : Word :=
  match o.lit with
  | some l => l.setWidth 32
  | none => o.imm.signExtend 32

/-- One vector register is written in the lanes that EXEC enables, from the registers as they were; nothing else of the
machine changes but the PC of the gang's slices. -/
def lanewise (i : Instr) (g : GangRef) (s : State) (d : Nat) (f : Slice → Nat → Word) : Prop :=
  ∃ t, exec i s = .next t ∧ RegistersOnly g s t ∧ ∀ r ∈ g.refs,
    (∀ n j, j < 4 → (t.slice r).getV n j = if n = d ∧ (s.slice r).exec.getLsbD j then f (s.slice r) j else (s.slice r).getV n j) ∧
    (∀ n, (t.slice r).getS n = (s.slice r).getS n) ∧
    (∀ n j, n < 8 → j < 4 → (t.slice r).getP n j = (s.slice r).getP n j) ∧
    (t.slice r).fflags = (s.slice r).fflags ∧ Control (s.slice r) (t.slice r) ∧ (t.slice r).pc = nextPc i (s.slice r).pc

/-- One scalar register is written, whatever EXEC is. -/
def slicewise (i : Instr) (g : GangRef) (s : State) (d : Nat) (f : Slice → Word) : Prop :=
  ∃ t, exec i s = .next t ∧ RegistersOnly g s t ∧ ∀ r ∈ g.refs,
    (∀ n j, j < 4 → (t.slice r).getV n j = (s.slice r).getV n j) ∧
    (∀ n, (t.slice r).getS n = if n = d then f (s.slice r) else (s.slice r).getS n) ∧
    (∀ n j, n < 8 → j < 4 → (t.slice r).getP n j = (s.slice r).getP n j) ∧
    (t.slice r).fflags = (s.slice r).fflags ∧ Control (s.slice r) (t.slice r) ∧ (t.slice r).pc = nextPc i (s.slice r).pc

/-- One predicate is written in the lanes that EXEC enables; p7 reads 1 all the same. -/
def predwise (i : Instr) (g : GangRef) (s : State) (d : Nat) (f : Slice → Nat → Bool) : Prop :=
  ∃ t, exec i s = .next t ∧ RegistersOnly g s t ∧ ∀ r ∈ g.refs,
    (∀ n j, j < 4 → (t.slice r).getV n j = (s.slice r).getV n j) ∧
    (∀ n, (t.slice r).getS n = (s.slice r).getS n) ∧
    (∀ n j, n < 8 → j < 4 → (t.slice r).getP n j =
      if n = 7 then true else if n = d ∧ (s.slice r).exec.getLsbD j then f (s.slice r) j else (s.slice r).getP n j) ∧
    (t.slice r).fflags = (s.slice r).fflags ∧ Control (s.slice r) (t.slice r) ∧ (t.slice r).pc = nextPc i (s.slice r).pc

/-! ## Branches and jumps (04 R125 to R128) -/

/-- A slice of a gang goes to an address, with these scalar registers changed and nothing else of it but its place. -/
def jumps (i : Instr) (g : GangRef) (s : State) (target : Slice → Quad) (scalar : Slice → Nat → Word) : Prop :=
  ∃ t, exec i s = .next t ∧ RegistersOnly g s t ∧ ∀ r ∈ g.refs,
    (t.slice r).pc = target (s.slice r) ∧ (∀ n, (t.slice r).getS n = scalar (s.slice r) n) ∧
    (∀ n j, j < 4 → (t.slice r).getV n j = (s.slice r).getV n j) ∧ (t.slice r).preds = (s.slice r).preds ∧
    (t.slice r).fflags = (s.slice r).fflags ∧ Control (s.slice r) (t.slice r)

/-- Scalars as they were. -/
def keepS (x : Slice) (n : Nat) : Word := x.getS n

/-- Scalars with an address in a pair. -/
def pairS (at_ : Nat) (q : Slice → Quad) (x : Slice) (n : Nat) : Word :=
  if n = at_ then (q x).setWidth 32 else if n = at_ + 1 then (q x >>> 32).setWidth 32 else x.getS n

/-- The address that a scalar pair holds. -/
def pairAt (n : Nat) (x : Slice) : Quad := x.getS (n + 1) ++ x.getS n

/-- The target of a base branch, and of an extended one: the literal, or a signed word offset from the branch (R125). -/
def baseTarget (o : BJ) (x : Slice) : Quad :=
  match o.lit with
  | some l => l
  | none => x.pc + 4 * o.off.signExtend 64

def extTarget (h : Head) (w : Branch) (x : Slice) : Quad :=
  match h.lit with
  | some l => l
  | none => x.pc + 4 * w.off.signExtend 64

/-- A predicate is 1 in some lane that EXEC enables; in every such lane (R126). -/
def someLane (p : Nat) (x : Slice) : Prop := ∃ j < 4, x.exec.getLsbD j = true ∧ x.getP p j = true
def everyLane (p : Nat) (x : Slice) : Prop := ∀ j < 4, x.exec.getLsbD j = true → x.getP p j = true

/-- EXEC changes, and one scalar register may (R130); nothing else but the PC. -/
def masks (i : Instr) (g : GangRef) (s : State) (exec' : Slice → BitVec 4) (scalar : Slice → Nat → Word) : Prop :=
  ∃ t, exec i s = .next t ∧ RegistersOnly g s t ∧ ∀ r ∈ g.refs,
    (t.slice r).exec = exec' (s.slice r) ∧ (∀ n, (t.slice r).getS n = scalar (s.slice r) n) ∧
    (∀ n j, j < 4 → (t.slice r).getV n j = (s.slice r).getV n j) ∧ (t.slice r).preds = (s.slice r).preds ∧
    (t.slice r).fflags = (s.slice r).fflags ∧ (t.slice r).tokens = (s.slice r).tokens ∧ (t.slice r).trap = (s.slice r).trap ∧
    (t.slice r).tmode = (s.slice r).tmode ∧ (t.slice r).pc = nextPc i (s.slice r).pc

/-- One scalar register is set. -/
def setS (d : Nat) (v : Slice → Word) (x : Slice) (n : Nat) : Word := if n = d then v x else x.getS n

/-- Each slice that executes (once per slice, R91) reads a value into scalar D. -/
def reads (i : Instr) (g : GangRef) (s : State) (on : Slice → Bool) (d : Nat) (v : State → SliceRef → Word) : Prop :=
  ∃ t, exec i s = .next t ∧ RegistersOnly g s t ∧ ∀ r ∈ g.refs,
    (∀ n, (t.slice r).getS n = if n = d ∧ on (s.slice r) then v s r else (s.slice r).getS n) ∧
    (∀ n j, j < 4 → (t.slice r).getV n j = (s.slice r).getV n j) ∧ (t.slice r).preds = (s.slice r).preds ∧
    (t.slice r).fflags = (s.slice r).fflags ∧ Control (s.slice r) (t.slice r) ∧ (t.slice r).pc = nextPc i (s.slice r).pc

/-! ## Traps (04 R139, R140) -/

/-- What trap entry leaves of a slice whose fault is `f` at the address `at_`: the trap state, trap mode, and the PC at the
team's handler; the registers as they were. -/
structure Trapped (s t : State) (r : SliceRef) (f : FaultInfo) (tpc tfpc : Quad) (inst : Word) : Prop where
  cause : (t.slice r).trap.cause = BitVec.ofNat 8 f.cause
  sub : (t.slice r).trap.sub = BitVec.ofNat 8 f.sub
  lanes : (t.slice r).trap.lanes = BitVec.ofNat 4 f.lanes
  tpc : (t.slice r).trap.tpc = tpc
  tfpc : (t.slice r).trap.tfpc = tfpc
  taddr : (t.slice r).trap.taddr = f.addr
  texec : (t.slice r).trap.texec = (s.slice r).exec
  tinst : (t.slice r).trap.tinst = inst
  tmode : (t.slice r).tmode = true
  pc : (t.slice r).pc = (s.team r.tid).desc.code + BitVec.ofNat 64 (s.team r.tid).desc.handler
  regs : (t.slice r).v = (s.slice r).v ∧ (t.slice r).s = (s.slice r).s ∧ (t.slice r).preds = (s.slice r).preds ∧
    (t.slice r).exec = (s.slice r).exec ∧ (t.slice r).fflags = (s.slice r).fflags

/-- A gang of one slice, outside trap mode, with nothing pending, no move under way and a handler, in a context that logs no traps;
no other gang issues in the same clock. -/
structure Alone (s : State) (g : GangRef) (r : SliceRef) : Prop where
  refs : g.refs = [r]
  idle : (s.slice r).pend = []
  user : (s.slice r).tmode = false
  handler : (s.team r.tid).desc.handler ≠ 0xFFFFFFFF
  quiet : (s.ccb (s.team r.tid).hp (s.team r.tid).ctx).tlogon = false
  still : (s.slice r).moveTo = none
  single : s.iss.fused = false
  free : s.mem.blocked = false

/-! ## Pending destinations (03 R93) -/

/-- What is pending in a slice once one more instruction has issued: the open windows are one shorter. -/
def stillPending (n : Nat) (x : Slice) : List Pending := (x.passed n).pend

/-- A slice has issued a class L instruction: it has one pending destination more. -/
def gains (i : Instr) (n : Nat) (x y : Slice) (la : Nat) (regs : List Reg) (result : Option (List RegWrite)) (fl : FFlags)
    (flt : Option FaultInfo) : Prop :=
  ∃ pid, n ≤ pid ∧ y.pend = stillPending n x ++
    [{ pid := pid, regs := regs, window := la, pc := x.pc, inst := instrWord i, result := result, flags := fl, fault := flt, queued := false }]

/-- The registers of a slice, and its state beside them, are as they were. -/
structure Kept (x y : Slice) : Prop where
  v : y.v = x.v
  s : y.s = x.s
  preds : y.preds = x.preds
  fflags : y.fflags = x.fflags
  exec : y.exec = x.exec
  trap : y.trap = x.trap
  tmode : y.tmode = x.tmode
  exited : y.exited = x.exited
  slot : y.slot = x.slot

/-- A class L instruction whose results are known at issue: each slice of the gang has a pending destination with the given
writes, flags and fault (or none, where it writes nothing); nothing else changes but the PC. -/
def defers (i : Instr) (g : GangRef) (s : State) (la : Nat) (regs : List Reg) (f : SliceRef → List RegWrite × FFlags)
    (flt : Option FaultInfo) (always : Bool) : Prop :=
  ∃ t, exec i s = .next t ∧ Elsewhere g s t ∧ System s t ∧ popped s t ∧ t.checks = s.checks ∧
    t.mem = { s.mem with l1 := t.mem.l1, nextOp := t.mem.nextOp } ∧ ∀ r ∈ g.refs,
      Kept (s.slice r) (t.slice r) ∧ (t.slice r).tokens = (s.slice r).tokens ∧ (t.slice r).pc = nextPc i (s.slice r).pc ∧
      if (f r).1 = [] ∧ always = false then (t.slice r).pend = stillPending s.mem.nextOp (s.slice r)
      else gains i s.mem.nextOp (s.slice r) (t.slice r) la regs (some (f r).1) (f r).2 flt

/-! ## A gang of one slice -/

/-- A gang of one slice issues, and nothing is outstanding: no operation, no page in migration, no range of a copy. -/
structure Lone (s : State) (g : GangRef) (r : SliceRef) (i : Instr) (info : Info) : Prop where
  issues : Issues s g i info
  refs : g.refs = [r]
  ops : s.mem.ops = []
  migs : s.mem.migs = []
  ranges : s.mem.ranges = []

/-- The state in which the slice does its instruction: the gang has been taken, the slice waits for nothing, and it has
acquired through the tokens that it waited for (R96). -/
def acting (s : State) (r : SliceRef) (tokens : BitVec 8) : State := (setWaits s.popIssue .none [r]).acquireTokens r tokens 8

/-- The slice has done its instruction and stands at `pc`; every other slice and bent, and what no issue reaches, is as it
was. -/
structure Onward (g : GangRef) (r : SliceRef) (s t : State) (pc : Quad) : Prop where
  kept : Kept (s.slice r) (t.slice r)
  pc : (t.slice r).pc = pc
  slices : ∀ q, valid q → q ≠ r → t.slice q = s.slice q
  gangs : ∀ tid bent, bent < 64 → (tid, bent) ≠ (g.tid, g.bent) → t.gangsOf tid bent = s.gangsOf tid bent
  issue : popped s t
  agenda : t.agenda = s.agenda
  clk : t.clk = s.clk
  mat : t.mat = s.mat
  dist : t.dist = s.dist
  ccbs : t.ccbs = s.ccbs
  free : t.free = s.free

/-- The engines and registers outside the slices are as they were, and every byte of memory; a team's counters may count. -/
structure Calm (s t : State) : Prop where
  sync : t.sync = s.sync
  copy : t.copy = s.copy
  fab : t.fab = s.fab
  coll : t.coll = s.coll
  dev : t.dev = s.dev
  checks : t.checks = s.checks
  bytes : t.mem.bytes = s.mem.bytes
  poison : t.mem.poison = s.mem.poison
  teams : ∀ tid, { t.team tid with counters := (s.team tid).counters } = s.team tid

/-! ## Translations (06 R166 to R174) -/

/-- An address that a translation in a cluster's L1 TLB serves: it allows the access, and the memory is there. -/
structure Cached (s : State) (cl hp ctx : Nat) (acc : Access) (va : Nat) (e : TlbEntry) : Prop where
  canonical : canonical va = true
  found : tlbFind hp ctx va (s.l1Tlb cl) = some e
  allows : e.allows acc = true
  dirty : isWrite acc = true → e.dirty = true
  backed : s.reachable hp e.keyid (e.pa + va % 2 ^ e.size) = true

/-- The same of an address of a slice. -/
abbrev Hit (s : State) (r : SliceRef) (acc : Access) (va : Nat) (e : TlbEntry) : Prop :=
  Cached s (s.clusterOf r) (s.team r.tid).hp (s.team r.tid).ctx acc va e

/-- The physical address. -/
def physical (e : TlbEntry) (va : Nat) : Nat := e.pa + va % 2 ^ e.size

/-- A byte as a load of a cluster under a key sees it: the newest in the write buffer; unless the load goes past the L1, the byte of a
sector filled under the same key; else memory (06 R184, 07 R213, R256). -/
def loadByte (s : State) (cl key : Nat) (past : Bool) (pa : Nat) : Byte :=
  match wbufByte pa (s.l1 cl).wbuf with
  | some b => b
  | none =>
    match (s.l1 cl).sector (sectorOf pa) with
    | some x => if !past && x.key == key then x.data.getD (pa % 32) 0 else s.byteAt pa
    | none => s.byteAt pa

/-- The bytes of a load. Where the L1 has no room for what the gang's load fills, a sector that it held may have gone before this part
was read, which memory then gives. -/
structure Loaded (s : State) (cl key : Nat) (past room : Bool) (pa n : Nat) (bs : List Byte) : Prop where
  length : bs.length = n
  bytes : ∀ i < n, bs.getD i 0 = loadByte s cl key past (pa + i) ∨ (room = false ∧ bs.getD i 0 = loadByte s cl key true (pa + i))

/-- An access to a page that a memory-side unit serves: MSA, with the line in no cache (06 R203, R204). -/
def atUnit (s : State) (e : TlbEntry) (va : Nat) : Bool := e.msa && !(s.cached (lineOf (physical e va)))

/-- A page in host memory. -/
def atHost (s : State) (r : SliceRef) (e : TlbEntry) (va : Nat) : Bool := (s.region (s.team r.tid).hp (physical e va)).isHost

/-- The record of a lane's access. -/
def laneElem (e : TlbEntry) (va n : Nat) (data cmp : List Byte) (j : Nat) : Elem :=
  { lane := j, va := BitVec.ofNat 64 va, pa := physical e va, key := e.keyid, size := n, data := data, cmp := cmp }

/-- The one operation outstanding. -/
structure Records (t : State) (r : SliceRef) (cls : OpClass) (scope : Scope) (kind : OpKind) (elems : List Elem) (performed : Bool)
    (o : Op) : Prop where
  only : t.mem.ops = [o]
  ref : o.ref = r
  cls : o.cls = cls
  scope : o.scope = scope
  kind : o.kind = kind
  elems : o.elems = elems
  performed : o.performed = performed

/-! ## Steps of the engines -/

/-- Of the slices these alone change, each as `f` says. -/
structure Moved (s t : State) (rs : List SliceRef) (f : Slice → Slice) : Prop where
  these : ∀ r ∈ rs, t.slice r = f (s.slice r)
  others : ∀ q, valid q → q ∉ rs → t.slice q = s.slice q

/-- A team's counters may count; nothing else of the teams changes (04 R138). -/
def Counted (s t : State) : Prop := ∀ tid, { t.team tid with counters := (s.team tid).counters } = s.team tid

/-- Slices change, and what counts clocks; nothing else. -/
structure SlicesOnly (s t : State) : Prop where
  counted : Counted s t
  rest : { t with slices := s.slices, teams := s.teams, clk := s.clk } = s

/-- A byte of memory once bytes have been stored. -/
def stored (m : Memory) (pa : Nat) (bs : List Byte) (a : Nat) : Byte :=
  if pa ≤ a ∧ a < pa + bs.length then bs.getD (a - pa) 0 else memRead m a

/-- One operation is outstanding, of one element in clean memory that its partition reaches; nothing keeps it from
performing. -/
structure Sole (s : State) (o : Op) (e : Elem) : Prop where
  ref : valid o.ref
  only : s.mem.ops = [o]
  elems : o.elems = [e]
  migs : s.mem.migs = []
  memory : e.pa < scratchBase
  reached : s.reachable (s.team o.ref.tid).hp e.key e.pa = true
  clean : s.poisoned e.pa e.size = false
  begun : o.performed = false ∧ o.got = [] ∧ o.poisoned = 0

/-- The operation has performed and its pending destination has these writes as its result; every other slice is as it
was. -/
structure Answered (s t : State) (o : Op) (ws : List RegWrite) : Prop where
  pend : (t.slice o.ref).pend =
    match o.pid with
    | some pid => settle pid (some ws) 0 none (s.slice o.ref).pend
    | none => (s.slice o.ref).pend
  slices : ∀ q, valid q → q ≠ o.ref → t.slice q = s.slice q
  done : ∀ p ∈ t.mem.ops, p.id = o.id ∧ p.performed = true

/-- The page tables serve an engine's access for a context: the walk ends at a leaf that allows it and has A set, and D for a
write; it meets nothing that is held; and the memory is there. -/
structure Serves (s : State) (hp ctx : Nat) (acc : Access) (va : Nat) (e : TlbEntry) : Prop where
  canonical : canonical va = true
  leaf : ∃ level at_ pte, s.walk hp ctx va = .leaf level at_ pte ∧ bitOf pte 5 = true ∧ (isWrite acc = true → bitOf pte 6 = true) ∧
    e = tlbOf hp ctx va pte (isWrite acc || bitOf pte 6)
  free : s.walkHeld hp va 5 (s.ccb hp ctx).ptroot = false
  allows : e.allows acc = true
  backed : s.reachable hp e.keyid (physical e va) = true
  there : s.engineAt (isWrite acc) (physical e va) = physical e va
  unheld : s.mustHold (isWrite acc) (physical e va) (4096 - va % 4096) = false

/-- Bytes that an engine reads for a context: within one page that serves the read, and clean. -/
def Holds (s : State) (hp ctx va : Nat) (bs : List Byte) : Prop :=
  ∃ e, Serves s hp ctx .read va e ∧ va % 4096 + bs.length ≤ 4096 ∧ s.poisoned (physical e va) bs.length = false ∧
    memReadN s.mem.bytes (physical e va) bs.length = bs

/-- Memory after a store of these bytes alone. -/
def StoresAt (s t : State) (pa : Nat) (bs : List Byte) : Prop := ∀ a, t.byteAt a = stored s.mem.bytes pa bs a

/-! ## Packets (01 R34 to R39) -/

/-- A packet with no timeline and no interrupt, which is no node of a graph. -/
def Plain (e : Entry) : Prop := e.tlid = 0 ∧ e.irq = false ∧ e.node = none

/-- The entry has left; nothing else has changed. -/
structure EntryEnds (s t : State) (e : Entry) : Prop where
  gone : t.entry? e.eid = none
  others : ∀ k, k ≠ e.eid → t.entry? k = s.entry? k
  rest : { t with dist := { t.dist with entries := s.dist.entries } } = s

/-- The entry is now as given; no other has changed. -/
def EntryIs (s t : State) (e : Entry) : Prop := t.entry? e.eid = some e ∧ ∀ k, k ≠ e.eid → t.entry? k = s.entry? k

/-- The entry may start: it has been dispatched, and its context is not saved. -/
def Starts (s : State) (e : Entry) (kind : Nat) : Prop :=
  s.entry? e.eid = some e ∧ e.stage = 3 ∧ e.kind = kind ∧ (s.ccb e.hp e.ctx).state ≠ 3

/-- A header and a body that no consumer rejects, of a packet that names no timeline and is no convert (01 R36). -/
def Sound (e : Entry) : Prop :=
  e.kind ≤ 8 ∧ (e.kind = 2 → e.field 305 304 ≠ 3) ∧ e.field 15 10 = 0 ∧ e.field 23 18 = 0 ∧ e.tlid = 0 ∧ bodyFault e = 0

/-! ## Instructions in memory (03 R70, R71) -/

/-- Fields of words 0 and 1 of an unguarded extended instruction with no literal (R78). -/
def plainHead (d a b c : BitVec 8) : Head := { d := d, a := a, b := b, c := c, la := 0, gp := 7, gn := false, wk := 0, lit := none }

/-- Arithmetic and memory fields of word 2, all others zero (R79). -/
def plainArith (ty : Ty) : Arith := { ty := ty, rnd := .rn, sat := false, ftz := false, ka := false, kb := false, kc := false, bi := false, imm := 0 }
def plainMem (min4 : BitVec 4) (off : BitVec 24) (scope : Scope) (ord : Ord) (ty : Ty) : Mem := { min4 := min4, off := off, scope := scope, ord := ord, ty := ty }
def plainCommand (tb tc : Ty) (flg : BitVec 4) (imm : BitVec 16) : Command := { ta := .i8, tb := tb, tc := tc, flg := flg, imm := imm }

/-- The words of one instruction stand at the gang's PC: each where the translation in use puts it, clean, not held nor in motion, and not
yet in the instruction cache. -/
structure CodeAt (s : State) (g : GangRef) (e : TlbEntry) (ws : List Nat) : Prop where
  serves : ∀ k < ws.length, Cached s ((s.team g.tid).clusterOf g.bent) (s.team g.tid).hp (s.team g.tid).ctx .fetch ((gangPc s g).toNat + 4 * k) e
  fits : (gangPc s g).toNat + 4 * ws.length ≤ 2 ^ 64
  aligned : ∀ k < ws.length, physical e ((gangPc s g).toNat + 4 * k) % 4 = 0
  clean : ∀ k < ws.length, s.poisoned (physical e ((gangPc s g).toNat + 4 * k)) 4 = false
  bytes : ∀ k < ws.length, ws[k]? = some (natOfBytes (memReadN s.mem.bytes (physical e ((gangPc s g).toNat + 4 * k)) 4))
  cold : ∀ line, smFind line (s.l1 ((s.team g.tid).clusterOf g.bent)).icache = none
  whole : ws.length = wordCount (ws.headD 0)
  there : ∀ k < ws.length, s.engineAt false (physical e ((gangPc s g).toNat + 4 * k)) = physical e ((gangPc s g).toNat + 4 * k)
  unheld : ∀ k < ws.length, s.mustHold false (physical e ((gangPc s g).toNat + 4 * k)) 4 = false
  free : s.mem.blocked = false

/-- Only instruction caches have changed, and what the L2s, the Sills, the directories and the Scribes hold of lines. -/
def Fetched (s t : State) : Prop :=
  { t with mem := { t.mem with l1 := s.mem.l1, l2 := s.mem.l2, sill := s.mem.sill, xfers := s.mem.xfers, lines := s.mem.lines } } = s ∧
    ∀ c, { t.l1 c with icache := (s.l1 c).icache } = s.l1 c

/-! ## Reset and the thermal trip (01 R19, 14 R432) -/

/-- Some step of the firmware chain fails: there is no image, or one does not verify. -/
def chainFails (images : List BootImage) : Prop :=
  images = [] ∨ ∃ b ∈ images, b.ecdsaOk = false ∨ b.lmsOk = false ∨ b.version < Config.fusedVersion

/-- The device is in reset, and no boot that is to come verifies its whole chain. -/
def InReset (s : State) : Prop := s.dev.booted = false ∧ ∀ images, .evGlomelBoot images ∈ s.agenda → chainFails images

/-- The clocks are stopped, and no reset is to come. -/
def Stopped (s : State) : Prop :=
  s.dev.booted = true ∧ s.dev.tripped = true ∧ .evHostReset ∉ s.agenda ∧ .evPowerOnReset ∉ s.agenda

end Sys2Proof.Safety
end

