-- ==== Sys2Proof/Certificates/Slice0/Obligations.lean ====
section
/-! DEFINITION. The statements for the provers. -/

open Sys2Proof Sys2Proof.Machine Sys2Proof.Safety

/-! ## Base arithmetic (05 R149 to R151) -/

/-- R149: the base vector integer instructions write the 32-bit result to vector register D in the lanes that EXEC enables
(R91); operand B is a vector register, a scalar register or the literal; they change nothing else. Shift counts are
unsigned; a count of 32 or more shifts everything out (R154). R149: the base scalar integer instructions write scalar register D once per slice, whatever EXEC is (R91); operand B is a
scalar register, a six-bit immediate or the literal (R73). R149: the base immediate forms compute as the register forms do, with the sign-extended nine-bit immediate or the literal
as operand B (R75). -/
def Obligations.BaseInteger : Prop :=
  (∀ (s : State) (g : GangRef) (o : B3),
      (∀ p ∈ ([(.bviAdd o, fun a b => a + b), (.bviSub o, fun a b => a - b), (.bviMul o, fun a b => a * b),
               (.bviMin o, fun a b => if b.slt a then b else a), (.bviMax o, fun a b => if a.slt b then b else a),
               (.bviAnd o, fun a b => a &&& b), (.bviOr o, fun a b => a ||| b), (.bviXor o, fun a b => a ^^^ b),
               (.bviAndn o, fun a b => a &&& ~~~b), (.bviShl o, fun a b => a <<< b.toNat), (.bviShr o, fun a b => a >>> b.toNat),
               (.bviSar o, fun a b => a.sshiftRight b.toNat)] : List (Instr × (Word → Word → Word))),
        Issues s g p.1 { regs := [.v o.d.toNat, .v o.a.toNat] ++ B3.bRegs o false } →
          lanewise p.1 g s o.d.toNat (fun x j => p.2 (x.getV o.a.toNat j) (vectorB o x j))) ∧
      (Issues s g (.bviMov o) { regs := [.v o.d.toNat] ++ B3.bRegs o false } → lanewise (.bviMov o) g s o.d.toNat (vectorB o))) ∧
  (∀ (s : State) (g : GangRef) (o : B3),
      (∀ p ∈ ([(.bsiAdd o, fun a b => a + b), (.bsiSub o, fun a b => a - b), (.bsiMul o, fun a b => a * b),
               (.bsiMin o, fun a b => if b.slt a then b else a), (.bsiMax o, fun a b => if a.slt b then b else a),
               (.bsiAnd o, fun a b => a &&& b), (.bsiOr o, fun a b => a ||| b), (.bsiXor o, fun a b => a ^^^ b),
               (.bsiAndn o, fun a b => a &&& ~~~b), (.bsiShl o, fun a b => a <<< b.toNat), (.bsiShr o, fun a b => a >>> b.toNat),
               (.bsiSar o, fun a b => a.sshiftRight b.toNat)] : List (Instr × (Word → Word → Word))),
        Issues s g p.1 { regs := [.s o.d.toNat, .s o.a.toNat] ++ B3.bRegs o true } →
          slicewise p.1 g s o.d.toNat (fun x => p.2 (x.getS o.a.toNat) (scalarB o x))) ∧
      (Issues s g (.bsiMov o) { regs := [.s o.d.toNat] ++ B3.bRegs o true } → slicewise (.bsiMov o) g s o.d.toNat (scalarB o))) ∧
  (∀ (s : State) (g : GangRef) (o : BI),
      (∀ p ∈ ([(.bviiAdd o, .bsiiAdd o, fun a b => a + b), (.bviiAnd o, .bsiiAnd o, fun a b => a &&& b),
               (.bviiOr o, .bsiiOr o, fun a b => a ||| b), (.bviiXor o, .bsiiXor o, fun a b => a ^^^ b),
               (.bviiShl o, .bsiiShl o, fun a b => a <<< b.toNat), (.bviiShr o, .bsiiShr o, fun a b => a >>> b.toNat),
               (.bviiSar o, .bsiiSar o, fun a b => a.sshiftRight b.toNat)] : List (Instr × Instr × (Word → Word → Word))),
        (Issues s g p.1 { regs := [.v o.d.toNat, .v o.a.toNat] } →
          lanewise p.1 g s o.d.toNat (fun x j => p.2.2 (x.getV o.a.toNat j) (immediateB o))) ∧
        (Issues s g p.2.1 { regs := [.s o.d.toNat, .s o.a.toNat] } →
          slicewise p.2.1 g s o.d.toNat (fun x => p.2.2 (x.getS o.a.toNat) (immediateB o)))) ∧
      (Issues s g (.bviiMov o) { regs := [.v o.d.toNat] } → lanewise (.bviiMov o) g s o.d.toNat (fun _ _ => immediateB o)) ∧
      (Issues s g (.bsiiMov o) { regs := [.s o.d.toNat] } → slicewise (.bsiiMov o) g s o.d.toNat (fun _ => immediateB o)))

/-- R151: BVC writes predicate D in the lanes that EXEC enables, BSC scalar D as 1 or 0 once per slice; the plain comparisons are of
signed numbers and the Z32 forms of unsigned ones, and FSET in BVC compares f32, ordered but for UNORD. A D of BVC with bits 5:3 set is
ill-formed, and FN 16 to 22 of BSC take ILL. -/
def Obligations.BaseCompare : Prop :=
  (∀ (s : State) (g : GangRef) (o : B3),
      let lanes := fun (x : Slice) => (List.range 4).filter fun j => x.exec.getLsbD j
      (∀ p ∈ ([(.bvcIsetEq o, .bscIsetEq o, fun a b => a == b), (.bvcIsetNe o, .bscIsetNe o, fun a b => a != b),
               (.bvcIsetLt o, .bscIsetLt o, fun a b => a.slt b), (.bvcIsetLe o, .bscIsetLe o, fun a b => a.sle b),
               (.bvcIsetGt o, .bscIsetGt o, fun a b => b.slt a), (.bvcIsetGe o, .bscIsetGe o, fun a b => b.sle a),
               (.bvcIsetEqZ32 o, .bscIsetEqZ32 o, fun a b => a == b), (.bvcIsetNeZ32 o, .bscIsetNeZ32 o, fun a b => a != b),
               (.bvcIsetLtZ32 o, .bscIsetLtZ32 o, fun a b => a.ult b), (.bvcIsetLeZ32 o, .bscIsetLeZ32 o, fun a b => a.ule b),
               (.bvcIsetGtZ32 o, .bscIsetGtZ32 o, fun a b => b.ult a), (.bvcIsetGeZ32 o, .bscIsetGeZ32 o, fun a b => b.ule a)] :
               List (Instr × Instr × (Word → Word → Bool))),
        (8 ≤ o.d.toNat → p.1.wellFormed = false) ∧
        (Issues s g p.1 { regs := [.p o.d.toNat, .v o.a.toNat] ++ B3.bRegs o false } →
          predwise p.1 g s o.d.toNat (fun x j => p.2.2 (x.getV o.a.toNat j) (vectorB o x j))) ∧
        (Issues s g p.2.1 { regs := [.s o.d.toNat, .s o.a.toNat] ++ B3.bRegs o true } →
          slicewise p.2.1 g s o.d.toNat (fun x => if p.2.2 (x.getS o.a.toNat) (scalarB o x) then 1 else 0))) ∧
      (∀ p ∈ ([(.bvcFsetEq o, 0), (.bvcFsetNe o, 1), (.bvcFsetLt o, 2), (.bvcFsetLe o, 3), (.bvcFsetGt o, 4), (.bvcFsetGe o, 5),
               (.bvcFsetUnord o, 6)] : List (Instr × Nat)),
        (8 ≤ o.d.toNat → p.1.wellFormed = false) ∧
        (Issues s g p.1 { regs := [.p o.d.toNat, .v o.a.toNat] ++ B3.bRegs o false } →
          computes p.1 g s lanes (fun x j =>
            let v := fSet fmtF32 false p.2 (x.getV o.a.toNat j).toNat (vectorB o x j).toNat
            ([{ reg := .p o.d.toNat, lane := j, val := if v.1 then 1 else 0 }], v.2))))) ∧
  (∀ a b : Nat, let un := (fmtF32.decode a).isNan || (fmtF32.decode b).isNan
      (fSet fmtF32 false 6 a b).1 = un ∧ (un = true → ∀ k < 6, (fSet fmtF32 false k a b).1 = false) ∧
      (un = false → (fSet fmtF32 false 1 a b).1 = !(fSet fmtF32 false 0 a b).1)) ∧
  (∀ (s : State) (g : GangRef) (r : SliceRef) (e : TlbEntry) (ws gs) (len fn x : Nat), s.dev.booted = true → s.dev.tripped = false →
      s.iss.now = g :: gs → g.bent < 64 → CodeAt s g e ws → Alone s g r → (len = 0 ∨ len = 2) → 16 ≤ fn → fn ≤ 22 → x < 2 ^ 19 →
      ws.headD 0 = len * 2 ^ 30 + 7 * 2 ^ 24 + fn * 2 ^ 19 + x →
      ∃ t, step s = .next t ∧ Trapped s t r (faultAll causeIll) (s.slice r).pc (s.slice r).pc (BitVec.ofNat 32 (ws.headD 0)))

/-- R149, R150: the base floating instructions on f32, f16x2 and bf16x2 round to nearest even, without SAT or FTZ; FFMA adds to
the old D; the flags of every lane that EXEC enables are raised in FFLAGS (02 R52). -/
def Obligations.BaseFloat : Prop :=
  ∀ (s : State) (g : GangRef) (o : B3),
    let m : FMode := { rnd := .rn, sat := false, ftz := false }
    let lanes := fun (x : Slice) => (List.range 4).filter fun j => x.exec.getLsbD j
    let result := fun (op : Nat → Nat → Nat → Nat × FFlags) (x : Slice) (j : Nat) =>
      let v := op (x.getV o.a.toNat j).toNat (vectorB o x j).toNat (x.getV o.d.toNat j).toNat
      ([({ reg := .v o.d.toNat, lane := j, val := BitVec.ofNat 32 v.1 } : RegWrite)], v.2)
    (∀ p ∈ ([(.bvfFadd o, fun a b _ => fAdd fmtF32 m a b), (.bvfFsub o, fun a b _ => fSub fmtF32 m a b),
             (.bvfFmul o, fun a b _ => fMul fmtF32 m a b), (.bvfFmin o, fun a b _ => fMinMax false fmtF32 m a b),
             (.bvfFmax o, fun a b _ => fMinMax true fmtF32 m a b), (.bvfFfma o, fFma fmtF32 m),
             (.bvhFaddF16x2 o, packed fun a b _ => fAdd fmtF16 m a b), (.bvhFsubF16x2 o, packed fun a b _ => fSub fmtF16 m a b),
             (.bvhFmulF16x2 o, packed fun a b _ => fMul fmtF16 m a b), (.bvhFminF16x2 o, packed fun a b _ => fMinMax false fmtF16 m a b),
             (.bvhFmaxF16x2 o, packed fun a b _ => fMinMax true fmtF16 m a b), (.bvhFfmaF16x2 o, packed (fFma fmtF16 m)),
             (.bvhFaddBf16x2 o, packed fun a b _ => fAdd fmtBf16 m a b), (.bvhFsubBf16x2 o, packed fun a b _ => fSub fmtBf16 m a b),
             (.bvhFmulBf16x2 o, packed fun a b _ => fMul fmtBf16 m a b), (.bvhFminBf16x2 o, packed fun a b _ => fMinMax false fmtBf16 m a b),
             (.bvhFmaxBf16x2 o, packed fun a b _ => fMinMax true fmtBf16 m a b), (.bvhFfmaBf16x2 o, packed (fFma fmtBf16 m))] :
             List (Instr × (Nat → Nat → Nat → Nat × FFlags))),
      Issues s g p.1 { regs := [.v o.d.toNat, .v o.a.toNat] ++ B3.bRegs o false } → computes p.1 g s lanes (result p.2)) ∧
    (∀ p ∈ ([(.bvfFrcp o, fRcp fmtF32 m), (.bvfFrsq o, fRsq fmtF32 m), (.bvfFsqrt o, fSqrt fmtF32 m), (.bvfFex2 o, fEx2 fmtF32 m),
             (.bvfFlg2 o, fLg2 fmtF32 m)] : List (Instr × (Nat → Nat × FFlags))),
      Issues s g p.1 { regs := [.v o.d.toNat, .v o.a.toNat] } → computes p.1 g s lanes (result fun a _ _ => p.2 a))

/-! ## Extended arithmetic (05 R152 to R163) -/

/-- R152, R153, R154: the extended integer instructions of one type write D, in the lanes that EXEC and the guard enable or once
per slice (R80, R91), from operands A, B and C as they were; SX is raised where SAT clamps. R152, R153, R155, R156: carry chains read and write register C; SEL picks by a predicate; ISET writes a predicate or a scalar 1
or 0; LEA adds the index shifted left to a 64-bit base. -/
def Obligations.ExtInteger : Prop :=
  (∀ (s : State) (g : GangRef) (h : Head) (w : Arith),
      ∀ p ∈ ([(.xiAdd h w, xi2 true, opAdd), (.xiSub h w, xi2 true, opSub), (.xiMul h w, xi2 true, opMul), (.xiMulh h w, xiWide, opMulh),
              (.xiMad h w, xi3 Ty.isInt true w.ty, opMad), (.xiMin h w, xi2 false, opMin), (.xiMax h w, xi2 false, opMax),
              (.xiAbs h w, xi1 Ty.isInt true, opAbs), (.xiNeg h w, xi1 Ty.isInt true, opNeg), (.xiAnd h w, xiWide, opAnd),
              (.xiOr h w, xiWide, opOr), (.xiXor h w, xiWide, opXor), (.xiAndn h w, xiWide, opAndn), (.xiOrn h w, xiWide, opOrn),
              (.xiNot h w, xi1 Ty.isWideInt, opNot), (.xiShl h w, xi2 false, opShl), (.xiShr h w, xi2 false, opShr),
              (.xiSar h w, xi2 false, opSar), (.xiRol h w, xi2 false, opRol), (.xiShf h w, xi3 Ty.isWideInt false w.ty, opShf),
              (.xiClz h w, xi1 Ty.isInt, opClz), (.xiCtz h w, xi1 Ty.isInt, opCtz), (.xiPopc h w, xi1 Ty.isInt, opPopc),
              (.xiBrev h w, xi1 Ty.isInt, opBrev), (.xiBfx h w, xiWide, opBfx), (.xiBfi h w, xi3 Ty.isWideInt false w.ty, opBfi),
              (.xiBperm h w, xi3 Ty.isWideInt false w.ty, opBperm), (.xiMov h w, movRule, opMov)] : List (Instr × ArithRule × IntOp)),
        Issues s g p.1 (Head.info h (arithRegs p.2.1 h w ++ guardRegs h)) →
          computes p.1 g s (fun x => unitsOf x h.gp h.gn w.dk) (fun x u =>
            let v := p.2.2 w.ty w.sat (Arith.opA h w w.ty x u) (Arith.opB h w w.ty x u) (Arith.opC h w w.ty x u)
            (resultWrites w.ty w.dk u h.d.toNat v.1, v.2))) ∧
  (∀ (s : State) (g : GangRef) (h : Head) (w : Arith),
      let units := fun (x : Slice) => unitsOf x h.gp h.gn w.dk
      let a := fun (x : Slice) (u : Nat) => Arith.opA h w w.ty x u
      let b := fun (x : Slice) (u : Nat) => Arith.opB h w w.ty x u
      let n := tyWidth w.ty
      (Issues s g (.xiAddc h w) (Head.info h (arithRegs carryRule h w ++ guardRegs h)) →
        computes (.xiAddc h w) g s units (fun x u =>
          let sum := a x u % 2 ^ n + b x u % 2 ^ n + Arith.opC h w .z32 x u % 2
          (resultWrites w.ty w.dk u h.d.toNat (sum % 2 ^ n) ++ writesFrom w.kc u h.c.toNat [if sum < 2 ^ n then 0 else 1], 0))) ∧
      (Issues s g (.xiSubb h w) (Head.info h (arithRegs carryRule h w ++ guardRegs h)) →
        computes (.xiSubb h w) g s units (fun x u =>
          let take := b x u % 2 ^ n + Arith.opC h w .z32 x u % 2
          (resultWrites w.ty w.dk u h.d.toNat ((a x u % 2 ^ n + 2 * 2 ^ n - take) % 2 ^ n)
            ++ writesFrom w.kc u h.c.toNat [if a x u % 2 ^ n < take then 1 else 0], 0))) ∧
      (Issues s g (.xiSel h w) (Head.info h (arithRegs selRule h w ++ guardRegs h)) →
        computes (.xiSel h w) g s units (fun x u => (resultWrites w.ty w.dk u h.d.toNat (if x.getP h.c.toNat u then a x u else b x u), 0))) ∧
      (Issues s g (.xiIset h w) (Head.info h (arithRegs isetRule h w ++ guardRegs h)) →
        computes (.xiIset h w) g s units (fun x u =>
          ([{ reg := if w.dk then .s h.d.toNat else .p h.d.toNat, lane := u, val := if intCompare w.ty h.c.toNat (a x u) (b x u) then 1 else 0 }], 0))) ∧
      (Issues s g (.xiLea h w) (Head.info h (arithRegs leaRule h w ++ guardRegs h)) →
        computes (.xiLea h w) g s units (fun x u =>
          (resultWrites .i64 w.dk u h.d.toNat (((Arith.opA h w .i64 x u : Int) + intVal w.ty (b x u) * 2 ^ h.c.toNat) % 2 ^ 64).toNat, 0))))

/-- R153, R154: what the integer operations give on a 32-bit type: wrapping sums, differences and products, signed or unsigned
minimum and maximum, the bitwise operations, shifts by an unsigned count; with SAT a sum is clamped to the type's range, with
SX where that changes it. R46, R67: an arithmetic instruction with a NaN operand gives the format's canonical NaN, and raises NV if an operand is a
signalling NaN; infinity minus infinity is invalid; the sum of two finite values is exact before it is rounded once. -/
def Obligations.ArithmeticValues : Prop :=
  (∀ (a b : Word),
      (∀ t ∈ [Ty.i32, .z32],
        BitVec.ofNat 32 (opAdd t false a.toNat b.toNat 0).1 = a + b ∧ BitVec.ofNat 32 (opSub t false a.toNat b.toNat 0).1 = a - b ∧
        BitVec.ofNat 32 (opMul t false a.toNat b.toNat 0).1 = a * b ∧ BitVec.ofNat 32 (opNeg t false a.toNat b.toNat 0).1 = -a ∧
        BitVec.ofNat 32 (opNot t false a.toNat b.toNat 0).1 = ~~~a ∧ BitVec.ofNat 32 (opOrn t false a.toNat b.toNat 0).1 = a ||| ~~~b ∧
        BitVec.ofNat 32 (opRol t false a.toNat b.toNat 0).1 = a.rotateLeft b.toNat ∧
        BitVec.ofNat 32 (opMulh t false a.toNat b.toNat 0).1 =
          (((if t = .i32 then a.signExtend 64 * b.signExtend 64 else a.setWidth 64 * b.setWidth 64) : Quad) >>> 32).setWidth 32 ∧
        (opAdd t false a.toNat b.toNat 0).2 = 0) ∧
      (opMin .z32 false a.toNat b.toNat 0).1 = min a.toNat b.toNat ∧ (opMax .z32 false a.toNat b.toNat 0).1 = max a.toNat b.toNat ∧
      (opMin .i32 false a.toNat b.toNat 0).1 = (if b.slt a then b else a).toNat ∧
      (opAdd .z32 true a.toNat b.toNat 0) = (min (a.toNat + b.toNat) (2 ^ 32 - 1), if a.toNat + b.toNat < 2 ^ 32 then 0 else flagSX) ∧
      ((opAdd .i32 true a.toNat b.toNat 0).2 = flagSX ↔ (a.toInt + b.toInt < -2 ^ 31 ∨ 2 ^ 31 ≤ a.toInt + b.toInt))) ∧
  (∀ f ∈ [fmtF64, fmtF32, fmtF16, fmtBf16], ∀ (m : FMode) (a b : Nat),
      let x := f.decode a
      let y := f.decode b
      let nv := if x.isSig || y.isSig then flagNV else 0
      (x.isNan || y.isNan →
        fAdd f m a b = (f.nanCode, nv) ∧ fSub f m a b = (f.nanCode, nv) ∧ fMul f m a b = (f.nanCode, nv)) ∧
      (∀ n, x = .inf n → y = .inf !n → fAdd f m a b = (f.nanCode, flagNV)) ∧
      (∀ n, x = .inf n → y = .inf n → fAdd f m a b = (f.withSign n f.infCode, 0) ∧ fSub f m a b = (f.nanCode, flagNV)) ∧
      (∀ p q, x = .fin p → y = .fin q → m.ftz = false → fAdd f m a b = f.round m.rnd m.sat false (sumDyads m.rnd [p, q])))

/-- R158, R159, R160, R161: the extended floating instructions compute in the instruction's type with RND, SAT and FTZ as encoded and raise
their flags; FSET writes a predicate or a scalar, FCLASS a mask. -/
def Obligations.ExtFloat : Prop :=
  ∀ (s : State) (g : GangRef) (h : Head) (w : Arith),
    let units := fun (x : Slice) => unitsOf x h.gp h.gn w.dk
    let m : FMode := { rnd := w.rnd, sat := w.sat, ftz := w.ftz }
    let f := fmtOf w.ty
    (∀ p ∈ ([(.xfFadd h w, xf2 true true, fun a b _ => fAdd f m a b), (.xfFsub h w, xf2 true true, fun a b _ => fSub f m a b),
             (.xfFmul h w, xf2 true true, fun a b _ => fMul f m a b), (.xfFfma h w, ffmaRule w.ty, fFma f m),
             (.xfFmin h w, xf2 false false, fun a b _ => fMinMax false f m a b), (.xfFmax h w, xf2 false false, fun a b _ => fMinMax true f m a b),
             (.xfFrnd h w, xf1 Ty.isFloat true false, fun a _ _ => fRnd f m a), (.xfFrcp h w, xf1 isF3264 true true, fun a _ _ => fRcp f m a),
             (.xfFrsq h w, xf1 isF3264 false false, fun a _ _ => fRsq f m a), (.xfFsqrt h w, xf1 isF3264 true true, fun a _ _ => fSqrt f m a),
             (.xfFex2 h w, xf1 isF32 false false, fun a _ _ => fEx2 f m a), (.xfFlg2 h w, xf1 isF32 false false, fun a _ _ => fLg2 f m a)] :
             List (Instr × ArithRule × (Nat → Nat → Nat → Nat × FFlags))),
      Issues s g p.1 (Head.info h (arithRegs p.2.1 h w ++ guardRegs h)) →
        computes p.1 g s units (fun x u =>
          let v := p.2.2 (Arith.opA h w w.ty x u) (Arith.opB h w w.ty x u) (Arith.opC h w w.ty x u)
          (resultWrites w.ty w.dk u h.d.toNat v.1, v.2))) ∧
    (Issues s g (.xfFset h w) (Head.info h (arithRegs fsetRule h w ++ guardRegs h)) →
      computes (.xfFset h w) g s units (fun x u =>
        let v := fSet f w.ftz h.c.toNat (Arith.opA h w w.ty x u) (Arith.opB h w w.ty x u)
        ([{ reg := if w.dk then .s h.d.toNat else .p h.d.toNat, lane := u, val := if v.1 then 1 else 0 }], v.2))) ∧
    (Issues s g (.xfFclass h w) (Head.info h (arithRegs fclassRule h w ++ guardRegs h)) →
      computes (.xfFclass h w) g s units (fun x u =>
        (writesFrom w.dk u h.d.toNat [BitVec.ofNat 32 (fClass f (Arith.opA h w w.ty x u))], 0)))

/-- R162, R163: CVT reads the source type of code C and writes the destination type; DOT4 and DOT8 multiply packed elements and add them to
a 32-bit accumulator. -/
def Obligations.ConvertAndDot : Prop :=
  ∀ (s : State) (g : GangRef) (h : Head) (w : Arith),
    let units := fun (x : Slice) => unitsOf x h.gp h.gn w.dk
    let m : FMode := { rnd := w.rnd, sat := w.sat, ftz := w.ftz }
    (Issues s g (.xqCvt h w) (Head.info h (arithRegs (cvtRule h) h w ++ guardRegs h)) →
      computes (.xqCvt h w) g s units (fun x u =>
        let v := convert h.srcTy w.ty m (Arith.opA h w h.srcTy x u)
        (resultWrites w.ty w.dk u h.d.toNat v.1, v.2))) ∧
    (∀ i ∈ [Instr.xqDot4 h w, .xqDot8 h w], Issues s g i (Head.info h (arithRegs dotRule h w ++ guardRegs h)) →
      computes i g s units (fun x u =>
        let v := opDot m w.ty (Arith.opA h w .z32 x u) (Arith.opB h w .z32 x u) (Arith.opC h w .z32 x u)
        (writesFrom w.dk u h.d.toNat [BitVec.ofNat 32 v.1], v.2)))

/-! ## Control flow (04 R125 to R130, R136, R137) -/

/-- R125, R126: a base branch goes to its target where its condition holds, and to the next instruction otherwise; LOOP decrements
its scalar either way; CALL writes the return address to s62:63. The targets here are aligned. R127, R128: the extended branches act in a slice that executes and fall through elsewhere; RET, JMPR and CALLR go to the address in
a scalar pair, read before the link is written. -/
def Obligations.Branches : Prop :=
  (∀ (s : State) (g : GangRef) (o : BJ), (∀ r ∈ g.refs, (baseTarget o (s.slice r)).toNat % 4 = 0) →
      let n := o.s.toNat
      (∀ p ∈ ([(.bbrBra o, 0), (.bbrBrcNz o, 1), (.bbrBrcZ o, 2), (.bbrBrcAny o, 3), (.bbrBrcAll o, 4), (.bbrBrcNone o, 5), (.bbrBrez o, 6),
               (.bbrLoop o, 7), (.bbrCall o, 8)] : List (Instr × Nat)), o.lit = none → p.1.wellFormed = true →
        decodeWords [8 * 2 ^ 24 + p.2 * 2 ^ 20 + n * 2 ^ 14 + o.off.toNat] = .ok p.1) ∧
      decodeWords [0x08727FF0] = .ok (.bbrLoop { s := 9, off := 0x3FF0, lit := none }) ∧
      (∀ p ∈ ([(.bbrBra o, [], fun _ => True), (.bbrBrcNz o, [.s n], fun x => x.getS n ≠ 0), (.bbrBrcZ o, [.s n], fun x => x.getS n = 0),
               (.bbrBrcAny o, [.p n], someLane n), (.bbrBrcAll o, [.p n], everyLane n), (.bbrBrcNone o, [.p n], fun x => ¬ someLane n x),
               (.bbrBrez o, [], fun x => x.exec = 0)] : List (Instr × List Reg × (Slice → Prop))),
        Issues s g p.1 { regs := p.2.1, branch := true } → ∀ target : Slice → Quad,
          (∀ x, p.2.2 x → target x = baseTarget o x) → (∀ x, ¬ p.2.2 x → target x = nextPc p.1 x.pc) → jumps p.1 g s target keepS) ∧
      (Issues s g (.bbrLoop o) { regs := [.s n], branch := true } →
        jumps (.bbrLoop o) g s (fun x => if x.getS n - 1 = 0 then nextPc (.bbrLoop o) x.pc else baseTarget o x) (setS n fun x => x.getS n - 1)) ∧
      (Issues s g (.bbrCall o) { regs := [.s 62, .s 63], branch := true } →
        jumps (.bbrCall o) g s (baseTarget o) (pairS 62 fun x => nextPc (.bbrCall o) x.pc))) ∧
  (∀ (s : State) (g : GangRef),
      (∀ (h : Head) (w : Branch), (∀ r ∈ g.refs, (extTarget h w (s.slice r)).toNat % 4 = 0) →
        let on := fun (x : Slice) => x.sliceOn h.gp h.gn = true
        (Issues s g (.xcBra h w) { Head.info h (guardRegs h) with branch := true } → ∀ target : Slice → Quad,
          (∀ x, on x → target x = extTarget h w x) → (∀ x, ¬ on x → target x = nextPc (.xcBra h w) x.pc) → jumps (.xcBra h w) g s target keepS) ∧
        (Issues s g (.xcBrc h w) { Head.info h (condRegs h w ++ guardRegs h) with branch := true } → ∀ target : Slice → Quad,
          (∀ x, on x ∧ condTaken h w x = true → target x = extTarget h w x) →
          (∀ x, ¬ (on x ∧ condTaken h w x = true) → target x = nextPc (.xcBrc h w) x.pc) → jumps (.xcBrc h w) g s target keepS) ∧
        (Issues s g (.xcCall h w) { Head.info h ([.s 62, .s 63] ++ guardRegs h) with branch := true } → (∀ r ∈ g.refs, on (s.slice r)) →
          jumps (.xcCall h w) g s (extTarget h w) (pairS 62 fun x => nextPc (.xcCall h w) x.pc))) ∧
      (∀ o : BS,
        let n := o.a.toNat
        (Issues s g (.bctRet o) { regs := [.s 62, .s 63], branch := true } → (∀ r ∈ g.refs, (pairAt 62 (s.slice r)).toNat % 4 = 0) →
          jumps (.bctRet o) g s (pairAt 62) keepS) ∧
        (Issues s g (.bctJmpr o) { regs := [.s n, .s (n + 1)], branch := true } → (∀ r ∈ g.refs, (pairAt n (s.slice r)).toNat % 4 = 0) →
          jumps (.bctJmpr o) g s (pairAt n) keepS) ∧
        (Issues s g (.bctCallr o) { regs := [.s n, .s (n + 1), .s 62, .s 63], branch := true } →
          (∀ r ∈ g.refs, (pairAt n (s.slice r)).toNat % 4 = 0) →
          jumps (.bctCallr o) g s (pairAt n) (pairS 62 fun x => nextPc (.bctCallr o) x.pc))))

/-- R128, R130, R136: NOP and a WAITK whose tokens are clear change nothing but the PC; EXSAVE, EXELSE, EXREST, EXSET and EXGET move EXEC. -/
def Obligations.ExecMask : Prop :=
  ∀ (s : State) (g : GangRef) (o : BS),
    let d := o.d.toNat
    let a := o.a.toNat
    (Issues s g (.bctNop o) {} → masks (.bctNop o) g s (·.exec) keepS) ∧
    (Issues s g (.bctWaitk o) { wk := BitVec.ofNat 8 (a % 4 * 64 + o.b.toNat) } → masks (.bctWaitk o) g s (·.exec) keepS) ∧
    (Issues s g (.bctExsave o) { regs := [.s d, .p o.b.toNat] } →
      masks (.bctExsave o) g s (fun x => x.exec &&& predMask o.b.toNat x) (setS d fun x => x.exec.setWidth 32)) ∧
    (Issues s g (.bctExelse o) { regs := [.s a] } → masks (.bctExelse o) g s (fun x => (x.getS a).setWidth 4 &&& ~~~x.exec) keepS) ∧
    (∀ i ∈ [Instr.bctExrest o, .bctExset o], Issues s g i { regs := [.s a] } → masks i g s (fun x => (x.getS a).setWidth 4) keepS) ∧
    (Issues s g (.bctExget o) { regs := [.s d] } → masks (.bctExget o) g s (·.exec) (setS d fun x => x.exec.setWidth 32))

/-- R90, R136, R137: GMASK, GWIDTH, SRD and CSRR read a special register into a scalar; a read of FFLAGS waits for what is pending. R88, R90, R140: what the special registers hold: FFLAGS, EXEC, the slice and bent numbers, the team's coordinates, the trap state. -/
def Obligations.SpecialReads : Prop :=
  (∀ (s : State) (g : GangRef), (∀ r ∈ g.refs, flagsDue s r = false) →
      let all := fun (_ : Slice) => true
      (∀ o : BS,
        (Issues s g (.bctGmask o) { regs := [.s o.d.toNat] } →
          reads (.bctGmask o) g s all o.d.toNat fun s r => (if (s.slice r).tmode then 1#8 <<< r.sl else refsMask g.refs).setWidth 32) ∧
        (Issues s g (.bctGwidth o) { regs := [.s o.d.toNat] } → reads (.bctGwidth o) g s all o.d.toNat fun s r => readSr s g.refs r 3) ∧
        (Issues s g (.bctSrd o) { regs := [.s o.d.toNat], waitFlags := o.a.toNat * 64 + o.b.toNat == 0 } →
          reads (.bctSrd o) g s all o.d.toNat fun s r => readSr s g.refs r (o.a.toNat * 64 + o.b.toNat))) ∧
      (∀ (h : Head) (w : Command), Issues s g (.xzCsrr h w) { Head.info h ([.s h.d.toNat] ++ guardRegs h) with waitFlags := w.imm == 0 } →
        reads (.xzCsrr h w) g s (fun x => x.sliceOn h.gp h.gn) h.d.toNat fun s r => readSr s g.refs r w.imm.toNat)) ∧
  (∀ (s : State) (rs : List SliceRef) (r : SliceRef),
      let x := s.slice r
      let t := s.team r.tid
      readSr s rs r 0 = x.fflags.setWidth 32 ∧ readSr s rs r 1 = x.exec.setWidth 32 ∧ readSr s rs r 4 = x.tokens.setWidth 32 ∧
      readSr s rs r 5 = BitVec.ofNat 32 r.sl ∧ readSr s rs r 6 = BitVec.ofNat 32 r.bent ∧ readSr s rs r 9 = BitVec.ofNat 32 t.x ∧
      readSr s rs r 0xA = BitVec.ofNat 32 t.y ∧ readSr s rs r 0xB = BitVec.ofNat 32 t.z ∧ readSr s rs r 0x14 = (if x.tmode then 1 else 0) ∧
      readSr s rs r 0x22 ++ readSr s rs r 0x21 = x.trap.tpc ∧ readSr s rs r 0x24 ++ readSr s rs r 0x23 = x.trap.tfpc ∧
      readSr s rs r 0x26 ++ readSr s rs r 0x25 = x.trap.taddr ∧ readSr s rs r 0x27 = x.trap.texec.setWidth 32 ∧
      readSr s rs r 0x2A = x.trap.tscr ∧ (∀ n < 16, readSr s rs r (0x100 + n) = smGet 0 n t.pmsel))

/-! ## Special registers, EXIT, YIELD, REGANG, traps (04 R114, R119, R129, R136 to R143) -/

/-- R137, R140: CSRW writes a special register: FFLAGS bits that are 1 in the value are cleared, TPC, TEXEC and TSCR take it, PMSEL
its low byte; a slice that does not execute writes nothing. -/
def Obligations.SpecialWrites : Prop :=
  ∀ (s : State) (g : GangRef) (h : Head) (w : Command), Issues s g (.xzCsrw h w) (Head.info h ([.s h.a.toNat] ++ guardRegs h)) →
    ∃ t, exec (.xzCsrw h w) s = .next t ∧ System s t ∧ popped s t ∧ t.mem = { s.mem with l1 := t.mem.l1 } ∧
      (∀ q, valid q → q ∉ g.refs → t.slice q = s.slice q) ∧
      (∀ r ∈ g.refs,
        let x := s.slice r
        let y := t.slice r
        let a := x.getS h.a.toNat
        let on := x.sliceOn h.gp h.gn = true
        y.v = x.v ∧ y.s = x.s ∧ y.preds = x.preds ∧ y.exec = x.exec ∧ y.tmode = x.tmode ∧ y.pc = nextPc (.xzCsrw h w) x.pc ∧
        y.fflags = (if on ∧ w.imm = 0 then x.fflags &&& ~~~(a.setWidth 6) else x.fflags) ∧
        y.trap.tpc = (if on ∧ w.imm = 0x21 then (x.trap.tpc >>> 32).setWidth 32 ++ a
                      else if on ∧ w.imm = 0x22 then a ++ x.trap.tpc.setWidth 32 else x.trap.tpc) ∧
        y.trap.texec = (if on ∧ w.imm = 0x27 then a.setWidth 4 else x.trap.texec) ∧
        y.trap.tscr = (if on ∧ w.imm = 0x2A then a else x.trap.tscr) ∧
        { y.trap with tpc := x.trap.tpc, texec := x.trap.texec, tscr := x.trap.tscr } = x.trap) ∧
      (∀ n < 16, ∀ r, g.refs = [r] → smGet 0 n (t.team r.tid).pmsel =
        if (s.slice r).sliceOn h.gp h.gn = true ∧ w.imm.toNat = 0x100 + n then (s.slice r).getS h.a.toNat &&& 0xFF
        else smGet 0 n (s.team r.tid).pmsel)

/-- R137: GETT reads device time in nanoseconds, or with FLG bit 0 the issue clocks of the compute die, into a scalar pair; PMRD's
counter lands in a pending pair. -/
def Obligations.TimeAndCounters : Prop :=
  ∀ (s : State) (g : GangRef) (h : Head) (w : Command),
    let d := h.d.toNat
    let time := fun (r : SliceRef) => BitVec.ofNat 64 (if w.flg.getLsbD 0 then smGet 0 (dieOfCluster (s.clusterOf r)) s.clk.die else s.ns)
    (Issues s g (.xzGett h w) (Head.info h (regGroup true 2 d ++ guardRegs h)) →
      ∃ t, exec (.xzGett h w) s = .next t ∧ RegistersOnly g s t ∧ ∀ r ∈ g.refs,
        let x := s.slice r
        (∀ n, (t.slice r).getS n = if x.sliceOn h.gp h.gn = true then pairS d (fun _ => time r) x n else x.getS n) ∧
        (t.slice r).v = x.v ∧ (t.slice r).preds = x.preds ∧ (t.slice r).fflags = x.fflags ∧ Control x (t.slice r) ∧
        (t.slice r).pc = nextPc (.xzGett h w) x.pc) ∧
    (Issues s g (.xzPmrd h w) (Head.info h (regGroup true 2 d ++ guardRegs h)) →
      defers (.xzPmrd h w) g s h.la.toNat (regGroup true 2 d) (fun r =>
        let v := smGet 0 w.imm.toNat (s.team r.tid).counters
        (if (s.slice r).sliceOn h.gp h.gn then writesFrom true 0 d [v.setWidth 32, (v >>> 32).setWidth 32] else [], 0)) none false)

/-- R161, R93: FSIN, FCOS and FTANH are class L: their results are computed from the registers as they were and are pending. -/
def Obligations.LongFloat : Prop :=
  ∀ (s : State) (g : GangRef) (h : Head) (w : Arith),
    ∀ p ∈ ([(.xfFsin h w, fSin), (.xfFcos h w, fCos), (.xfFtanh h w, fTanh)] : List (Instr × (Fmt → FMode → Nat → Nat × FFlags))),
      Issues s g p.1 (Head.info h (arithRegs (xf1 isF32 false false) h w ++ guardRegs h)) →
        defers p.1 g s h.la.toNat (regGroup w.dk 1 h.d.toNat) (fun r =>
          let x := s.slice r
          longResult (unitsOf x h.gp h.gn w.dk) fun u =>
            let v := p.2 (fmtOf w.ty) { rnd := w.rnd, sat := w.sat, ftz := w.ftz } (Arith.opA h w w.ty x u)
            (resultWrites w.ty w.dk u h.d.toNat v.1, v.2)) none false

/-- R129, R114, R119: EXIT ends a slice, at once where nothing of it is pending; its gang is gone. REGANG leaves its slices waiting at
the instruction. YIELD goes on, and holds the gang for 32 issue clocks if another gang of the partition is ready. -/
def Obligations.ExitRegangYield : Prop :=
  ∀ (s : State) (g : GangRef) (o : BS),
    (Issues s g (.bctExit o) {} → ∃ t, exec (.bctExit o) s = .next t ∧ RegistersOnly g s t ∧
      (∀ r ∈ g.refs, Kept { s.slice r with exited := (s.slice r).pend.isEmpty || (s.slice r).exited } (t.slice r) ∧ (t.slice r).exiting = true ∧
        (t.slice r).pend = stillPending s.mem.nextOp (s.slice r) ∧ (t.slice r).pc = (s.slice r).pc) ∧
      t.gangsOf g.tid g.bent = (s.gangsOf g.tid g.bent).filter fun x => x.mask != g.mask) ∧
    (Issues s g (.bctRegang o) { bentScope := true } → ∃ t, exec (.bctRegang o) s = .next t ∧ RegistersOnly g s t ∧ ∀ r ∈ g.refs,
      Kept (s.slice r) (t.slice r) ∧ (t.slice r).wait = .regang true ∧ (t.slice r).pend = (s.slice r).pend ∧ (t.slice r).pc = (s.slice r).pc) ∧
    (Issues s g (.bctYield o) {} →
      let ready := (setWaits s.popIssue .none g.refs).candsOf Wait.isNone (s.partClock s.iss.part) (s.bentsOf s.iss.part)
      let others := ready.filter fun c => !(g.refs.any fun r => r.tid == c.ref.tid && r.bent == c.ref.bent && c.ref.mask.getLsbD r.sl)
      ∃ t, exec (.bctYield o) s = .next t ∧ RegistersOnly g s t ∧ ∀ r ∈ g.refs,
        Kept (s.slice r) (t.slice r) ∧ (t.slice r).pc = nextPc (.bctYield o) (s.slice r).pc ∧
        (t.slice r).wait = if others = [] then .none else .hold (s.partClock s.iss.part + 32))

/-- R139, R140, R141, R143: TRAP and BRKPT take a trap: the trap state is written, the slice is in trap mode at the handler, and its
registers are as they were; TPC is the next instruction after TRAP and BRKPT itself. RFT restores EXEC and the PC, leaves trap
mode and closes every lookahead window (03 R95); outside trap mode it takes ILL. R141: a fault in trap mode, or where the team has no handler, is fatal: the slice stops at its place and its team is to be
killed. R125, R128: a return, a jump or an indirect call whose target is not a multiple of 4 takes ALIGN with the target in TADDR. -/
def Obligations.TrapsAndReturn : Prop :=
  (∀ (s : State) (g : GangRef) (r : SliceRef) (o : BS),
      let x := s.slice r
      (∀ p ∈ ([(.bctTrap o, faultAll 13 o.b.toNat, nextPc (.bctTrap o) x.pc), (.bctBrkpt o, faultAll 14 o.b.toNat, x.pc),
               (.bctRft o, faultAll 1, x.pc)] : List (Instr × FaultInfo × Quad)),
        Issues s g p.1 {} → Alone s g r → ∃ t, exec p.1 s = .next t ∧ RegistersOnly g s t ∧ Trapped s t r p.2.1 p.2.2 x.pc (instrWord p.1)) ∧
      (Issues s g (.bctRft o) {} → g.refs = [r] → x.tmode = true → x.trap.tpc.toNat % 4 = 0 →
        ∃ t, exec (.bctRft o) s = .next t ∧ RegistersOnly g s t ∧ (t.slice r).pc = x.trap.tpc ∧ (t.slice r).exec = x.trap.texec ∧
          (t.slice r).tmode = false ∧ (t.slice r).trap = x.trap ∧ (t.slice r).v = x.v ∧ (t.slice r).s = x.s ∧ (t.slice r).preds = x.preds ∧
          (t.slice r).fflags = x.fflags ∧ (t.slice r).pend.map (·.regs) = x.pend.map (·.regs) ∧ ∀ p ∈ (t.slice r).pend, p.window = 0)) ∧
  (∀ (s : State) (g : GangRef) (r : SliceRef) (o : BS), Issues s g (.bctTrap o) {} → g.refs = [r] → (s.slice r).pend = [] →
      (s.ccb (s.team r.tid).hp (s.team r.tid).ctx).tlogon = false → (s.team r.tid).stopped = false →
      (s.slice r).moveTo = none → s.iss.fused = false → s.mem.blocked = false →
      ((s.slice r).tmode = true ∨ (s.team r.tid).desc.handler = 0xFFFFFFFF) →
        ∃ t, exec (.bctTrap o) s = .next t ∧ (t.slice r).stopped = true ∧ (t.slice r).pc = (s.slice r).pc ∧ (t.slice r).tmode = true ∧
          (t.slice r).trap.cause = 13 ∧ (t.team r.tid).stopped = true ∧ (t.team r.tid).killed = some 13 ∧
          (∀ q, valid q → q ∉ g.refs → t.slice q = s.slice q) ∧ System s t) ∧
  (∀ (s : State) (g : GangRef) (r : SliceRef), Alone s g r →
      let x := s.slice r
      ∀ o : BS,
        let n := o.a.toNat
        ∀ p ∈ ([(.bctRet o, 62, [.s 62, .s 63]), (.bctJmpr o, n, [.s n, .s (n + 1)]), (.bctCallr o, n, [.s n, .s (n + 1), .s 62, .s 63])] :
            List (Instr × Nat × List Reg)),
          Issues s g p.1 { regs := p.2.2, branch := true } → (pairAt p.2.1 x).toNat % 4 ≠ 0 →
            ∃ t, exec p.1 s = .next t ∧ RegistersOnly g s t ∧ Trapped s t r (faultAll 4 0 (pairAt p.2.1 x)) x.pc x.pc (instrWord p.1))

/-- R98, 03 R94, R96: what keeps an instruction from issuing: an ill-formed instruction or one past the vector budget takes ILL; one that
names a pending destination takes LOOKAHEAD while its window is open, and stalls once it is not; an outstanding token named by WK
stalls. A stalled slice keeps its place and its registers, and one released from its implicit REGANG stays so (04 R115). -/
def Obligations.IssueChecks : Prop :=
  ∀ (s : State) (r : SliceRef) (i : Instr) (info : Info),
    let x := s.slice r
    (i.wellFormed = false → precheck i info s r = .fault (faultAll 1)) ∧
    (i.wellFormed = true →
      (∀ n, .v n ∈ info.regs → (s.team r.tid).budget r.bent ≤ n → precheck i info s r = .fault (faultAll 1)) ∧
      ((∀ q ∈ info.regs, overBudget ((s.team r.tid).budget r.bent) q = false) →
        (info.bentScope = true → x.tmode = true → precheck i info s r = .fault (faultAll 15)) ∧
        ((info.bentScope = true → x.tmode = false) →
          (x.tokens &&& tokenMask info ≠ 0 → precheck i info s r = .stall (.token (tokenMask info))) ∧
          (x.tokens &&& tokenMask info = 0 →
            (∀ p ∈ x.pend, ∀ q ∈ p.regs, q ∈ info.regs → 0 < p.window → precheck i info s r = .fault (faultAll 10)) ∧
            ((∀ p ∈ x.pend, p.window = 0) → (∃ p ∈ x.pend, ∃ q ∈ p.regs, q ∈ info.regs) → precheck i info s r = .stall .pending) ∧
            (x.pend = [] → precheck i info s r = .go))))) ∧
    (∀ (g : GangRef) (f : State → List SliceRef → Attempt) (w : Wait), s.iss.now.head? = some g → g.bent < 64 → g.refs = [r] →
      precheck i info s.popIssue r = .stall w → ∃ t, issueGang i info f s = .next t ∧
        t.slice r = (if (s.slice r).wait = .released then s.slice r else { s.slice r with wait := w }) ∧ t.iss.stalled = some w ∧
        (∀ q, valid q → q ≠ r → t.slice q = s.slice q) ∧ t.gangs = s.gangs ∧ t.teams = s.teams ∧ t.mem = s.mem)

/-! ## Lanes of a gang and of a bent (04 R131 to R135; 05 R164, R165; 10 R338) -/

/-- R133, R134: the cross-lane instructions act over the present lanes of each slice, of the gang, or of the slices that a REGANG
released together: SHFL reads another lane's register, VOTE evaluates a predicate, MATCH compares values; GRED and GSCAN combine in
the order the rules give. Each reads registers as they were. -/
def Obligations.CrossLane : Prop :=
  ∀ (s : State) (g : GangRef) (h : Head) (w : Cross), (w.ls = 2 → ∀ r ∈ g.refs, (s.slice r).wait = .released) →
    let info := fun (regs : List Reg) => { Head.info h (regs ++ guardRegs h) with bentScope := w.ls == 2 }
    let group := fun (r : SliceRef) => if w.ls = 0 then [r] else g.refs
    let lanes := fun (r : SliceRef) => lanesOf s h w.ls (group r)
    let a := fun (l : Lane) => (s.slice l.r).value w.ty false h.a.toNat l.j
    let crossing := fun (i : Instr) (ws : SliceRef → List RegWrite) (fl : SliceRef → FFlags) =>
      ∃ t, exec i s = .next t ∧ RegistersOnly g s t ∧ ∀ r ∈ g.refs, Wrote (ws r) (s.slice r) (t.slice r) ∧
        (t.slice r).fflags = (s.slice r).fflags ||| fl r ∧ Control (s.slice r) (t.slice r) ∧ (t.slice r).pc = nextPc i (s.slice r).pc
    let each := fun (r : SliceRef) (f : Lane → List RegWrite) => ((lanes r).filter fun l => l.r == r).flatMap f
    (Issues s g (.xlShfl h w) (info (regGroup false w.ty.regs h.d.toNat ++ regGroup false w.ty.regs h.a.toNat ++ (if w.bi then [] else [.v h.b.toNat])
        ++ (if w.fl then regGroup false w.ty.regs h.c.toNat else []))) →
      crossing (.xlShfl h w) (fun r => each r fun l =>
        let b := if w.bi then (if h.lit.isSome then litBits h.lit % 2 ^ 32 else w.imm.toNat) else ((s.slice l.r).getV h.b.toNat l.j).toNat
        let v := match (lanes r).find? fun m => (m.q : Int) == shflSource w.sub.toNat l.q b with
          | some m => a m
          | none => if w.fl then (s.slice l.r).value w.ty false h.c.toNat l.j else 0
        writesFrom false l.j h.d.toNat (if w.ty.regs = 2 then [BitVec.ofNat 32 v, BitVec.ofNat 32 (v / 2 ^ 32)] else [BitVec.ofNat 32 v])) (fun _ => 0)) ∧
    (Issues s g (.xlVote h w) (info [if w.sub = 3 then .s h.d.toNat else .p h.d.toNat, .p w.ps.toNat]) →
      crossing (.xlVote h w) (fun r =>
        let set := (lanes r).filter fun l => (s.slice l.r).getP w.ps.toNat l.j
        let one := fun (b : Bool) => each r fun l => [{ reg := .p h.d.toNat, lane := l.j, val := if b then 1 else 0 }]
        if w.sub = 3 then [{ reg := .s h.d.toNat, lane := 0, val := BitVec.ofNat 32 (posMask set) }]
        else if w.sub = 0 then one (!set.isEmpty) else if w.sub = 1 then one (set.length == (lanes r).length) else one set.isEmpty) (fun _ => 0)) ∧
    (Issues s g (.xlGred h w) (info (crossRegs h w)) →
      crossing (.xlGred h w)
        (fun r => each r fun l => match (treeReduce w.sub.toNat w.ty w.rnd 5 (scopeValues s h w (lanes r))).1 with
          | some v => resultWrites w.ty false l.j h.d.toNat v
          | none => [])
        (fun r => (treeReduce w.sub.toNat w.ty w.rnd 5 (scopeValues s h w (lanes r))).2)) ∧
    (Issues s g (.xlGscan h w) (info (crossRegs h w)) →
      let scan := fun (r : SliceRef) =>
        scanValues (w.sub.toNat % 8) w.ty w.rnd (w.sub.getLsbD 3) none ((sortLanes (scopeSize w.ls) (lanes r)).map fun l => (l, a l))
      crossing (.xlGscan h w) (fun r => ((scan r).1.filter fun p => p.1.r == r).flatMap fun p => resultWrites w.ty false p.1.j h.d.toNat p.2)
        (fun r => (scan r).2)) ∧
    (Issues s g (.xlMatch h w) (info (crossRegs h w ++ (if w.sub = 1 then [.p w.ps.toNat] else []))) →
      crossing (.xlMatch h w) (fun r =>
        let same := (lanes r).all fun l => a l == ((lanes r).head?.map a).getD 0
        each r fun l =>
          if w.sub = 0 then resultWrites w.ty false l.j h.d.toNat (posMask ((lanes r).filter fun m => a m == a l))
          else resultWrites w.ty false l.j h.d.toNat (if same then posMask (lanes r) else 0) ++
                [{ reg := .p w.ps.toNat, lane := l.j, val := if same then 1 else 0 }]) (fun _ => 0))

/-- R115, R164, R165, 10 R338: QNTZ, DQNT and MMA, issued by the slices that a REGANG released together, are class L: each lane's results
are pending; a malformed segment is a completion fault MATRIX. -/
def Obligations.BentArithmetic : Prop :=
  ∀ (s : State) (g : GangRef) (h : Head), (∀ r ∈ g.refs, (s.slice r).wait = .released) →
    let present := presentLanes s h.gp h.gn g.refs
    let d := h.d.toNat
    let a := h.a.toNat
    let mine := fun (r : SliceRef) => present.filter fun p => p.1 == r
    (∀ w : Arith, Issues s g (.xqQntz h w) { Head.info h (regGroup false 2 d ++ regGroup false 8 a ++ (if w.bi then [] else [.s h.b.toNat]) ++ guardRegs h) with bentScope := true } →
      let q := quantise (qntzInputs s present (fmtOf h.srcTy) a) (qntzThr s h w g.refs)
      defers (.xqQntz h w) g s h.la.toNat (regGroup false 2 d) (fun r =>
        ((mine r).flatMap fun p => writesFrom false p.2 d [segWord q.1 (4 * bentPos p.1 p.2),
          if bentPos p.1 p.2 < 8 then segWord q.1 (128 + 4 * bentPos p.1 p.2) else 0], q.2)) none true) ∧
    (∀ w : Arith, Issues s g (.xqDqnt h w) { Head.info h (regGroup false 8 d ++ regGroup false 2 a ++ guardRegs h) with bentScope := true } →
      let seg := dqntSegment s present a
      let geom := h.c.toNat % 4
      let bad := geom == 3 && svbMalformed seg
      let lane := fun (p : SliceRef × Nat) => dqntLane geom seg w.ty { rnd := w.rnd, sat := w.sat, ftz := w.ftz } d p.2 (bentPos p.1 p.2) 8
      defers (.xqDqnt h w) g s h.la.toNat (regGroup false 8 d) (fun r =>
        ((mine r).flatMap fun p => (lane p).1, if bad then 0 else orFlags ((mine r).map fun p => (lane p).2)))
        (if bad then some (faultAll 11 4) else none) true) ∧
    (∀ w : Command, Issues s g (.xxMma h w) { Head.info h (regGroup false 8 d ++ regGroup false 4 a ++ regGroup false 4 h.b.toNat ++ guardRegs h) with bentScope := true } →
      defers (.xxMma h w) g s h.la.toNat (regGroup false 8 d) (fun r =>
        ((mine r).flatMap fun p => writesFrom false p.2 d ((List.range 8).map fun k =>
          BitVec.ofNat 32 (mmaOut s present w.ta w.tb d a h.b.toNat (k + 8 * (bentPos p.1 p.2 / 16)) (bentPos p.1 p.2 % 16))), 0)) none true)

/-! ## Memory (06 R192 to R202, 07 R213 to R219) -/

/-- R194, R192, R184, 07 R213, R256: a load whose translations are in use binds its values when it issues: what the cluster's write buffer,
its L1 (unless the hint or an acquire passes it by) and memory hold; its destination is pending, and one operation is recorded. Of an
MSA line that no cache holds, and of host memory, the value is left to their unit (R203, R191). Nothing is stored. R196: LDC loads once per slice into scalar registers. R194, 02 R57, R63 to R66: a load with DEC reads each lane's element in the page's format, here where it lies in one page, and converts it
to the instruction's type, to nearest even; a malformed segment is a completion fault MATRIX. Of an MSA line that no cache holds, and
of host memory, the value is left to their unit. -/
def Obligations.Loads : Prop :=
  (∀ (s : State) (g : GangRef) (r : SliceRef) (h : Head) (w : Mem) (ent : Nat → TlbEntry), w.dec = false →
      let b := acting s r h.wk
      let x := b.slice r
      let n := tyBytes w.ty
      let lanes := x.lanesOn h.gp h.gn
      let va := fun j => x.memAddr h w.off j
      let acq := w.ord == .acq
      let away := lanes.any fun j => atUnit b (ent j) (va j) || atHost b r (ent j) (va j)
      let room := decide ((b.l1 (b.clusterOf r)).sectors.length + lanes.length ≤ b.l1Lines (b.clusterOf r))
      let regs := regGroup false w.ty.regs h.d.toNat
      Lone s g r (.xmLd h w) (memInfo h (regs ++ pairRegs h)) → lanes ≠ [] →
      (∀ j ∈ lanes, va j % n = 0 ∧ Hit b r .read (va j) (ent j) ∧ b.poisoned (physical (ent j) (va j)) n = false ∧
        (acq = true → ∀ c ∈ (b.line (lineOf (physical (ent j) (va j)))).narrow, c.2 = r.tid)) →
      ∃ t o, ∃ bs : Nat → List Byte, exec (.xmLd h w) s = .next t ∧ Onward g r s t (nextPc (.xmLd h w) x.pc) ∧ Calm s t ∧ (t.slice r).tokens = x.tokens ∧
        (∀ j ∈ lanes, Loaded b (b.clusterOf r) (ent j).keyid (w.hint == 3 || acq) room (physical (ent j) (va j)) n (bs j)) ∧
        gains (.xmLd h w) s.mem.nextOp (s.slice r) (t.slice r) h.la.toNat regs
          (if away then none else some (lanes.flatMap fun j => resultWrites w.ty false j h.d.toNat (natOfBytes (bs j)))) 0 none ∧
        Records t r (if acq then .a else .l) w.scope (.load w.ty false h.d.toNat) (lanes.map fun j => laneElem (ent j) (va j) n [] [] j) (!away) o) ∧
  (∀ (s : State) (g : GangRef) (r : SliceRef) (h : Head) (w : Mem) (e : TlbEntry),
      let b := acting s r h.wk
      let x := b.slice r
      let n := tyBytes w.ty
      let va := x.memAddr h w.off 0
      let pa := physical e va
      let regs := regGroup true w.ty.regs h.d.toNat
      let away := atUnit b e va || atHost b r e va
      let room := decide ((b.l1 (b.clusterOf r)).sectors.length + 1 ≤ b.l1Lines (b.clusterOf r))
      Lone s g r (.xmLdc h w) (memInfo h (regs ++ pairRegs h)) → x.sliceOn h.gp h.gn = true → va % n = 0 → Hit b r .read va e →
      b.poisoned pa n = false →
      ∃ t o bs, exec (.xmLdc h w) s = .next t ∧ Onward g r s t (nextPc (.xmLdc h w) x.pc) ∧ Calm s t ∧ (t.slice r).tokens = x.tokens ∧
        Loaded b (b.clusterOf r) e.keyid false room pa n bs ∧
        gains (.xmLdc h w) s.mem.nextOp (s.slice r) (t.slice r) h.la.toNat regs
          (if away then none else some (resultWrites w.ty true 0 h.d.toNat (natOfBytes bs))) 0 none ∧
        Records t r .l w.scope (.load w.ty true h.d.toNat) [laneElem e va n [] [] 0] (!away) o) ∧
  (∀ (s : State) (g : GangRef) (r : SliceRef) (h : Head) (w : Mem) (ent part : Nat → TlbEntry) (at_ len : Nat → Nat), w.dec = true →
      let b := acting s r h.wk
      let x := b.slice r
      let lanes := x.lanesOn h.gp h.gn
      let va := fun j => x.memAddr h w.off j
      let idx := fun j => (x.getV h.b.toNat j).toNat % 256
      let acq := w.ord == .acq
      let away := lanes.any fun j => atUnit b (part j) (at_ j) || atHost b r (part j) (at_ j)
      let room := decide ((b.l1 (b.clusterOf r)).sectors.length + 6 * lanes.length ≤ b.l1Lines (b.clusterOf r))
      let regs := regGroup false w.ty.regs h.d.toNat
      Lone s g r (.xmLd h w) (memInfo h (regs ++ pairRegs h ++ [.v h.b.toNat])) → lanes ≠ [] →
      (∀ j ∈ lanes, Hit b r .read (va j) (ent j) ∧ va j % decAlign (ent j) w.ty = 0 ∧ decPieces (ent j) w.ty (va j) (idx j) = [(at_ j, len j)] ∧
        Hit b r .read (at_ j) (part j) ∧ ((ent j).geom ≠ 0 → (part j).fmt = (ent j).fmt ∧ (part j).geom = (ent j).geom) ∧
        b.poisoned (physical (part j) (at_ j)) (len j) = false ∧
        (acq = true → ∀ c ∈ (b.line (lineOf (physical (part j) (at_ j)))).narrow, c.2 = r.tid)) →
      ∃ t o, ∃ bs : Nat → List Byte, exec (.xmLd h w) s = .next t ∧ Onward g r s t (nextPc (.xmLd h w) x.pc) ∧ Calm s t ∧
        (∀ j ∈ lanes, Loaded b (b.clusterOf r) (part j).keyid (acq || w.hint == 3) room (physical (part j) (at_ j)) (len j) (bs j)) ∧
        (let value := fun j => decValue (ent j).fmt (ent j).geom w.ty (idx j) (bs j)
         let bad := lanes.filter fun j => (ent j).geom == 3 && svbMalformed (bs j)
         if away then gains (.xmLd h w) s.mem.nextOp (s.slice r) (t.slice r) h.la.toNat regs none 0 none
         else gains (.xmLd h w) s.mem.nextOp (s.slice r) (t.slice r) h.la.toNat regs
          (some (lanes.flatMap fun j => resultWrites w.ty false j h.d.toNat (value j).1)) (if bad = [] then orFlags (lanes.map fun j => (value j).2) else 0)
          (if bad = [] then none else some { cause := 11, sub := 4, lanes := (bad.map (2 ^ ·)).sum, addr := 0 })) ∧
        Records t r (if acq then .a else .l) w.scope
          (.dec w.ty h.d.toNat (lanes.map fun j => { lane := j, fmt := (ent j).fmt, geom := (ent j).geom, idx := idx j, va := va j }))
          (lanes.map fun j => laneElem (part j) (at_ j) (len j) [] [] j) (!away) o)

/-- R195, R184, 07 R215: a store records an operation with each lane's bytes. A relaxed store enters its cluster's write buffer, where the
entries keep their order; a release, and a store to an MSA line that no cache holds, wait for their own step. Memory is unchanged until then. -/
def Obligations.Stores : Prop :=
  ∀ (s : State) (g : GangRef) (r : SliceRef) (h : Head) (w : Mem) (ent : Nat → TlbEntry),
    let b := acting s r h.wk
    let x := b.slice r
    let n := tyBytes w.ty
    let lanes := x.lanesOn h.gp h.gn
    let va := fun j => x.memAddr h w.off j
    let data := fun j => storeData x w.ty h.b.toNat j
    let rel := w.ord == .rel
    let msa := lanes.any fun j => atUnit b (ent j) (va j)
    let cl := b.clusterOf r
    Lone s g r (.xmSt h w) (memInfo h (pairRegs h ++ regGroup false w.ty.regs h.b.toNat)) → lanes ≠ [] →
    (∀ j ∈ lanes, va j % n = 0 ∧ Hit b r .write (va j) (ent j)) →
    (if rel then bitOf (b.check (b.team r.tid).hp).ordinj.toNat 0 = false else msa = true ∨ bufferedSectors (b.l1 cl).wbuf + lanes.length ≤ 64) →
    ∃ t o, exec (.xmSt h w) s = .next t ∧ Onward g r s t (nextPc (.xmSt h w) x.pc) ∧ Calm s t ∧ (t.slice r).tokens = x.tokens ∧
      (t.slice r).pend = stillPending s.mem.nextOp (s.slice r) ∧
      Records t r (if rel then .r else .s) w.scope .store (lanes.map fun j => laneElem (ent j) (va j) n (data j) [] j) false o ∧
      (t.l1 cl).wbuf = (b.l1 cl).wbuf ++ (if rel || msa then [] else lanes.map fun j =>
        { op := o.id, pa := physical (ent j) (va j), key := (ent j).keyid, data := data j, heldBy := none })

/-- R196, R197: PRF changes no register and no byte of memory, and with the default hint brings the line of each lane's readable page into
an L1 that has room for it; ICINV records its line, and the slice waits for the caches. -/
def Obligations.PrefetchAndInvalidate : Prop :=
  ∀ (s : State) (g : GangRef) (r : SliceRef) (h : Head) (w : Mem),
    let b := acting s r h.wk
    let x := b.slice r
    let va := fun j => x.memAddr h w.off j
    (Lone s g r (.xmPrf h w) (memInfo h (pairRegs h)) →
      ∃ t, exec (.xmPrf h w) s = .next t ∧ Onward g r s t (nextPc (.xmPrf h w) x.pc) ∧ Calm s t ∧ t.mem.ops = [] ∧
        (t.slice r).pend = stillPending s.mem.nextOp (s.slice r) ∧
        (w.hint = 0 → ∀ ent : Nat → TlbEntry, (∀ j ∈ x.lanesOn h.gp h.gn, Hit b r .probe (va j) (ent j)) →
          ∀ j ∈ x.lanesOn h.gp h.gn, (ent j).r = true → (ent j).msa = false →
            atHost b r (ent j) (va j) = false → (b.l1 (b.clusterOf r)).sectors.length + 16 ≤ b.l1Lines (b.clusterOf r) →
            ∀ k < 4, ((t.l1 (b.clusterOf r)).sector (4 * lineOf (physical (ent j) (va j)) + k)).isSome = true)) ∧
    (∀ e, Lone s g r (.xmIcinv h w) (memInfo h (pairRegs h)) → x.sliceOn h.gp h.gn = true → Hit b r .probe (va 0) e →
      ∃ t o, exec (.xmIcinv h w) s = .next t ∧ Onward g r s t (nextPc (.xmIcinv h w) x.pc) ∧ Calm s t ∧
        Records t r .none w.scope .icinv [laneElem e (va 0) 1 [] [] 0] false o ∧ (t.slice r).wait = .op o.id)

/-- R201, R199, R202: LDG and ATOM record each lane's element and leave the destination pending; SCT records each lane's bytes, of two lanes
that name one address those of the lane of highest position. ATOM and SCT take the sectors they touch out of the L1. -/
def Obligations.GatherScatterAtomic : Prop :=
  ∀ (s : State) (g : GangRef) (r : SliceRef) (h : Head) (w : Mem) (ent : Nat → TlbEntry),
    let b := acting s r h.wk
    let x := b.slice r
    let n := tyBytes w.ty
    let lanes := x.lanesOn h.gp h.gn
    let cl := b.clusterOf r
    let regs := regGroup false w.ty.regs h.d.toNat
    let at_ := fun j => gatherAddr x h w j
    let va := fun j => x.memAddr h w.off j
    let data := fun (c : BitVec 8) j => bytesOfNat n (x.value w.ty false c.toNat j)
    let dropped := fun (t : State) (a : Nat → Nat) => ∀ j ∈ lanes, (t.l1 cl).sector (sectorOf (physical (ent j) (a j))) = none
    lanes ≠ [] →
    (Lone s g r (.xmLdg h w) (memInfo h (regs ++ pairRegs h ++ [.v h.b.toNat])) → (∀ j ∈ lanes, at_ j % n = 0 ∧ Hit b r .read (at_ j) (ent j)) →
      ∃ t o, exec (.xmLdg h w) s = .next t ∧ Onward g r s t (nextPc (.xmLdg h w) x.pc) ∧ Calm s t ∧
        gains (.xmLdg h w) s.mem.nextOp (s.slice r) (t.slice r) h.la.toNat regs none 0 none ∧
        Records t r .l w.scope (.gather w.ty h.d.toNat) (lanes.map fun j => laneElem (ent j) (at_ j) n [] [] j) false o) ∧
    (Lone s g r (.xmSct h w) (memInfo h (pairRegs h ++ [.v h.b.toNat] ++ regGroup false w.ty.regs h.c.toNat)) →
      (∀ j ∈ lanes, at_ j % n = 0 ∧ Hit b r .write (at_ j) (ent j)) →
      ∃ t o, exec (.xmSct h w) s = .next t ∧ Onward g r s t (nextPc (.xmSct h w) x.pc) ∧ Calm s t ∧ dropped t at_ ∧
        (t.slice r).pend = stillPending s.mem.nextOp (s.slice r) ∧
        Records t r .s w.scope .scatter ((lanes.filter fun j => !(lanes.any fun k =>
          physical (ent k) (at_ k) == physical (ent j) (at_ j) && decide (j < k))).map fun j => laneElem (ent j) (at_ j) n (data h.c j) [] j) false o) ∧
    (Lone s g r (.xaAtom h w) (memInfo h (atomRegs h w ++ pairRegs h)) →
      (∀ j ∈ lanes, va j % n = 0 ∧ Hit b r .atomic (va j) (ent j) ∧
        (atHost b r (ent j) (va j) = true → w.ty.isInt = true ∧ (w.min4 = 0 ∨ w.min4 = 6 ∨ w.min4 = 7))) →
      ∃ t o, exec (.xaAtom h w) s = .next t ∧ Onward g r s t (nextPc (.xaAtom h w) x.pc) ∧ Calm s t ∧ dropped t va ∧
        gains (.xaAtom h w) s.mem.nextOp (s.slice r) (t.slice r) h.la.toNat regs none 0 none ∧
        Records t r (atomClass w.ord) w.scope (.atomic w.min4.toNat w.ty h.d.toNat)
          (lanes.map fun j => laneElem (ent j) (va j) n (data h.b j) (if w.min4 = 7 then data h.c j else []) j) false o)

/-- R198, R199, 01 R32: LDS binds its values from the scratchpad; a relaxed STS stores each lane's bytes in turn, a relaxed ATOMS gives each
lane the old value as the lanes before it left it; every other byte of the scratchpad, and memory, is as it was. A release is
recorded and waits for its seal. -/
def Obligations.Scratchpad : Prop :=
  ∀ (s : State) (g : GangRef) (r : SliceRef) (h : Head) (w : Mem) (half off : Nat → Nat),
    let b := acting s r h.wk
    let x := b.slice r
    let team := s.team r.tid
    let n := tyBytes w.ty
    let lanes := x.lanesOn h.gp h.gn
    let regs := regGroup false w.ty.regs h.d.toNat
    let key := fun j => scratchKey (half j) (off j)
    let pad := fun (t : State) => (t.team r.tid).scratch
    let others := fun (t : State) => (∀ u, { t.team u with counters := (s.team u).counters, scratch := (s.team u).scratch } = s.team u) ∧
      (∀ u, u ≠ r.tid → (t.team u).scratch = (s.team u).scratch) ∧ t.mem.bytes = s.mem.bytes ∧ t.sync = s.sync ∧ t.copy = s.copy ∧
      t.fab = s.fab ∧ t.coll = s.coll ∧ t.dev = s.dev ∧ t.checks = s.checks
    let elem := fun (data cmp : List Byte) j =>
      ({ lane := j, va := BitVec.ofNat 64 (x.scratchOff h w.off j), pa := scratchPa r.tid (half j) (off j), key := 0, size := n, data := data, cmp := cmp } : Elem)
    lanes ≠ [] → (∀ j ∈ lanes, x.scratchOff h w.off j % n = 0 ∧ scratchAt team r.bent n (x.scratchOff h w.off j) = some (half j, off j)) →
    (Lone s g r (.xsLds h w) (memInfo h (regs ++ offsetRegs h)) →
      ∃ t, exec (.xsLds h w) s = .next t ∧ Onward g r s t (nextPc (.xsLds h w) x.pc) ∧ Calm s t ∧ t.mem.ops = [] ∧
        gains (.xsLds h w) s.mem.nextOp (s.slice r) (t.slice r) h.la.toNat regs
          (some (lanes.flatMap fun j => resultWrites w.ty false j h.d.toNat (natOfBytes (bytesGet team.scratch (key j) n)))) 0 none) ∧
    (Lone s g r (.xsSts h w) (memInfo h (offsetRegs h ++ regGroup false w.ty.regs h.b.toNat)) →
      ∃ t, exec (.xsSts h w) s = .next t ∧ Onward g r s t (nextPc (.xsSts h w) x.pc) ∧ others t ∧
        (t.slice r).pend = stillPending s.mem.nextOp (s.slice r) ∧
        (w.ord ≠ .rel → t.mem.ops = [] ∧ pad t = lanes.foldl (fun m j => bytesPut m (key j) (storeData x w.ty h.b.toNat j)) team.scratch) ∧
        (w.ord = .rel → pad t = team.scratch ∧
          ∃ o, Records t r .r .team .store (lanes.map fun j => elem (storeData x w.ty h.b.toNat j) [] j) false o)) ∧
    (Lone s g r (.xsAtoms h w) (memInfo h (atomRegs h w ++ offsetRegs h)) →
      let bOf := fun j => x.value w.ty false h.b.toNat j % 2 ^ (8 * n)
      let cOf := fun j => x.value w.ty false h.c.toNat j % 2 ^ (8 * n)
      let atomic := fun (m : SMap Byte) j =>
        let old := natOfBytes (bytesGet m (key j) n)
        if w.min4 = 7 ∧ old ≠ cOf j then m
        else bytesPut m (key j) (bytesOfNat n (atomNew w.min4.toNat w.ty old (bOf j) (if w.min4 = 7 then cOf j else 0)))
      let before := fun j => (lanes.filter (· < j)).foldl atomic team.scratch
      ∃ t, exec (.xsAtoms h w) s = .next t ∧ Onward g r s t (nextPc (.xsAtoms h w) x.pc) ∧ others t ∧
        ((w.ord = .rlx ∨ w.ord = .acq) → t.mem.ops = [] ∧ pad t = lanes.foldl atomic team.scratch ∧
          gains (.xsAtoms h w) s.mem.nextOp (s.slice r) (t.slice r) h.la.toNat regs
            (some (lanes.flatMap fun j => resultWrites w.ty false j h.d.toNat (natOfBytes (bytesGet (before j) (key j) n)))) 0 none) ∧
        ((w.ord = .rel ∨ w.ord = .acqrel) → pad t = team.scratch ∧
          gains (.xsAtoms h w) s.mem.nextOp (s.slice r) (t.slice r) h.la.toNat regs none 0 none ∧
          ∃ o, Records t r (atomClass w.ord) .team (.atomic w.min4.toNat w.ty h.d.toNat) (lanes.map fun j =>
            elem (bytesOfNat n (x.value w.ty false h.b.toNat j)) (if w.min4 = 7 then bytesOfNat n (x.value w.ty false h.c.toNat j) else []) j) false o))

/-- R248, R249, R250: FENCE records its class and scope, and its .sc form holds the slice; an acquire fence with nothing before it is done at
once. SEAL records the windows that it waits for, CHKR its line, and they hold the slice. None changes a register or a byte. -/
def Obligations.FencesAndChecks : Prop :=
  ∀ (s : State) (g : GangRef) (r : SliceRef) (h : Head) (w : Mem),
    let b := acting s r h.wk
    let x := b.slice r
    x.sliceOn h.gp h.gn = true →
    (Lone s g r (.xoFence h w) (memInfo h []) →
      ∃ t, exec (.xoFence h w) s = .next t ∧ Onward g r s t (nextPc (.xoFence h w) x.pc) ∧ Calm s t ∧
        (t.slice r).pend = stillPending s.mem.nextOp (s.slice r) ∧
        (if w.ord = .acq then t.mem.ops = [] ∧ (t.slice r).wait = .none
         else ∃ o, Records t r (match w.ord with | .rlx => .q | .acq => .a | .rel => .r | .acqrel => .x) w.scope
           (.fence (match w.ord with | .rlx => 0 | .acq => 1 | .rel => 2 | .acqrel => 3)) [] false o ∧
           (t.slice r).wait = if w.ord = .rlx then .op o.id else .none)) ∧
    (Lone s g r (.xoSeal h w) (memInfo h []) →
      ∃ t o, exec (.xoSeal h w) s = .next t ∧ Onward g r s t (nextPc (.xoSeal h w) x.pc) ∧ Calm s t ∧
        Records t r .none w.scope .seal [] false o ∧ o.lacking = b.openWindows none ∧ (t.slice r).wait = .op o.id) ∧
    (∀ e, let va := x.memAddr h w.off 0
      Lone s g r (.xoChkr h w) (memInfo h (pairRegs h)) → Hit b r .probe va e → e.r = true →
      ∃ t o, exec (.xoChkr h w) s = .next t ∧ Onward g r s t (nextPc (.xoChkr h w) x.pc) ∧ Calm s t ∧
        Records t r .none .dev .chkr [{ laneElem e va 128 [] [] 0 with pa := lineOf (physical e va) * 128 }] false o ∧
        (t.slice r).wait = .op o.id)

/-- R174, R193: an access of misaligned lanes takes ALIGN, naming those lanes and the lowest one's address; one that a page does not allow takes
PERM. Nothing is recorded, stored or made pending. -/
def Obligations.MemoryFaults : Prop :=
  ∀ (s : State) (g : GangRef) (r : SliceRef) (h : Head) (w : Mem), Alone s g r →
    let b := acting s r h.wk
    let x := b.slice r
    let n := tyBytes w.ty
    let va := fun j => x.memAddr h w.off j
    let lanes := x.lanesOn h.gp h.gn
    ∀ p ∈ ([(.xmLd h w, regGroup false w.ty.regs h.d.toNat ++ pairRegs h, .read), (.xmSt h w, pairRegs h ++ regGroup false w.ty.regs h.b.toNat, .write),
            (.xaAtom h w, atomRegs h w ++ pairRegs h, .atomic)] : List (Instr × List Reg × Access)), w.dec = false →
      Issues s g p.1 (memInfo h p.2.1) →
      (∀ j js, (lanes.filter fun j => va j % n != 0) = j :: js → ∃ t, exec p.1 s = .next t ∧ RegistersOnly g s t ∧
        Trapped s t r { cause := 4, sub := 0, lanes := ((j :: js).map (2 ^ ·)).sum, addr := BitVec.ofNat 64 (va j) } x.pc x.pc (instrWord p.1)) ∧
      (∀ j, lanes = [j] → ∀ e, va j % n = 0 → canonical (va j) = true → tlbFind (s.team r.tid).hp (s.team r.tid).ctx (va j) (s.l1Tlb (s.clusterOf r)) = some e →
        e.allows p.2.2 = false → ∃ t, exec p.1 s = .next t ∧ RegistersOnly g s t ∧
        Trapped s t r { cause := 3, sub := 0, lanes := 2 ^ j, addr := BitVec.ofNat 64 (va j) } x.pc x.pc (instrWord p.1))

/-! ## Barriers, queues and phases (08) -/

/-- R262, R263, R267, R275: BARI, BARA, BARAD, BARX, GBARA and GBARD send an arrival as a release and go on, the next instruction waiting until it has
been counted; with .bent the slices that a REGANG released together send one each. R265, R266, R275: a wait at a word (or a group) whose phase differs from P goes on, and acquires; one whose phase is P parks the slice at
the instruction; BART writes 1 or 0 and goes on. An invalid word, or one with reserved bits, takes BARRIER. -/
def Obligations.BarriersAndWaits : Prop :=
  (∀ (s : State) (g : GangRef) (r : SliceRef) (h : Head) (w : Mem) (half off : Nat),
      let b := acting s r h.wk
      let x := b.slice r
      let info := fun (regs : List Reg) (bent : Bool) => { memInfo h regs with bentScope := bent }
      let sends := fun (i : Instr) (scope : Scope) (kind : OpKind) (elems : List Elem) =>
        ∃ t o, exec i s = .next t ∧ Onward g r s t (nextPc i x.pc) ∧ Calm s t ∧ (t.slice r).pend = stillPending s.mem.nextOp (s.slice r) ∧
          Records t r .r scope kind elems false o ∧ (t.slice r).wait = .arrival o.grp ∧ o.grp = o.id
      let word : List Elem := [{ lane := 0, va := BitVec.ofNat 64 off, pa := scratchPa r.tid half off, key := 0, size := 8, data := [], cmp := [] }]
      let value := pairAt (h.b.toNat - 128) x
      x.sliceOn h.gp h.gn = true →
      (barAddr b r h w = .ok (half, off) → Lone s g r (.xyBari h w) (memInfo h (baseOffRegs h.a ++ [.s (h.b.toNat - 128), .s (h.b.toNat - 128 + 1)])) →
        (kindPair w = true → (s.team r.tid).desc.pair = true) → value.toNat / 2 ^ 51 = 0 →
        sends (.xyBari h w) .team (.barrier 2 half off (kindPair w) value) word) ∧
      (∀ p ∈ ([(.xyBara h w, 0), (.xyBarad h w, 1)] : List (Instr × Nat)), barAddr b r h w = .ok (half, off) → Lone s g r p.1 (info (baseOffRegs h.a) (kindBent w)) →
        (kindBent w = true → (s.slice r).wait = .released) → sends p.1 .team (.barrier p.2 half off (kindBent w) 0) word) ∧
      (barAddr b r h w = .ok (half, off) → Lone s g r (.xyBarx h w) (memInfo h (baseOffRegs h.a)) → sends (.xyBarx h w) .team (.barrier 3 half off false 0) word) ∧
      (∀ p ∈ ([(.xyGbara h w, false), (.xyGbard h w, true)] : List (Instr × Bool)), Lone s g r p.1 (memInfo h []) →
        (b.groupPhase r.tid (h.b.toNat % 4)).isSome = true → sends p.1 .dev (.group (h.b.toNat % 4) p.2) [])) ∧
  (∀ (s : State) (g : GangRef) (r : SliceRef) (h : Head) (w : Mem) (half off : Nat),
      let b := acting s r h.wk
      let x := b.slice r
      let team := s.team r.tid
      let own := if smGet false (scratchKey half off) team.paired then team.halfOf r.bent else half
      let word := natOfBytes (bytesGet team.scratch (scratchKey own off) 8)
      let p := phaseOf x h.c
      let stays := fun (i : Instr) (done : Bool) (wait : Wait) =>
        ∃ t, exec i s = .next t ∧ Onward g r s t (if done then nextPc i x.pc else x.pc) ∧ Calm s t ∧ t.mem.ops = [] ∧
          (t.slice r).wait = (if done then .none else wait) ∧ (t.slice r).pend = stillPending s.mem.nextOp (s.slice r)
      x.sliceOn h.gp h.gn = true →
      (barAddr b r h w = .ok (half, off) → word / 2 ^ 51 % 2 ^ 13 = 0 → bitOf word 49 = true →
        (Lone s g r (.xyBarw h w) (memInfo h (baseOffRegs h.a ++ phaseRegs h.c)) → stays (.xyBarw h w) (bitOf word 48 != p) (.barrier own off p)) ∧
        (Lone s g r (.xyBart h w) (memInfo h (baseOffRegs h.a ++ phaseRegs h.c ++ [.s h.d.toNat])) →
          ∃ t, exec (.xyBart h w) s = .next t ∧ Calm s t ∧ (t.slice r).pc = nextPc (.xyBart h w) x.pc ∧
            (∀ n, (t.slice r).getS n = if n = h.d.toNat then (if (bitOf word 48 != p) = true then 1 else 0) else x.getS n) ∧
            (t.slice r).v = x.v ∧ (t.slice r).preds = x.preds ∧ (t.slice r).fflags = x.fflags ∧ Control x (t.slice r) ∧ (∀ q, valid q → q ≠ r → t.slice q = s.slice q))) ∧
      (∀ ph, b.groupPhase r.tid (h.b.toNat % 4) = some ph → Lone s g r (.xyGbarw h w) (memInfo h (phaseRegs h.c)) →
        stays (.xyGbarw h w) (ph != p) (.group (h.b.toNat % 4) p)) ∧
      (barAddr b r h w = .ok (half, off) → Alone s g r → Lone s g r (.xyBarw h w) (memInfo h (baseOffRegs h.a ++ phaseRegs h.c)) →
        (word / 2 ^ 51 % 2 ^ 13 ≠ 0 ∨ bitOf word 49 = false) →
        ∃ t, exec (.xyBarw h w) s = .next t ∧ RegistersOnly g s t ∧
          Trapped s t r (faultAll 7 (if word / 2 ^ 51 % 2 ^ 13 ≠ 0 then 4 else 2)) x.pc x.pc (instrWord (.xyBarw h w))))

/-- R278 to R280, R284, R285: QPSH, QPOP and QST of a queue that the context owns send one request, whose results are pending; PHSW
flips the phase tag; QUIET goes on, and the next instruction waits for the sources that have traffic of its scope and tag. R308, R309: TLWT goes on once its timeline has reached the value, and stalls until then; TLRD reads a field of it into a
pending pair. An unregistered timeline takes COPY with status 5. -/
def Obligations.QueuesPhasesTimelines : Prop :=
  (∀ (s : State) (g : GangRef) (r : SliceRef) (h : Head) (w : Mem) (q : Nat),
      let b := acting s r h.wk
      let x := b.slice r
      let lanes := x.lanesOn h.gp h.gn
      let d := h.d.toNat
      let request := fun (i : Instr) (cls : OpClass) (kind : OpKind) (regs : List Reg) (elems : List Elem) =>
        ∃ t o, exec i s = .next t ∧ Onward g r s t (nextPc i x.pc) ∧ Calm s t ∧
          gains i s.mem.nextOp (s.slice r) (t.slice r) h.la.toNat regs none 0 none ∧ Records t r cls .dev kind elems false o
      let elem := fun (data : List Byte) j => ({ lane := j, va := 0, pa := 0, key := 0, size := 0, data := data, cmp := [] } : Elem)
      x.sliceOn h.gp h.gn = true → lanes ≠ [] →
      (b.queueOf r h w = .ok q →
        (Lone s g r (.xuQpsh h w) (memInfo h ([.p d] ++ regGroup false 4 h.b.toNat ++ baseOffRegs h.a)) →
          request (.xuQpsh h w) .r (.push q d) [.p d] (lanes.map fun j => elem (bytesOfNat 16 (x.value .b128 false h.b.toNat j)) j)) ∧
        (Lone s g r (.xuQpop h w) (memInfo h (regGroup false 4 d ++ [.p h.c.toNat] ++ baseOffRegs h.a)) →
          request (.xuQpop h w) .a (.pop q d h.c.toNat) (regGroup false 4 d ++ [.p h.c.toNat]) (lanes.map (elem []))) ∧
        (Lone s g r (.xuQst h w) (memInfo h (regGroup true 2 d ++ baseOffRegs h.a)) →
          request (.xuQst h w) .l (.stat q d) (regGroup true 2 d) [elem [] 0])) ∧
      (Lone s g r (.xuPhsw h w) (memInfo h []) →
        ∃ t, exec (.xuPhsw h w) s = .next t ∧ Onward g r s t (nextPc (.xuPhsw h w) x.pc) ∧ Calm s t ∧ (t.slice r).tag = !x.tag) ∧
      (Lone s g r (.xuQuiet h w) (memInfo h (phaseRegs h.c)) →
        ∃ t, exec (.xuQuiet h w) s = .next t ∧ Onward g r s t (nextPc (.xuQuiet h w) x.pc) ∧ Calm s t ∧
          (t.slice r).wait = .quiet w.scope (phaseOf x h.c) (b.busySources (s.team r.tid).hp (s.team r.tid).ctx w.scope (phaseOf x h.c)))) ∧
  (∀ (s : State) (g : GangRef) (r : SliceRef) (h : Head) (w : Mem) (va : Nat),
      let b := acting s r h.wk
      let x := b.slice r
      let team := s.team r.tid
      let id := (x.getS (h.a.toNat - 128)).toNat % 65536
      let target := x.getPair (h.b.toNat - 128)
      let at_ := va + 8 * w.ty.code.toNat
      let regs := regGroup true 2 h.d.toNat
      x.sliceOn h.gp h.gn = true →
      (b.timelineVa team.hp team.ctx id = some va →
        (∀ f, b.timeline team.hp team.ctx va = some f → Lone s g r (.xpTlwt h w) (memInfo h ([.s (h.a.toNat - 128)] ++ regGroup true 2 (h.b.toNat - 128))) →
          ∃ t, exec (.xpTlwt h w) s = .next t ∧
            (target.toNat ≤ f.1 → Calm s t ∧ Onward g r s t (nextPc (.xpTlwt h w) x.pc) ∧ (t.slice r).wait = .none) ∧
            (f.1 < target.toNat → t = { s.popIssue with slices := t.slices, iss := t.iss } ∧ t.iss.now = s.iss.now.tail ∧
              t.slice r = (if (s.slice r).wait = .released then s.slice r else { s.slice r with wait := .timeline id target }) ∧
              ∀ q, valid q → q ≠ r → t.slice q = s.slice q)) ∧
        (∀ e, Lone s g r (.xpTlrd h w) (memInfo h ([.s (h.a.toNat - 128)] ++ regs)) → Hit b r .read at_ e → at_ % 8 = 0 →
          b.poisoned (physical e at_) 8 = false →
          let away := atUnit b e at_ || atHost b r e at_
          ∃ t o bs, exec (.xpTlrd h w) s = .next t ∧ Onward g r s t (nextPc (.xpTlrd h w) x.pc) ∧ Calm s t ∧
            gains (.xpTlrd h w) s.mem.nextOp (s.slice r) (t.slice r) h.la.toNat regs
              (if away then none else some (resultWrites .z64 true 0 h.d.toNat (natOfBytes bs))) 0 none ∧
            Loaded b (b.clusterOf r) e.keyid true true (physical e at_) 8 bs ∧
            Records t r .l .dev (.load .z64 true h.d.toNat) [laneElem e at_ 8 [] [] 0] (!away) o)) ∧
      (b.timelineVa team.hp team.ctx id = none → Alone s g r → Lone s g r (.xpTlwt h w) (memInfo h ([.s (h.a.toNat - 128)] ++ regGroup true 2 (h.b.toNat - 128))) →
        ∃ t, exec (.xpTlwt h w) s = .next t ∧ RegistersOnly g s t ∧ Trapped s t r (faultAll 12 5) x.pc x.pc (instrWord (.xpTlwt h w))))

/-! ## Copies and timelines (09 R300 to R309) -/

/-- R300 to R305: a copy instruction whose block (and descriptor) pass the checks adds one copy, with the places, length, scope, timeline
value and barrier word of its block; it takes its ranges of the scoreboard, records its issue as a release, sets its token, and goes on. -/
def Obligations.CopyIssue : Prop :=
  ∀ (s : State) (g : GangRef) (r : SliceRef) (h : Head) (w : Mem) (bar : Option (Nat × Nat)) (e0 e1 : TlbEntry) (desc : TileDesc),
    let k := h.d.toNat % 8
    let b := acting s r (h.wk ||| 1#8 <<< k)
    let x := b.slice r
    let n := h.a.toNat - 128
    let block := x.block h.a
    let va := (x.getPair (h.b.toNat - 128)).toNat
    let va' := (va + 64) % 2 ^ 64
    let past := atUnit b e0 va || atUnit b e1 va' || atHost b r e0 va || atHost b r e1 va'
    let read := State.readLanes { b.loadOf r false 0 with via := if past then .home else .l1, client := .none } 64 b
      [{ lane := 0, va := va, pa := physical e0 va, ent := e0 }, { lane := 0, va := va', pa := physical e1 va', ent := e1 }]
    let described := va % 64 = 0 ∧ Hit b r .read va e0 ∧ Hit b r .read va' e1 ∧ poisonFault read.1 = none ∧
      tileDescOf (read.1.flatMap fun p => p.2.getD []) (x.getPair (n + 4)).toNat (x.getPair (n + 2)).toNat = some desc
    let posts := fun (i : Instr) (u : State) (c : Copy) (op : Nat) =>
      copyStatus u c = none → u.rangesFit (c.ranges (s.team r.tid)) = true → u.pendingCopies c.engine c.hp c.ctx < engineRoom →
      ∃ t o, exec i s = .next t ∧ Onward g r s t (nextPc i x.pc) ∧ t.copy = { s.copy with copies := s.copy.copies ++ [c] } ∧
        t.mem.ranges = c.ranges (s.team r.tid) ∧ t.mem.bytes = s.mem.bytes ∧ Records t r .r w.scope (.copyIssue c.cid) [] false o ∧
        (t.slice r).tokens = x.tokens ||| (1#8 <<< k) ∧ (t.slice r).pend = stillPending s.mem.nextOp (s.slice r) ∧
        t.sync = s.sync ∧ t.fab = s.fab ∧ t.coll = s.coll ∧ t.checks = s.checks ∧
        c.op = op ∧ c.len = (x.getS (n + 1)).toNat ∧ c.dst = (x.getPair (n + 2)).toNat ∧ c.src = (x.getPair (n + 4)).toNat ∧
        c.tlval = x.getPair (n + 6) ∧ c.scope = w.scope ∧ c.ety = w.ty ∧ c.bar = bar ∧ c.token = k ∧ c.ref = r ∧
        c.dsp = (x.getS n).toNat % 4 ∧ c.ssp = (x.getS n).toNat / 4 % 4
    x.sliceOn h.gp h.gn = true → copyBar b r w = .ok bar →
    (Lone s g r (.xpCpy h w) (copyInfo h false false) → blockMalformed 0 false block = false →
      posts (.xpCpy h w) b (blockCopy b r (.xpCpy h w) w 0 k block none bar none) 0) ∧
    (Lone s g r (.xpCpyr h w) (copyInfo h false false) → blockMalformed 2 false block = false →
      posts (.xpCpyr h w) b (blockCopy b r (.xpCpyr h w) w 2 k block none bar none) 2) ∧
    (Lone s g r (.xpCpyt h w) (copyInfo h true false) → blockMalformed 1 false block = false → described →
      posts (.xpCpyt h w) read.2 (blockCopy b r (.xpCpyt h w) w 1 k block (some desc) bar none) 1) ∧
    (Lone s g r (.xpCpym h w) (copyInfo h (h.b != 0) true) → blockMalformed 0 true block = false →
      (h.b = 0 → posts (.xpCpym h w) b (blockCopy b r (.xpCpym h w) w 0 k block none bar (some (x.block h.c))) 0) ∧
      (h.b ≠ 0 → described → posts (.xpCpym h w) read.2 (blockCopy b r (.xpCpym h w) w 1 k block (some desc) bar (some (x.block h.c))) 1))

/-! ## Matrix commands (10 R322 to R336) -/

/-- R322, R325, R334, R335: TMMA, TZRO, TRD, TWR and TSTO that pass their checks join the queue of their half's engine, behind what is there but for
what a higher slot of its partition has brought in the same clock; TMMA
and TSTO set their token, TRD leaves its destination pending, TWR takes its data from the registers as they were. -/
def Obligations.MatrixCommands : Prop :=
  ∀ (s : State) (g : GangRef) (r : SliceRef) (h : Head) (w : Command),
    let b := acting s r h.wk
    let x := b.slice r
    let team := s.team r.tid
    let half := team.halfOf r.bent
    let k := h.d.toNat % 8
    let follows := fun (c d : TileCmd) => c.clock = d.clock ∧ team.partOf d.ref.bent = team.partOf r.bent ∧ (s.slice r).slot < (s.slice d.ref).slot
    let joins := fun (i : Instr) (c : TileCmd) (t : State) =>
      exec i s = .next t ∧ Onward g r s t (nextPc i x.pc) ∧
      (∃ pre post, team.queueOf half = pre ++ post ∧ (t.team r.tid).queueOf half = pre ++ [c] ++ post ∧
        (∀ d ∈ pre, ¬ follows c d) ∧ ∀ d, post.head? = some d → follows c d) ∧
      c.clock = s.partClock s.iss.part + 1 ∧
      (t.team r.tid).queueOf (1 - half) = team.queueOf (1 - half) ∧ c.ref = r ∧ c.pc = x.pc ∧ c.inst = instrWord i ∧ c.tag = x.tag ∧
      (∀ u, u ≠ r.tid → { t.team u with counters := (s.team u).counters } = s.team u) ∧
      { t.team r.tid with counters := team.counters, tileQ := team.tileQ, tileQ1 := team.tileQ1 } = team ∧
      t.mem.bytes = s.mem.bytes ∧ t.sync = s.sync ∧ t.copy = s.copy ∧ t.fab = s.fab ∧ t.coll = s.coll ∧ t.dev = s.dev ∧ t.checks = s.checks
    (team.queueOf half).length < queueDepth →
    (x.sliceOn h.gp h.gn = true →
      (Lone s g r (.xxTmma h w) { Head.info h (blockRegs h.a ++ guardRegs h) with token := some k } → tmmaFault team r.bent (x.block h.a) = none →
        let scope : Scope := if (tmmaOf (x.block h.a)).vault then .dev else .team
        ∃ t c o, joins (.xxTmma h w) c t ∧ c.kind = 0 ∧ c.token = some k ∧ c.block = x.block h.a ∧ c.bar = tmmaBar team r.bent (x.block h.a) ∧
          Records t r .r scope (.copyIssue c.id) [] false o ∧ (t.slice r).tokens = x.tokens ||| (1#8 <<< k)) ∧
      (Lone s g r (.xxTzro h w) (Head.info h (guardRegs h)) → w.imm.toNat % 16 < team.desc.acc →
        ∃ t c, joins (.xxTzro h w) c t ∧ c.kind = 1 ∧ c.imm = w.imm.toNat ∧ t.mem.ops = [] ∧ (t.slice r).tokens = x.tokens) ∧
      (Lone s g r (.xxTsto h w) { Head.info h (regGroup true 4 (h.a.toNat - 128) ++ guardRegs h) with token := some k } →
        tstoFault team r.bent w.ta w.tc ((x.block h.a).take 4) = none →
        let ranges := tstoRange team r b.mem.nextOp (tyBytes w.tc) (tstoOf ((x.block h.a).take 4))
        b.rangesFit ranges = true →
        ∃ t c, joins (.xxTsto h w) c t ∧ c.kind = 4 ∧ c.token = some k ∧ c.block = (x.block h.a).take 4 ∧ c.ta = w.ta ∧ c.tc = w.tc ∧
          c.flg = w.flg.toNat ∧ t.mem.ranges = ranges ∧ (t.slice r).tokens = x.tokens ||| (1#8 <<< k))) ∧
    (x.lanesOn h.gp h.gn ≠ [] → (s.slice r).wait = .released → w.imm.toNat % 16 < team.desc.acc →
      let present := (x.lanesOn h.gp h.gn).map fun j => (r.sl, j)
      (Lone s g r (.xxTrd h w) { Head.info h (regGroup false 8 h.d.toNat ++ guardRegs h) with bentScope := true } →
        ∃ t c pid, joins (.xxTrd h w) c t ∧ c.kind = 2 ∧ c.imm = w.imm.toNat ∧ c.lanes = present ∧ c.pids = [(r.sl, pid)] ∧ c.dreg = h.d.toNat ∧
          (t.slice r).pend = stillPending s.mem.nextOp (s.slice r) ++ [({ pid := pid, regs := regGroup false 8 h.d.toNat, window := h.la.toNat, pc := x.pc, inst := instrWord (.xxTrd h w), result := none, flags := 0, fault := none, queued := true } : Pending)]) ∧
      (Lone s g r (.xxTwr h w) { Head.info h (regGroup false 8 h.a.toNat ++ guardRegs h) with bentScope := true } →
        ∃ t c, joins (.xxTwr h w) c t ∧ c.kind = 3 ∧ c.imm = w.imm.toNat ∧ c.lanes = present ∧
          c.data = (x.lanesOn h.gp h.gn).map fun j => (List.range 8).map fun n => x.getV (h.a.toNat + n) j))

/-! ## Remote operations, collectives, graphs (12 R373 to R381; 13 R423; 11 R357) -/

/-- R374, R375, R376, R381: a remote instruction of one lane whose peer and window are valid, and reachable, records an operation at sys scope
and makes one request, which waits or is sent: its kind, its peer, window and offset, and the bytes that it carries. A load's or an
atomic's destination, and the status predicate, are pending. -/
def Obligations.RemoteIssue : Prop :=
  ∀ (s : State) (g : GangRef) (r : SliceRef) (h : Head) (w : Remote) (j pe we : Nat),
    let b := acting s r h.wk
    let x := b.slice r
    let team := s.team r.tid
    let off := x.memAddr h (w.off.signExtend 24) j
    let p := x.peerOf h.c.toNat j
    let n := tyBytes w.ty
    let sp : Option Nat := if w.se then some w.sp.toNat else none
    let spReg : List Reg := if w.se then [.p w.sp.toNat] else []
    let value := fun (from_ : Nat) => ((List.range w.ty.regs).flatMap fun k => bytesOfNat 4 (x.getV (from_ + k) j).toNat).take n
    x.lanesOn h.gp h.gn = [j] → (s.hpFab team.hp).en = true → smFind (peerKey team.hp team.ctx (remPeer p)) s.fab.peers = some pe → bitOf pe 0 = true →
    s.fab.waiting = [] → s.fab.reqs = [] → (s.routeOf team.hp (remPeer p)).isSome = true →
    ∀ q ∈ ([(.xrRld h w, 0), (.xrRst h w, 1), (.xrRatm h w, 2), (.xrRfnc h w, 3)] : List (Instr × Nat)),
      Lone s g r q.1 (Head.info h (remRegs h w q.2)) → (q.2 ≠ 3 → off % n = 0 ∧ remReserved p = false ∧
        smFind (winKeyOf team.hp team.ctx (remWin p)) s.fab.imports = some we ∧ bitOf we 0 = true ∧ bitOf we (q.2 + 1) = true) →
      let dest := (if q.2 = 0 ∨ q.2 = 2 then regGroup false w.ty.regs h.d.toNat else []) ++ spReg
      let data := if q.2 = 1 ∨ q.2 = 2 then value h.b.toNat else []
      let cmp := if q.2 = 2 ∧ w.min4 = 7 then value (h.b.toNat + w.ty.regs) else []
      ∃ t o m, exec q.1 s = .next t ∧ Onward g r s t (nextPc q.1 x.pc) ∧ t.mem.bytes = s.mem.bytes ∧ t.sync = s.sync ∧ t.copy = s.copy ∧
        t.coll = s.coll ∧ Records t r (remClass q.2 w.ord) .sys (.remote q.2 h.d.toNat w.ty sp)
          [{ lane := j, va := BitVec.ofNat 64 off, pa := remotePa p off, key := p, size := if q.2 = 3 then 0 else n, data := data, cmp := cmp }] false o ∧
        o.stat = [] ∧
        (if dest = [] then (t.slice r).pend = stillPending s.mem.nextOp (s.slice r)
         else gains q.1 s.mem.nextOp (s.slice r) (t.slice r) h.la.toNat dest none 0 none) ∧
        (t.fab.waiting ++ t.fab.reqs).map (·.m) = [m] ∧ m.mtype = BitVec.ofNat 4 (q.2 + 1) ∧ m.dpeer = BitVec.ofNat 10 (remPeer p) ∧
        m.win = BitVec.ofNat 8 (if q.2 = 3 then 0 else remWin p) ∧ m.offset = BitVec.ofNat 64 (if q.2 = 3 then 0 else off) ∧ m.ptag = x.tag ∧
        m.data = data ++ cmp ∧ m.sctx = BitVec.ofNat 6 team.ctx ∧ m.rctx = BitVec.ofNat 6 (pe / 2 ^ 16 % 64)

/-- 13 R422, R423, 11 R357: DVT and COLL read a record of 64 bytes and post one collective under their token, its start a release at sys scope where
FAB of its list is 1 and at dev scope elsewhere; NODEGO records a release at dev
scope that names its node. -/
def Obligations.CollectiveAndNodeIssue : Prop :=
  ∀ (s : State) (g : GangRef) (r : SliceRef) (h : Head) (w : Command) (e : TlbEntry),
    let x := (s.slice r)
    let team := s.team r.tid
    let va := (x.getPair (h.a.toNat - 128)).toNat
    x.sliceOn h.gp h.gn = true →
    (∀ p ∈ ([(.xvDvt h w, true), (.xvColl h w, false)] : List (Instr × Bool)), Lone s g r p.1 (dvtInfo h) →
      let b := acting s r (h.wk ||| 1#8 <<< (h.d.toNat % 8))
      let read := State.readLanes { b.loadOf r false 0 with via := if atUnit b e va || atHost b r e va then .home else .l1, client := .none } 64 b
        [{ lane := 0, va := va, pa := physical e va, ent := e }]
      let rec_ := natOfBytes (read.1.flatMap fun a => a.2.getD [])
      b.collRoom (b.sliceHalf r) team.hp team.ctx = true → va % 64 = 0 → Hit b r .read va e → poisonFault read.1 = none →
      read.2.recordBad team.hp team.ctx p.2 rec_ = false →
      ∃ t c o, exec p.1 s = .next t ∧ Onward g r s t (nextPc p.1 x.pc) ∧ t.coll = { s.coll with ops := s.coll.ops ++ [c] } ∧ c.rec_ = rec_ ∧
        c.dove = p.2 ∧ c.ref = r ∧ c.hp = team.hp ∧ c.ctx = team.ctx ∧ c.token = h.d.toNat % 8 ∧ c.nt = w.flg.getLsbD 0 ∧ c.half = b.sliceHalf r ∧
        t.mem.ops = [o] ∧ o.cls = .r ∧ o.kind = .collIssue c.oid ∧ (t.slice r).tokens = x.tokens ||| (1#8 <<< (h.d.toNat % 8)) ∧
        t.sync = s.sync ∧ t.copy = s.copy ∧ t.fab = s.fab ∧
        ∀ bs, bs.length = 8 → Holds b team.hp team.ctx c.memb bs →
          t.mem.bytes = s.mem.bytes ∧ t.dev = s.dev ∧ o.scope = (if bitOf (natOfBytes bs) 16 then .sys else .dev)) ∧
    (let b := acting s r h.wk
     Lone s g r (.xvNodego h w) (Head.info h (regGroup true 2 (h.a.toNat - 128) ++ guardRegs h)) → va % 256 = 0 → Hit b r .write va e →
      ∃ t o, exec (.xvNodego h w) s = .next t ∧ Onward g r s t (nextPc (.xvNodego h w) x.pc) ∧ Calm s t ∧
        Records t r .r .dev (.nodego (BitVec.ofNat 64 va)) [] false o)

/-! ## Steps of the slice engine (03 R93, R96, 04 R112 to R143) -/

/-- R117, 01 R18, 05 R148: an issue clock of a partition whose die is not relocking counts one clock, touches no slice and no byte of memory,
and is open; the next step chooses, among the gangs whose next instruction no stall holds, the one that the rule selects, and hands it
over to issue with those fused with it; where none is ready, or the clock is the second one of an f64 instruction, none issues. R93, R96, R114, R119, R122, R129, R139: the slice engine's steps. A waiting bent passes REGANG when all its present slices wait, and forms a
gang for each address; a hold ends at its clock; a slice moves to an exited one's slot and takes it; a result lands; a token wait ends when
the tokens are clear; a trap is entered once nothing is pending, its gang to issue no earlier than eight clocks on; an exiting slice retires. R266, R283, R285, R308: what ends a wait. A woken gang goes on past its wait once its partition's clock has come, and acquires; the wait of a
QUIET ends once every source has reported zero for the tag since, and a source with a copy of the tag does not; TLWT goes on once its
timeline has reached the value. -/
def Obligations.IssueAndSliceSteps : Prop :=
  (∀ (s : State) (cl pt : Nat), cl < Config.clusters → pt < Config.partitionsPerCluster →
      let part := 4 * cl + pt
      (smGet false (cl / Config.clustersPerDie) s.dev.relock = true → exec (.evIssueClock cl pt) s = .next s) ∧
      (smGet false (cl / Config.clustersPerDie) s.dev.relock = false →
        ∃ t, exec (.evIssueClock cl pt) s = .next t ∧ t.partClock part = s.partClock part + 1 ∧ (∀ r, t.slice r = s.slice r) ∧ t.mem = s.mem ∧
          t.iss = { s.iss with now := [], part := part, opened := true, fused := false, stalled := none }) ∧
      (s.dev.booted = true → s.dev.tripped = false → s.iss.now = [] → s.iss.opened = true → s.iss.part = part → s.iss.fused = false →
      let s' := { s with iss := { s.iss with opened := false } }
      let tried := probeAll s' (s'.candsOf Wait.mayTry (s.partClock part) (s.bentsOf part))
      let ready := tried.2
      let chosen := if smGet 0 part s.iss.second = tried.1.partClock part then none else (selectGang (smFind part s.iss.last) ready).1
      ∃ t, step s = .next t ∧ (∀ r, t.slice r = tried.1.slice r) ∧ t.mem = tried.1.mem ∧
        (chosen = none → t.iss = s'.iss) ∧
        (∀ c, chosen = some c → ∃ others, t.iss = { s'.iss with last := smSet part c.ref s.iss.last, now := c.ref :: others, fused := !others.isEmpty } ∧
          ∀ g ∈ others, g ≠ c.ref ∧ g.tid = c.ref.tid ∧ ∃ d ∈ ready, d.ref = g ∧ d.pc = c.pc) ∧
        (∀ c, chosen = some c → c ∈ ready ∧
          ((∃ d ∈ ready, 128 ≤ d.waiting) → ∀ d ∈ ready, d.waiting ≤ c.waiting) ∧
          ((∀ d ∈ ready, d.waiting < 128) → (∃ d ∈ ready, d.isLast (smFind part s.iss.last) = true) → c.isLast (smFind part s.iss.last) = true) ∧
          ((∀ d ∈ ready, d.waiting < 128 ∧ d.isLast (smFind part s.iss.last) = false) → ∀ d ∈ ready, d.waiting ≤ c.waiting)))) ∧
  (∀ (s : State) (r : SliceRef), valid r →
      let x := s.slice r
      let team := s.team r.tid
      (let rs := s.present r.tid r.bent
       rs ≠ [] → (∀ q ∈ rs, (s.slice q).wait = .regang true ∨ (s.slice q).wait = .regang false) →
        ∃ t, exec (.evRegangRelease r.tid r.bent) s = .next t ∧ Counted s t ∧ { t with slices := s.slices, teams := s.teams, gangs := s.gangs } = s ∧
          Moved s t rs (fun y => if y.wait = .regang true then { y with wait := .none, pc := y.pc + 4, pend := stillPending s.mem.nextOp y } else { y with wait := .released }) ∧
          (∀ q ∈ rs, ∀ u ∈ rs, (s.slice q).pc = (s.slice u).pc ↔ ∃ g ∈ t.gangsOf r.tid r.bent, g.mask.getLsbD q.sl = true ∧ g.mask.getLsbD u.sl = true)) ∧
      (∀ n, x.wait = .hold n → ∃ t, exec (.evYieldHoldExpiry r) s = .next t ∧ SlicesOnly s t ∧ n ≤ t.partClock (s.partOfSlice r) ∧
        Moved s t (s.gangRefs r) (fun y => match y.wait with | .hold _ => { y with wait := .none } | _ => y) ∧ (t.slice r).wait = .none) ∧
      (∀ slot q, x.live = true → s.exitedAt r slot = some q → 1 ≤ (s.present r.tid r.bent).length →
        (s.present r.tid r.bent).length ≤ (s.ccb team.hp team.ctx).migth.toNat → s.slotFree r slot = true → s.moveHelps r slot = true →
        ∃ t, exec (.evSlotMigrationStart r slot) s = .next t ∧ SlicesOnly s t ∧ t.clk = s.clk ∧ Moved s t [r] (fun y => { y with moveTo := some slot })) ∧
      (∀ slot q, x.moveTo = some slot → s.exitedAt r slot = some q → q ≠ r →
        ∃ t, exec (.evSlotMigrationEnd r) s = .next t ∧ SlicesOnly s t ∧ t.clk = s.clk ∧ t.slice r = { x with slot := slot, moveTo := none } ∧
          t.slice q = { s.slice q with slot := x.slot } ∧ ∀ u, valid u → u ≠ r → u ≠ q → t.slice u = s.slice u) ∧
      (∀ p ws, x.pend.find? (fun q => q.pid == p.pid) = some p → p.result = some ws → p.fault = none → (∀ w ∈ ws, w.lane < 4) →
        ∃ t, exec (.evClassLResultWrite r p.pid) s = .next t ∧ { t with slices := s.slices } = s ∧ (∀ u, valid u → u ≠ r → t.slice u = s.slice u) ∧
          Wrote ws x (t.slice r) ∧ (t.slice r).fflags = x.fflags ||| p.flags ∧ (t.slice r).pend = x.pend.filter (fun q => q.pid != p.pid) ∧
          Control x (t.slice r) ∧ (t.slice r).pc = x.pc) ∧
      ((∀ q ∈ s.gangRefs r, ∀ m, (s.slice q).wait = .token m → (s.slice q).tokens &&& m = 0) →
        ∃ t, exec (.evTokenWaitRelease r) s = .next t ∧ { t with slices := s.slices } = s ∧
          Moved s t (s.gangRefs r) (fun y => match y.wait with | .token _ => { y with wait := .none } | _ => y)) ∧
      (∀ w, x.trapWait = some w → x.pend = [] → x.moveTo = none → x.tmode = false → w.info.cause ≠ causeContain → team.desc.handler ≠ 0xFFFFFFFF →
        (s.ccb team.hp team.ctx).tlogon = false →
        ∃ t, exec (.evTrapEntry r) s = .next t ∧ Counted s t ∧ { t with slices := s.slices, teams := s.teams, gangs := s.gangs } = s ∧
          (∀ k ∈ t.gangsOf r.tid r.bent, k.mask.getLsbD r.sl = true → k.readyAt = s.partClock (s.partOfSlice r) + 8) ∧ Trapped s t r w.info w.tpc w.tfpc w.inst ∧
          (t.slice r).trap.tgmask = w.gmask ∧ (t.slice r).tokens = x.tokens ∧ (t.slice r).trap.tscr = x.trap.tscr ∧
          (t.slice r).trap.tcount = (if x.trap.tcount = BitVec.allOnes 32 then x.trap.tcount else x.trap.tcount + 1) ∧
          ∀ u, valid u → u ≠ r → t.slice u = s.slice u) ∧
      (x.exiting = true → x.pend = [] →
        ∃ t, exec (.evSliceRetire r) s = .next t ∧ { t with slices := s.slices } = s ∧ Moved s t [r] (fun y => { y with exited := true }))) ∧
  (∀ (s : State) (r : SliceRef), valid r →
      let x := s.slice r
      let team := s.team r.tid
      let ends := fun (t : State) (rs : List SliceRef) (f : Slice → Slice) =>
        (∀ q ∈ rs, t.slice q = { f (s.slice q) with wait := .none, acqEpoch := (t.slice q).acqEpoch }) ∧ (∀ q, valid q → q ∉ rs → t.slice q = s.slice q) ∧
        { t with slices := s.slices, clk := s.clk, mem := { t.mem with l1 := s.mem.l1 } } = s
      (∀ n sc, x.wait = .wake n sc → ∃ t, exec (.evBarrierWake r) s = .next t ∧ ends t (s.gangRefs r) (fun y => { y with pc := y.pc + 12 }) ∧
        n ≤ t.partClock (s.partOfSlice r)) ∧
      (∀ sc tag left, x.wait = .quiet sc tag left →
        let rs := maskRefs r.tid r.bent (s.gangMask r)
        let awaited := fun (q : SliceRef) => match (s.slice q).wait with
          | .quiet sc tag left => left.filter (s.busySources (s.team q.tid).hp (s.team q.tid).ctx sc tag).contains
          | _ => []
        r ∈ rs → (∀ q ∈ rs, (s.slice q).wait = .along ∨ ∃ sc tag left, (s.slice q).wait = .quiet sc tag left) →
        ((∀ q ∈ rs, awaited q = []) → ∃ t, exec (.evQuietReturn r) s = .next t ∧ ends t rs id ∧ t.clk = s.clk) ∧
        ((∃ q ∈ rs, awaited q ≠ []) → ∃ t, exec (.evQuietReturn r) s = .next t ∧ { t with slices := s.slices } = s ∧
          (t.slice r).wait = .quiet sc tag (awaited r) ∧ (t.slice r).pc = x.pc)) ∧
      (∀ hp ctx sc tag,
        (∀ o ∈ s.mem.ops, (s.team o.ref.tid).hp = hp → (s.team o.ref.tid).ctx = ctx → o.tag = tag → o.counts = false) →
        (∀ c ∈ s.copy.copies, c.hp = hp → c.ctx = ctx → c.tag ≠ tag) → (∀ c ∈ s.copy.scrubs, c.hp = hp → c.ctx = ctx → c.tag ≠ tag) →
        (∀ m ∈ s.mem.migs, m.hp = hp → m.ctx = ctx → m.tag ≠ tag) →
        (∀ p ∈ s.teams, p.2.hp = hp → p.2.ctx = ctx → ∀ c ∈ p.2.tileQ ++ p.2.tileQ1, c.tag ≠ tag) →
        (∀ o ∈ s.coll.ops, o.hp = hp → o.ctx = ctx → o.tag ≠ tag) →
        (sc = .sys → (∀ q ∈ s.fab.reqs ++ s.fab.waiting, q.hp = hp → q.ctx = ctx → q.m.ptag ≠ tag) ∧
          ∀ m ∈ s.fab.inbox ++ s.fab.held.map (·.m), m.dpeer.toNat = (s.hpFab hp).peer → m.rctx.toNat = ctx → m.ptag ≠ tag) →
        s.busySources hp ctx sc tag = []) ∧
      (∀ sc, ∀ c ∈ s.copy.copies, s.copySource c ∈ s.busySources c.hp c.ctx sc c.tag) ∧
      (∀ n v va f, x.wait = .timeline n v → s.gangRefs r = [r] → s.timelineVa team.hp team.ctx n = some va → s.timeline team.hp team.ctx va = some f →
        ∃ t, exec (.evTlwtReturn r) s = .next t ∧ (f.1 < v.toNat → t = s) ∧
          (v.toNat ≤ f.1 → ends t [r] (fun y => { y with pc := y.pc + 12, pend := stillPending s.mem.nextOp y }) ∧ t.clk = s.clk)))

/-! ## Teams and launches (03 R107, 07 R255, 08 R274, 11 R344 to R365) -/

/-- R107, R344, R355: the next team of a launch starts where it fits, with zeroed memory of its own, its counters at 0, and in each slice the
initial registers, EXEC with every lane, and the entry address; one gang for each bent. R255, R274, R344, R351, R364, R365: a team whose slices have exited and whose operations have performed ends, or is killed, and leaves nothing
behind, and its launch counts it; group entries load with PENDING and NEXT at EXPECTED; a launch that has run completes its packet; the pool
dispatches the ready entry of the lowest level, and among those the one longest ready. -/
def Obligations.TeamsAndLaunches : Prop :=
  (∀ (s : State) (lid : Nat) (l : Launch) (T : Team), s.launch? lid = some l → s.running l.hp l.ctx = true → l.loaded = true → l.next < l.total →
      (∀ u ∈ s.savedOf l.hp l.ctx, (s.team u).launch ≠ lid) → s.nextPlaced l = some T → T.desc.bents ≤ 64 →
      let tid := s.dist.nextTeam
      ∃ t, exec (.evTeamStart lid) s = .next t ∧ t.dist.nextTeam = tid + 1 ∧ t.launch? lid = some { l with next := l.next + 1, live := l.live + 1 } ∧
        t.team tid = T ∧ T.desc = l.desc ∧ T.hp = l.hp ∧ T.ctx = l.ctx ∧ T.launch = lid ∧ T.args = l.args ∧ T.groups = l.slots.getD l.next [] ∧
        T.linear = l.next ∧ T.scratch = [] ∧ T.plate = [] ∧ T.tiles = [] ∧ T.counters = [] ∧ T.resident = true ∧
        (∀ u, u ≠ tid → t.team u = s.team u) ∧ t.mem.bytes = s.mem.bytes ∧ t.mem.ops = s.mem.ops ∧
        (∀ q, valid q → q.tid ≠ tid → t.slice q = s.slice q) ∧
        ∀ b < T.desc.bents, t.gangsOf tid b = [{ mask := 0xFF, waiting := 0, readyAt := 0 }] ∧ ∀ i < 8,
          let x := t.slice { tid := tid, bent := b, sl := i }
          x.exec = 15 ∧ x.pc = T.desc.code + BitVec.ofNat 64 T.desc.entry ∧ x.tag = (s.ccb l.hp l.ctx).ptag ∧ x.slot = i ∧ x.exited = false ∧
          x.tmode = false ∧ x.tokens = 0 ∧ x.fflags = 0 ∧ x.pend = [] ∧ x.wait = .none ∧ x.preds = 0 ∧ x.trap = TrapRegs.zero ∧
          (∀ j < 4, x.getV 0 j = BitVec.ofNat 32 (32 * b + 4 * i + j) ∧ x.getV 1 j = BitVec.ofNat 32 (4 * i + j)) ∧
          (∀ n j, 2 ≤ n → j < 4 → x.getV n j = 0) ∧
          x.getS 0 = l.args.setWidth 32 ∧ x.getS 1 = (l.args >>> 32).setWidth 32 ∧ x.getS 2 = BitVec.ofNat 32 T.x ∧ x.getS 3 = BitVec.ofNat 32 T.y ∧
          x.getS 4 = BitVec.ofNat 32 T.z ∧ x.getS 5 = BitVec.ofNat 32 b ∧ x.getS 6 = BitVec.ofNat 32 (T.role b).1 ∧
          x.getS 7 = BitVec.ofNat 32 (b - (T.role b).2) ∧ ∀ n, 8 ≤ n → x.getS n = 0) ∧
  (∀ (s : State) (tid lid : Nat) (l : Launch), s.launch? lid = some l →
      let T := s.team tid
      let gone := fun (t : State) (killed : Bool) => t.team tid = Team.absent ∧ (∀ r, valid r → r.tid = tid → t.slice r = Slice.absent) ∧
        (∀ b < 64, t.gangsOf tid b = []) ∧ (∀ o ∈ t.mem.ops, o.ref.tid ≠ tid) ∧ (∀ x ∈ t.mem.ranges, x.tid ≠ tid) ∧
        t.launch? lid = some { l with live := l.live - 1, killed := l.killed || killed }
      (T.launch = lid → T.resident = true → (∀ c ∈ s.copy.copies, c.eid = none → c.ref.tid ≠ tid) → (∀ c ∈ T.clusters, (s.l1 c).wbuf = []) →
        s.teamQuiet tid = true →
        (T.held = false → T.stopped = false → T.killed = none → s.teamExited tid = true → (∀ r ∈ s.teamSlices tid, (s.slice r).taint = none) →
          ∃ t, exec (.evTeamEnd tid) s = .next t ∧ gone t false ∧ t.mem.bytes = s.mem.bytes ∧ t.dev = s.dev) ∧
        (∀ cause, T.killed = some cause → ∃ t, exec (.evTeamKill tid cause) s = .next t ∧ gone t true)) ∧
      (l.loaded = false → s.liveGroups l.hp + l.words.length ≤ maxGroups →
        ∃ t, exec (.evGroupTableLoad lid) s = .next t ∧ t.launch? lid = some { l with loaded := true } ∧
          smGet [] lid t.sync.groups = l.words.map (fun w => { expected := wordExpected w, pending := wordExpected w, next := wordExpected w, phase := bitOf w 48 }) ∧
          t.sync.queues = s.sync.queues ∧ { t with sync := s.sync, dist := { t.dist with launches := s.dist.launches } } = s) ∧
      (∀ e, l.total ≤ l.next → l.live = 0 → s.entry? l.eid = some e → e.tlid = 0 → e.irq = false → e.node = none →
        ∃ t, exec (.evLaunchComplete lid) s = .next t ∧ t.launch? lid = none ∧ smGet [] lid t.sync.groups = [] ∧ t.entry? l.eid = none ∧
          { t with sync := s.sync, dist := { t.dist with launches := s.dist.launches, entries := s.dist.entries } } = s) ∧
      (∀ hp, s.dispatchable hp ≠ [] → (∀ g ∈ s.dist.graphs, ∀ p ∈ g.nodes, p.2 ≠ 6) → (∀ e ∈ s.dispatchable hp, e.node = none) →
        ∃ e ∈ s.dispatchable hp, (∀ d ∈ s.dispatchable hp, e.level < d.level ∨ (e.level = d.level ∧ e.ready ≤ d.ready)) ∧
          ∃ die engine, exec (.evPoolDispatch hp) s = .next (s.setEntry { e with stage := 3, die := die, engine := engine, until_ := s.ns + prefetchLimit })))

/-! ## Steps of the memory system (06 R170 to R203, 07 R213, R223) -/

/-- R170: a walk that finds a leaf with the permission fills the TLB with its page and sets A, and D for a write; one without it changes
nothing, nor does one that finds no entry; a table that cannot be read is counted. R176, R177: a fault record goes to the fault queue under a tag that no unanswered record of its context has, and waits while the queue is
full; a retry lets its waiters try again, or ends a waiting slice with XLATE; an unknown tag is counted. -/
def Obligations.WalksAndFaultRecords : Prop :=
  (∀ (s : State) (cl hp ctx : Nat) (va : Quad) (acc : Access), (canonical va.toNat = false → exec (.evTableWalk hp ctx va ⟨cl, acc⟩) s = .next s) ∧
      (canonical va.toNat = true → s.walkHeld hp va.toNat 5 (s.ccb hp ctx).ptroot = false →
      (∀ level at_ e, s.walk hp ctx va.toNat = .leaf level at_ e → s.mustHold true at_ 16 = false →
        let size := pageBits (bitsOf e 10 8)
        let dirty := isWrite acc || bitOf e 6
        let x : TlbEntry := { hp := hp, ctx := ctx, glob := bitOf e 4, va := va.toNat / 2 ^ size * 2 ^ size, size := size, pa := bitsOf e 51 12 * 4096, r := bitOf e 1, w := bitOf e 2, x := bitOf e 3, dirty := dirty, msa := bitOf e 7, keyid := bitsOf e 76 64, fmt := bitsOf e 80 77, geom := bitsOf e 82 81 }
        (x.allows acc = true → ∃ t, exec (.evTableWalk hp ctx va ⟨cl, acc⟩) s = .next t ∧ tlbFind hp ctx va.toNat (t.l1Tlb cl) = some x ∧
          tlbFind hp ctx va.toNat (t.l2Tlb (dieOfCluster cl)) = some x ∧ (t.l1Tlb cl).length ≤ 64 ∧ (t.l2Tlb (dieOfCluster cl)).length ≤ 4096 ∧
          (∀ c, c ≠ cl → t.l1Tlb c = s.l1Tlb c) ∧ (∀ d, d ≠ dieOfCluster cl → t.l2Tlb d = s.l2Tlb d) ∧
          natOfBytes (memReadN t.mem.bytes at_ 16) = (if acc = .probe then e else e ||| 2 ^ 5 ||| (if isWrite acc = true then 2 ^ 6 else 0)) ∧
          (∀ a, a < at_ ∨ at_ + 16 ≤ a → t.byteAt a = s.byteAt a) ∧
          { t with mem := { t.mem with bytes := s.mem.bytes, poison := s.mem.poison, lines := s.mem.lines, l2 := s.mem.l2, sill := s.mem.sill, l1tlb := s.mem.l1tlb, l2tlb := s.mem.l2tlb } } = s) ∧
        (x.allows acc = false → exec (.evTableWalk hp ctx va ⟨cl, acc⟩) s = .next s)) ∧
      ((s.walk hp ctx va.toNat = .malformed ∨ ∃ level mig, s.walk hp ctx va.toNat = .absent level mig) → exec (.evTableWalk hp ctx va ⟨cl, acc⟩) s = .next s) ∧
      (s.walk hp ctx va.toNat = .unreadable → exec (.evTableWalk hp ctx va ⟨cl, acc⟩) s = .next (s.bumpErr 13)))) ∧
  (∀ (s : State) (f : FaultRec) (hp ctx tag : Nat),
      let c := s.ccb f.hp f.ctx
      let va := c.fqbase.toNat + 32 * (c.fqwr.toNat % 2 ^ c.fqlog)
      (∀ e, s.mem.faults.find? (fun g => g.fid == f.fid && g.tag.isNone) = some f → 4 ≤ c.fqlog → c.fqlog ≤ 16 →
        ((c.fqwr - c.fqrd).toNat < 2 ^ c.fqlog → Serves s f.hp f.ctx .write va e → va % 4096 ≤ 4064 → s.mem.faults.length < 65536 →
          ∃ t new, exec (.evFaultRecordPost f.fid) s = .next t ∧ new < 65536 ∧ (∀ g ∈ s.mem.faults, g.hp = f.hp → g.ctx = f.ctx → g.tag ≠ some new) ∧
            t.mem.faults = s.mem.faults.map (fun g => if g.fid = f.fid then { g with tag := some new } else g) ∧
            memReadN t.mem.bytes (physical e va) 32 = bytesOfNat 8 f.va ++ bytesOfNat 8 (f.level + (if f.mig then 8 else 0) + f.access * 2 ^ 4 + f.source * 2 ^ 8 + new * 2 ^ 16 + f.unit_ * 2 ^ 32) ++
              bytesOfNat 8 (f.team + f.bent * 2 ^ 32 + f.slice * 2 ^ 40) ++ bytesOfNat 8 s.ns ∧
            (∀ a, a < physical e va ∨ physical e va + 32 ≤ a → t.byteAt a = s.byteAt a) ∧
            t.ccb f.hp f.ctx = { c with fqwr := c.fqwr + 1 } ∧ t.slices = s.slices) ∧
        (2 ^ c.fqlog ≤ (c.fqwr - c.fqrd).toNat → exec (.evFaultRecordPost f.fid) s = .next s)) ∧
      (∀ i ∈ ([.evRetryRetry hp ctx tag, .evRetryFail hp ctx tag] : List Instr), s.taggedFault hp ctx tag = none → exec i s = .next (s.bumpErr 12)) ∧
      (s.taggedFault hp ctx tag = some f →
        (∃ t, exec (.evRetryRetry hp ctx tag) s = .next t ∧ t.mem = { s.mem with faults := s.mem.faults.filter (fun g => g.fid != f.fid) } ∧
          (∀ q, (s.slice q).wait.waitsFor f.fid = false → (∀ m a, (s.slice q).wait ≠ .fault [] m a) → t.slice q = s.slice q) ∧
          ∀ q lanes addr, (s.slice q).wait = .fault [f.fid] lanes addr → t.slice q = { s.slice q with wait := .none }) ∧
        (∀ r lanes addr, valid r → (s.slice r).wait = .fault [f.fid] lanes addr → (s.slice r).pend = [] → (s.slice r).tmode = false →
            (s.slice r).moveTo = none → s.iss.fused = false → s.mem.blocked = false →
          (s.team r.tid).desc.handler ≠ 0xFFFFFFFF → (s.ccb (s.team r.tid).hp (s.team r.tid).ctx).tlogon = false →
          s.slices.filter (fun p => p.2.wait.waitsFor f.fid) = [(512 * r.tid + 8 * r.bent + r.sl, s.slice r)] →
          (∀ k ∈ s.copy.copies, f.fid ∉ k.waits) → (∀ k ∈ s.copy.scrubs, f.fid ∉ k.waits) → s.dist.savedCopies = [] →
          (∀ p ∈ s.teams, p.2.tileQ = [] ∧ p.2.tileQ1 = []) → s.dist.entries = [] → (∀ o ∈ s.coll.ops, f.fid ∉ o.waits) →
          ∃ t, exec (.evRetryFail hp ctx tag) s = .next t ∧ t.mem = { s.mem with faults := s.mem.faults.filter (fun g => g.fid != f.fid) } ∧
            Trapped s t r { cause := causeXlate, sub := 0, lanes := lanes, addr := addr } (s.slice r).pc (s.slice r).pc (s.instAt r (s.slice r).pc) ∧
            ∀ q, valid q → q ≠ r → t.slice q = s.slice q)))

/-- R199, R200, R202, R203, R213, R223: outstanding operations perform. A buffered store drains to memory; a gather's element is read at its home
or by its stack's expander, a scatter's is written there and leaves no L1 sector; an atomic updates its element in one step and answers with
the old value, once the holders outside its team have published; a memory-side unit does the same for its page, and loads there. -/
def Obligations.MemorySteps : Prop :=
  ∀ (s : State) (o : Op) (e : Elem), Sole s o e →
    let cl := s.clusterOf o.ref
    let n := e.size
    let value := natOfBytes (memReadN s.mem.bytes e.pa n)
    let writes := fun (t : State) (bs : List Byte) => ∀ a, t.byteAt a = stored s.mem.bytes e.pa bs a
    let free := o.cls ≠ .a ∨ s.outsideHolders o.ref o.elems = []
    (∀ w, o.kind = .store → o.msa = false → (s.l1 cl).wbuf = [w] → w = { op := o.id, pa := e.pa, key := e.key, data := e.data, heldBy := none } →
      (∃ t, exec (.evL1WriteBufferDrain cl) s = .next t ∧ writes t e.data ∧ (t.l1 cl).wbuf = [] ∧ Answered s t { o with pid := none } []) ∧
      (∃ t, exec (.evForcedPublish cl) s = .next t ∧ writes t e.data ∧ (t.l1 cl).wbuf = [] ∧ (∀ c ∈ t.mem.publish, c.1 ≠ cl) ∧ Answered s t { o with pid := none } [])) ∧
    (∀ ty d, o.kind = .gather ty d →
      let served := fun (i : Instr) => ∃ t, exec i s = .next t ∧ Answered s t o (resultWrites ty false e.lane d value) ∧ t.mem.bytes = s.mem.bytes
      (o.msa = false → s.servedAtHome o e.pa = true → served (.evGatherSubpacket o.id (s.homeOf o e.pa))) ∧
      (∀ stack, o.msa = false → s.servedAtHome o e.pa = false → s.stackOf o e.pa = some stack → served (.evGatherExpanderRead o.id stack)) ∧
      (o.msa = true → served (.evMsaAccess o.id))) ∧
    (o.kind = .scatter → 1 ≤ n →
      let put := fun (i : Instr) => ∃ t, exec i s = .next t ∧ writes t e.data ∧ (t.l1 cl).sector (sectorOf e.pa) = none ∧ Answered s t { o with pid := none } []
      put (.evScatterElement o.id 0) ∧ (o.msa = true → o.cls.trails = false → put (.evMsaAccess o.id))) ∧
    (∀ aop ty d, o.kind = .atomic aop ty d → o.cls.trails = false → n = tyBytes ty → (o.msa = true ∨ o.host = false) →
      let i : Instr := if o.msa then .evMsaAccess o.id else .evL2Atomic o.id
      (free → ∃ t, exec i s = .next t ∧ writes t (bytesOfNat n (atomNew aop ty value (natOfBytes e.data) (natOfBytes e.cmp))) ∧
        Answered s t o (resultWrites ty false e.lane d value)) ∧
      (o.cls = .a → s.outsideHolders o.ref o.elems ≠ [] → exec i s = .next (s.askPublish (s.outsideHolders o.ref o.elems)))) ∧
    (∀ ty sc d, o.kind = .load ty sc d → o.msa = true → o.cls.trails = false → free →
      ∃ t, exec (.evMsaAccess o.id) s = .next t ∧ Answered s t o (resultWrites ty sc e.lane d value) ∧ t.mem.bytes = s.mem.bytes) ∧
    (∀ ty d x pid, o.kind = .dec ty d [x] → x.lane = e.lane → x.geom < 3 → o.pid = some pid → o.msa = true → o.cls.trails = false → free →
      let v := decValue x.fmt x.geom ty x.idx (memReadN s.mem.bytes e.pa n)
      ∃ t, exec (.evMsaAccess o.id) s = .next t ∧ t.mem.bytes = s.mem.bytes ∧ (∀ q, valid q → q ≠ o.ref → t.slice q = s.slice q) ∧
        (t.slice o.ref).pend = settle pid (some (resultWrites ty false e.lane d v.1)) v.2 none (s.slice o.ref).pend) ∧
    (o.kind = .store → o.msa = true → o.cls.trails = false →
      ∃ t, exec (.evMsaAccess o.id) s = .next t ∧ writes t e.data ∧ Answered s t { o with pid := none } [])

/-- R190: a Sill way that becomes vault is cleared to zeros, and its window is a decode error until BUSY clears; a way that returns to the cache
loses its data, and its window is a decode error at once. R206 to R209, 07 R236, R253: a MIGRATE whose pages pass the checks starts; a page is locked once no line of it is held, with no copy of it
owned; copied with its poison, each line a transfer of an interval one above the old line's; switched by compare-and-write once those
transfers have been checked; shot down; released with its held writes and what the clusters have under way at the new location; drained when
what used the old translation has performed at dev scope; and freed. A changed entry, a refused transfer, a place that does not exist or a
leaf that is gone end it in error. Writes to a page in motion are held, as are reads behind a held write of theirs; once released, an access
goes to the new line. R23, R206: a MIGRATE packet waits for its far die's engine; it walks and checks every page before it moves any; one that passes starts at its
first page, and one that fails completes in error with nothing moved. -/
def Obligations.MigrationsAndSillWays : Prop :=
  (∀ (s : State) (die way : Nat), die < 4 → way < 16 →
      let v := s.vault die
      let base := 0x8000000000 + die * 0x20000000 + way * 0x2000000
      let inWay := fun (a : Nat) => base ≤ a ∧ a < base + 0x2000000
      let cleared := fun (t : State) => (∀ a, t.byteAt a = if inWay a then 0 else s.byteAt a) ∧ (∀ hp a, inWay a → t.region hp a = .unmapped) ∧
        (∀ d, ∀ x ∈ t.l2Of d, ¬ inWay (128 * x.line)) ∧ (∀ m, m ≠ die → t.sillOf m = s.sillOf m) ∧
        { t with mem := { t.mem with bytes := s.mem.bytes, poison := s.mem.poison, lines := s.mem.lines, l2 := s.mem.l2, sill := s.mem.sill, vaults := s.mem.vaults } } = s
      (v.vault.getLsbD way = false → v.busy.getLsbD way = false →
        ∃ t, exec (.evSillWayToVault die way) s = .next t ∧ cleared t ∧ t.vault die = { vault := v.vault ||| 1#16 <<< way, busy := v.busy ||| 1#16 <<< way } ∧
          t.sillOf die = (s.sillOf die).filter fun x => x.way != way) ∧
      (v.vault.getLsbD way = true → v.busy.getLsbD way = false →
        ∃ t, exec (.evSillWayToCache die way) s = .next t ∧ cleared t ∧ t.vault die = { v with vault := v.vault &&& ~~~(1#16 <<< way) } ∧
          t.sillOf die = s.sillOf die) ∧
      (v.busy.getLsbD way = true → ∃ t, exec (.evSillWayConvertDone die way) s = .next t ∧ t.mem.bytes = s.mem.bytes ∧
        t.vault die = { v with busy := v.busy &&& ~~~(1#16 <<< way) } ∧
        (v.vault.getLsbD way = true → ∀ a, inWay a → t.region (hpOfDie s.dev.plan die) a = .vault die way)) ∧
      (v.busy.getLsbD way = true → exec (.evSillWayToVault die way) s = .next s ∧ exec (.evSillWayToCache die way) s = .next s)) ∧
  (∀ (s : State) (mid : Nat) (m : Migration) (e : Entry), s.mig? mid = some m →
      let n := 2 ^ pageBits m.sz
      let dest := m.newpa + m.page * n
      let page := m.va + m.page * n
      let inOld := fun (a : Nat) => m.oldpa ≤ a ∧ a < m.oldpa + n
      let moved := fun (a : Nat) => if inOld a then dest + (a - m.oldpa) else a
      let moves := fun (m' : Migration) (t : State) => t.mig? mid = some m' ∧ t.slices = s.slices ∧ t.dist = s.dist
      let tlbs := fun (t : State) (f : TlbEntry → Bool) => (∀ c, t.l1Tlb c = (s.l1Tlb c).filter f) ∧ ∀ d, t.l2Tlb d = (s.l2Tlb d).filter f
      let uncached := fun (t : State) => (∀ cl sec, inOld (sec * 32) → (t.l1 cl).sector sec = none) ∧ (∀ d, ∀ x ∈ t.l2Of d, ¬ inOld (x.line * 128)) ∧
        ∀ d, ∀ x ∈ t.sillOf d, ¬ inOld (x.line * 128)
      let plain := s.entry? m.eid = some e ∧ e.tlid = 0 ∧ e.irq = false ∧ e.node = none
      let ended := fun (t : State) => t.mig? mid = none ∧ t.entry? m.eid = none ∧ t.slices = s.slices
      let write := fun (move : Nat → Nat) (b : Memory) (a : HeldAccess) => if a.isWrite then memWriteN b (move a.pa) a.data else b
      (∀ r, m.stage = 0 → s.leafRun m.hp m.ctx page = some r →
        (s.rangeHeld r.frame n = false → ∃ t, exec (.evMigratePageLock mid) s = .next t ∧ moves { m with oldpa := r.frame, entries := r.entries, stage := 1 } t ∧
          t.mem.bytes = s.mem.bytes ∧ t.mem.ops = s.mem.ops ∧ tlbs t (fun _ => true) ∧
          ∀ d < 8, ∀ x ∈ t.l2Of d, r.frame ≤ x.line * 128 → x.line * 128 < r.frame + n → x.st = .s) ∧
        (s.rangeHeld r.frame n = true → exec (.evMigratePageLock mid) s = .next s)) ∧
      (m.stage = 0 → s.leafRun m.hp m.ctx page = none → plain → ∃ t, exec (.evMigratePageLock mid) s = .next t ∧ ended t) ∧
      (m.stage = 1 → s.rangeHeld dest n = false →
        ((∀ a, dest ≤ a → a < dest + n → s.reachable m.hp m.keyid a = true) → m.oldpa % 128 = 0 → dest % 128 = 0 →
          (dest = m.oldpa ∨ dest + n ≤ m.oldpa ∨ m.oldpa + n ≤ dest) →
          ∃ t before, exec (.evMigratePageCopy mid) s = .next t ∧ moves { m with stage := 2, before := before } t ∧ t.mem.ops = s.mem.ops ∧
            (∀ k < n, t.byteAt (dest + k) = s.byteAt (m.oldpa + k)) ∧
            (∀ k, 32 * k < n → t.poisoned (dest + 32 * k) 32 = s.poisoned (m.oldpa + 32 * k) 32) ∧ (∀ a, a < dest ∨ dest + n ≤ a → t.byteAt a = s.byteAt a) ∧
            ∀ k, 128 * k < n → ∃ x ∈ t.mem.xfers, x.line = dest / 128 + k ∧ x.write = true ∧ x.client = .mig mid ∧ x.interval = (s.line (m.oldpa / 128 + k)).interval + 1) ∧
        (s.reachable m.hp m.keyid dest = false → plain → ∃ t, exec (.evMigratePageCopy mid) s = .next t ∧ ended t)) ∧
      (m.stage = 1 → s.rangeHeld dest n = true → exec (.evMigratePageCopy mid) s = .next s) ∧
      (m.stage = 2 → ((∃ x ∈ s.mem.xfers, x.client = .mig mid) → exec (.evMigratePageSwitch mid) s = .next s) ∧
        ((∀ x ∈ s.mem.xfers, x.client ≠ .mig mid) →
          (m.lost = none → m.entries.Pairwise (fun p q => p.1 + 16 ≤ q.1) → (∀ p ∈ m.entries, natOfBytes (memReadN s.mem.bytes p.1 16) = p.2) →
            ∃ t, exec (.evMigratePageSwitch mid) s = .next t ∧ moves { m with stage := 3, before := [] } t ∧ t.mem.ops = s.mem.ops ∧ (∀ p ∈ m.entries,
              let v := natOfBytes (memReadN t.mem.bytes p.1 16)
              bitsOf v 51 12 = dest / 4096 % 2 ^ 40 ∧ bitsOf v 84 83 = m.newtier % 4 ∧ bitOf v 7 = m.newmsa ∧ bitOf v 5 = bitOf p.2 5 ∧
              bitOf v 6 = (bitOf p.2 6 || m.held.any (·.isWrite)) ∧ bitsOf v 76 64 = bitsOf p.2 76 64 ∧ bitsOf v 4 0 = bitsOf p.2 4 0 ∧ bitsOf v 11 8 = bitsOf p.2 11 8) ∧
              ∀ a, (∀ p ∈ m.entries, a < p.1 ∨ p.1 + 16 ≤ a) → t.byteAt a = s.byteAt a) ∧
          ((m.lost ≠ none ∨ ∃ p ∈ m.entries, natOfBytes (memReadN s.mem.bytes p.1 16) ≠ p.2) → plain →
            ∃ t, exec (.evMigratePageSwitch mid) s = .next t ∧ ended t))) ∧
      (m.stage = 3 → ∃ t, exec (.evMigratePageShoot mid) s = .next t ∧ moves { m with stage := 4, uses := (s.shoot m.hp m.shoot).2 } t ∧ t.mem.bytes = s.mem.bytes ∧
        t.mem.ops = s.mem.ops ∧ uncached t ∧ tlbs t fun x => !(x.hp == m.hp && overlap (page % 2 ^ 57) n (x.va % 2 ^ 57) (2 ^ x.size))) ∧
      (m.stage = 4 → ∃ t, exec (.evMigratePageRelease mid) s = .next t ∧ moves { m with stage := 5, held := [], heldNew := [] } t ∧ uncached t ∧
        t.mem.ops = s.mem.ops.map m.moveOp ∧ (∀ o : Op, (m.moveOp o).elems = o.elems.map fun x => { x with pa := moved x.pa }) ∧
        (∀ cl, (t.l1 cl).wbuf = (s.l1 cl).wbuf.map fun x => { x with pa := moved x.pa }) ∧
        t.mem.bytes = m.heldNew.foldl (write id) (m.held.foldl (write moved) s.mem.bytes)) ∧
      (m.stage = 5 → exec (.evMigratePageDrainDone mid) s = .next (if ∃ o ∈ s.mem.ops, o.id ∈ m.uses ∧ o.ackedAt .dev = false then s else s.setMig { m with stage := 6, uses := [] })) ∧
      (m.stage = 6 → (m.page + 1 < m.npages → exec (.evMigratePageFree mid) s = .next (s.setMig { m with page := m.page + 1, stage := 0, oldpa := 0, entries := [] })) ∧
        (m.npages ≤ m.page + 1 → plain → ∃ t, exec (.evMigratePageFree mid) s = .next t ∧ ended t ∧ t.mem.bytes = s.mem.bytes)) ∧
      (∀ a : HeldAccess, inOld a.pa →
        let behind := ∃ h ∈ m.held, h.source = a.source ∧ lineOf h.pa = lineOf a.pa
        (1 ≤ m.stage → m.stage ≤ 4 → (a.isWrite = true ∨ behind) → exec (.evMigrateHeldAccess mid a) s = .next (s.setMig { m with held := m.held ++ [a] })) ∧
        (1 ≤ m.stage → m.stage ≤ 4 → a.isWrite = false → ¬ behind → exec (.evMigrateHeldAccess mid a) s = .next s) ∧
        (5 ≤ m.stage → a.isWrite = true → ∃ t, exec (.evMigrateHeldAccess mid a) s = .next t ∧
          t.mem.bytes = memWriteN s.mem.bytes (dest + (a.pa - m.oldpa)) a.data))) ∧
  (∀ (s : State) (e : Entry), s.entry? e.eid = some e → (s.ccb e.hp e.ctx).state ≠ 3 → e.stage = 3 → e.kind = 5 →
      let b : MigBody := { va := e.field 191 128, newpa := e.field 255 192, npages := e.field 271 256, tier := e.field 273 272, msa := bitOf e.n 274 }
      let sz := match s.leafRun e.hp e.ctx b.va with | some r => r.sz | none => 0
      ((∃ m ∈ s.mem.migs, m.die = e.engine) → exec (.evMigratePacket e.eid) s = .next s) ∧
      ((∀ m ∈ s.mem.migs, m.die ≠ e.engine) →
        ((∀ i < b.npages, s.pageCheck e.hp e.ctx b sz i = none) →
          ∃ t m, exec (.evMigratePacket e.eid) s = .next t ∧ t.mem.migs = s.mem.migs ++ [m] ∧ t.entry? e.eid = some { e with stage := 4 } ∧ m.stage = 0 ∧ m.page = 0 ∧
            m.va = b.va ∧ m.newpa = b.newpa ∧ m.npages = b.npages ∧ m.newtier = b.tier ∧ m.newmsa = b.msa ∧ m.sz = sz ∧ m.eid = e.eid ∧ m.held = [] ∧
            m.die = e.engine ∧ m.tag = e.tag ∧ t.mem.bytes = s.mem.bytes ∧ t.slices = s.slices) ∧
        ((∃ i < b.npages, s.pageCheck e.hp e.ctx b sz i ≠ none) → e.tlid = 0 → e.irq = false → e.node = none →
          ∃ t, exec (.evMigratePacket e.eid) s = .next t ∧ t.mem.migs = s.mem.migs ∧ t.entry? e.eid = none ∧ t.slices = s.slices)))

/-! ## Releases, checks, fences and shoot-downs (06 R197, 07 R225 to R252) -/

/-- R191, R223, R225 to R228, R234, R238: a release that arrives is held with what it lacks, once the holders that it acquires from have published; the
Square seals it when nothing is owed, and its store is then in memory (or in the buffer, at team scope); one that lacked an acknowledgement, or
that follows an operation that a taint names, is contained: it is cancelled, and its team stopped. An acknowledgement of a line, no wider than the operation has
reached there, widens the scope of its operation, retires it, or shows a violation, which taints the slice. A load of host memory performs at
the host's completion, and takes POISON where that is an error. -/
def Obligations.ReleasesAndSquares : Prop :=
  ∀ (s : State) (o : Op), s.op? o.id = some o → valid o.ref → (∀ p ∈ s.mem.ops, p.kind ≠ .fence 1) →
    let r := o.ref
    let x := s.slice r
    let team := s.team r.tid
    let cl := s.clusterOf r
    let chk := s.check team.hp
    let counted := fun (t : State) (v : Nat) => (smGet 0 v (t.check team.hp).chkcnt).toNat = min ((smGet 0 v chk.chkcnt).toNat + 1) (2 ^ 64 - 1)
    let contained := fun (t : State) (v : Nat) => (t.slice r).trap.cause = 9 ∧ (t.slice r).trap.sub = BitVec.ofNat 8 v ∧ (t.slice r).trap.tpc = x.pc ∧
      (t.slice r).trap.tfpc = o.pc ∧ (t.slice r).stopped = true ∧ (t.slice r).pc = x.pc ∧ (t.team r.tid).stopped = true ∧ (team.stopped = false → (t.team r.tid).killed = some 9) ∧
      t.op? o.id = none ∧ (∀ p ∈ t.mem.ops, p.ref = r → o.id ≤ p.id → p.cls.trails = false) ∧ t.mem.bytes = s.mem.bytes
    (o.arrived = false → o.performed = false → (o.cls = .r ∨ o.cls = .x) → (s.l1 cl).wbuf = [] → s.mem.migs = [] → s.anyHeld o.id o.elems = false →
      ((o.cls = .x → s.outsideHolders r o.elems = []) →
        ∃ t, exec (.evReleaseArrival o.id) s = .next t ∧ t.op? o.id = some { o with arrived := true, lacking := s.owed o } ∧ t.mem.bytes = s.mem.bytes ∧
          t.slices = s.slices) ∧
      (o.cls = .x → s.outsideHolders r o.elems ≠ [] →
        ∃ t, exec (.evReleaseArrival o.id) s = .next t ∧ t.op? o.id = some o ∧ (∀ h ∈ s.outsideHolders r o.elems, h ∈ t.mem.publish) ∧ t.mem.bytes = s.mem.bytes ∧
          t.slices = s.slices)) ∧
    (o.arrived = true → o.performed = false → s.taintOf o = none → o.lacking = [] → s.owed o = [] → (o.scope = .sys → s.openWindows none = []) →
      (∀ e, o.kind = .store → Sole s o e → o.scope ≠ .team → ∃ t, exec (.evSquareSeal o.id) s = .next t ∧
        (∀ a, t.byteAt a = stored s.mem.bytes e.pa e.data a) ∧ Answered s t { o with pid := none } []) ∧
      (∀ e, o.kind = .store → Sole s o e → o.scope = .team → team.desc.pair = false → o.msa = false → o.host = false → ∃ t, exec (.evSquareSeal o.id) s = .next t ∧
        t.mem.bytes = s.mem.bytes ∧ (t.l1 cl).wbuf = (s.l1 cl).wbuf ++ [{ op := o.id, pa := e.pa, key := e.key, data := e.data, heldBy := none }] ∧
        (t.op? o.id).bind (·.acked) = some .team ∧ t.slices = s.slices) ∧
      (o.kind.endsItself = true → exec (.evSquareSeal o.id) s = .next ((s.narrowed { o with lacking := [] }).setOp { o with lacking := [], performed := true })) ∧
      (∀ ord, o.kind = .fence ord → ∃ t, exec (.evSquareSeal o.id) s = .next t ∧ t.op? o.id = none ∧ t.mem.bytes = s.mem.bytes ∧
        (∀ q, valid q → q ≠ r → t.slice q = s.slice q) ∧ { t.slice r with acqEpoch := x.acqEpoch } = x ∧
        (o.cls = .x → (o.scope ≠ .team ∨ team.desc.pair = true) → (t.l1 cl).sectors = []) ∧ (o.cls = .r → t.slice r = x ∧ (t.l1 cl).sectors = (s.l1 cl).sectors))) ∧
    (o.arrived = true → o.performed = false → (s.ccb team.hp team.ctx).ellog < 4 → (s.ccb team.hp team.ctx).tlogon = false → x.exited = false → x.pend = [] →
      x.moveTo = none → s.iss.fused = false → s.mem.blocked = false →
      (s.taintOf o = none → o.lacking ≠ [] → chk.sqobs = false → ∃ t, exec (.evSquareSeal o.id) s = .next t ∧ contained t 1 ∧ counted t 1) ∧
      (∀ v, s.taintOf o = some v → ∃ t, exec (.evSquareSeal o.id) s = .next t ∧ contained t v.viol)) ∧
    (∀ a : PerformAck, o.failed = false → o.cls ≠ .none → o.kind.actsLater = false → (o.elems = [] ∨ ∃ e ∈ o.elems, lineOf e.pa = a.line) →
      (∀ lim, s.reached o a.line = some lim →
        (s.ackViolation o a = none → ∃ t, exec (.evPerformAck o.id a) s = .next t ∧ t.slices = s.slices ∧ t.mem.bytes = s.mem.bytes ∧
          (∀ p ∈ t.mem.ops, p.id = o.id → p.interval a.line = a.interval ∧ ∃ w, smFind a.line p.acks = some w ∧ min a.scope.rank lim.rank ≤ w.rank ∧
            ∀ b, smFind a.line o.acks = some b → b.rank ≤ w.rank) ∧
          (o.performed = true → (∀ e ∈ o.elems, lineOf e.pa = a.line) → (if o.host then 3 else 2) ≤ min a.scope.rank lim.rank →
            (∀ p ∈ s.mem.ops, o.id ∉ p.lacking ∧ (p.cls.trails = true → p.performed = false → p.ref = r → p.id ≤ o.id)) → t.op? o.id = none)) ∧
        (∀ v p, s.ackViolation o a = some (v, p) → chk.sqobs = false → x.taint = none → ∃ t, exec (.evPerformAck o.id a) s = .next t ∧ counted t v ∧
          t.slice r = { x with taint := some { viol := v, checker := { kind := 0, inst := cl }, off := some p.offender } })) ∧
      (s.reached o a.line = none → o.host = false → exec (.evPerformAck o.id a) s = .next s) ∧
      (∀ e ty sc d, Sole s o e → o.kind = .load ty sc d → o.host = true → o.cls = .l → (s.l1 cl).wbuf = [] →
        ∃ t, exec (.evPerformAck o.id a) s = .next t ∧ t.mem.bytes = s.mem.bytes ∧ (∀ q, valid q → q ≠ r → t.slice q = s.slice q) ∧
          ∀ pid, o.pid = some pid → (t.slice r).pend =
            (if a.err then settle pid (some []) 0 (some { cause := 6, sub := 0, lanes := 2 ^ e.lane, addr := e.va }) x.pend
             else settle pid (some (resultWrites ty sc e.lane d (natOfBytes (memReadN s.mem.bytes e.pa e.size)))) 0 none x.pend)))

/-- R188, R228, R231 to R237, R242, R244: a Scribe takes a transfer that passes its checks, poisoning the sectors in which the sender found an error;
one with a wrong hash, that breaks the single-writer rule, or that is no receipt of its write is counted and poisons its line; in OBSERVE mode it
is counted and passes. A window whose ends agree closes, and those that wait for it wait no more; ends that differ exchange their records,
every line named is poisoned, and the slices that the grants were for are tainted. A gap in a sequence discards the messages held behind it and taints their slices. -/
def Obligations.Scribes : Prop :=
  ∀ (s : State) (x : Transfer) (home peer : ScribeId) (src dst : Nat),
    let quiet := ∀ p ∈ s.mem.ops, p.kind ≠ .fence 1
    let counted := fun (t : State) (hp v : Nat) => (smGet 0 v (t.check hp).chkcnt).toNat = min ((smGet 0 v (s.check hp).chkcnt).toNat + 1) (2 ^ 64 - 1)
    let poisons := fun (t : State) (line : Nat) => ∀ k < 4, t.poisoned (line * 128 + 32 * k) 32 = true
    let unit := unitOf x.unit
    let is := fun (y : Xfer) => y.is x unit
    let hash := x.hash ≠ lineHash (x.line * 128) x.interval x.data
    let swmr := (∃ k, smFind (knownKey x.line unit) s.mem.known = some k ∧ intervalBefore x.interval k = true) ∨ s.lostCopy x unit = true ∨
      (s.directory x.line).coherent = false
    let receipt := wrongReceipt x unit (s.mem.xfers.find? is) = true
    let sound := x.bad = 0 ∧ x.fixed = 0
    (quiet → ¬ hash → ¬ swmr → ¬ receipt → ∃ t, exec (.evScribeTransferCheck x) s = .next t ∧ smFind (knownKey x.line unit) t.mem.known = some x.interval ∧
      t.mem.xfers = dropFirst is s.mem.xfers ∧ (x.line, unit) ∉ t.mem.notCurrent ∧ t.slices = s.slices ∧ t.mem.bytes = s.mem.bytes ∧
      (∀ k < 4, x.bad.getLsbD k = true → t.poisoned (x.line * 128 + 32 * k) 32 = true) ∧
      (sound → { t with mem := { t.mem with known := s.mem.known, windows := s.mem.windows, xfers := s.mem.xfers, notCurrent := s.mem.notCurrent, ops := s.mem.ops } } = s)) ∧
    (quiet → hash ∨ swmr ∨ receipt → sound → (∀ id, x.client ≠ .op id ∧ (x.client = .copy id → s.tstoRef id = none)) → (∀ o ∈ s.mem.ops, o.id ∉ s.waitingOn x.line unit x.client) →
      (s.scribeObserves x.hp x.unit = false → ∃ t, exec (.evScribeTransferCheck x) s = .next t ∧ poisons t x.line ∧ t.mem.bytes = s.mem.bytes ∧ t.slices = s.slices ∧
        (∀ c ∈ t.copy.copies, x.client = .copy c.cid → c.lost ≠ none) ∧ (∀ m ∈ t.mem.migs, x.client = .mig m.mid → m.lost ≠ none) ∧
        (hash → counted t x.hp 5 ∧ (smGet 0 14 t.dev.errcnt).toNat = min ((smGet 0 14 s.dev.errcnt).toNat + 1) (2 ^ 64 - 1)) ∧
        (¬ hash → counted t x.hp (if swmr then 6 else 9) ∧ t.dev = s.dev)) ∧
      (s.scribeObserves x.hp x.unit = true → ∃ t, exec (.evScribeTransferCheck x) s = .next t ∧ t.mem.bytes = s.mem.bytes ∧ t.mem.poison = s.mem.poison ∧
        t.slices = s.slices ∧ counted t x.hp (if hash then 5 else if swmr then 6 else 9) ∧
        ((∃ k, smFind (knownKey x.line unit) s.mem.known = some k ∧ intervalBefore x.interval k = true) → (x.line, unit) ∈ t.mem.notCurrent))) ∧
    (∀ w, s.mem.windows.find? (fun w => w.home == home && w.peer == peer) = some w →
      (w.homeRecs = w.peerRecs → ∃ t, exec (.evScribeWindowClose home peer) s = .next t ∧
        (∀ u ∈ t.mem.windows, u.home = home → u.peer = peer → u.homeRecs = [] ∧ u.peerRecs = []) ∧ (s.closesNow w = true → t.clk = s.clk) ∧
        (w.bad = [] → ∀ p ∈ t.mem.ops, (p.kind = .seal ∨ p.kind = .chkr) → winKey home peer ∉ p.lacking) ∧ t.slices = s.slices ∧ t.mem.bytes = s.mem.bytes) ∧
      (w.homeRecs ≠ w.peerRecs → ∃ t, exec (.evScribeWindowClose home peer) s = .next t ∧
        { t with mem := { t.mem with windows := s.mem.windows }, clk := s.clk } = s ∧ ∃ u, t.mem.windows.find? (fun w => w.home == home && w.peer == peer) = some u ∧
          u.homeRecs = [] ∧ u.peerRecs = [] ∧ u.bad ≠ [] ∧ (∀ q, (q ∈ w.homeRecs ∧ q ∉ w.peerRecs) ∨ (q ∈ w.peerRecs ∧ q ∉ w.homeRecs) → q ∈ u.bad) ∧
          ∀ q ∈ u.bad, q ∈ w.bad ∨ q ∈ w.homeRecs ∨ q ∈ w.peerRecs) ∧
      (∀ f fs, w.bad = f :: fs →
        let hp := s.hpOfLine f.line
        s.scribeObserves hp home = false → (∀ o ∈ s.mem.ops, o.failed = false → ∀ e ∈ o.elems, ∀ q ∈ w.bad, lineOf e.pa ≠ q.line) →
        (∀ q ∈ w.bad, ∀ c, q.cause = some c → valid c) →
        ∃ t, exec (.evScribeRecordExchange home peer) s = .next t ∧ (∀ q ∈ w.bad, poisons t q.line) ∧ counted t hp 7 ∧
          (∀ u ∈ t.mem.windows, u.home = home → u.peer = peer → u.bad = []) ∧ t.mem.bytes = s.mem.bytes ∧
          ∀ c, valid c → ((∀ q ∈ w.bad, q.cause ≠ some c) → t.slice c = s.slice c) ∧
            ((∃ q ∈ w.bad, q.cause = some c) → (s.slice c).exited = false → (s.slice c).taint = none →
              t.slice c = { s.slice c with taint := some { viol := 7, checker := home, off := none } }))) ∧
    (smGet 0 (16 * src + dst) s.mem.seqTx = smGet 0 (16 * src + dst) s.mem.seqRx → exec (.evSeqGapTimeout src dst) s = .next s) ∧
    (∀ p q : Op, s.mem.ops = [p, q] → s.underWay src dst = [p, q] → smGet 0 (16 * src + dst) s.mem.seqTx ≠ smGet 0 (16 * src + dst) s.mem.seqRx → valid q.ref →
      q.kind ≠ .chkr → p.id ≠ q.id → q.acked = none → (s.slice q.ref).taint = none →
      let hp := s.hpOfCluster src
      let chk := homeScribe dst (match p.elems with | e :: _ => lineOf e.pa | [] => 0)
      s.scribeObserves hp chk = false →
      ∃ t, exec (.evSeqGapTimeout src dst) s = .next t ∧ counted t hp 8 ∧ t.mem.ops = [p, { q with failed := true }] ∧ t.mem.bytes = s.mem.bytes ∧
        (∀ c, valid c → c ≠ q.ref → t.slice c = s.slice c) ∧
        t.slice q.ref = { s.slice q.ref with taint := some { viol := 8, checker := chk, off := some q.offender } })

/-- 06 R197, 07 R248 to R250: an sc fence, SEAL, CHKR and ICINV hold their slice until what they wait for is done, and then let it go on; a CHKR
fetches its line once the slice's stores to it have performed, asks for the windows of the line to close once the transfer has been checked, and ends with
them; ICINV leaves its line in no instruction cache of its scope. R243, R246, R251, R252: writes of the checker registers, with LOCK and a trusted interface in RUN to guard them, and the shoot-down of
translations: a command that is not well-formed sets ERR, another removes what it names from every TLB, and ends when the accesses noted have performed
at dev scope. -/
def Obligations.CheckerSteps : Prop :=
  (∀ (s : State) (o : Op), s.op? o.id = some o → valid o.ref → (s.slice o.ref).taint = none → (s.slice o.ref).wait = .op o.id → (∀ p ∈ s.mem.ops, p.kind ≠ .fence 1) →
      let cl := s.clusterOf o.ref
      let earlier := fun (test : Op → Prop) => ∀ p ∈ s.mem.ops, p.ref = o.ref → p.id < o.id → p.cls ≠ .none → test p
      let goesOn := fun (i : Instr) (post : State → Prop) => ∃ t, exec i s = .next t ∧ t.op? o.id = none ∧
        { t.slice o.ref with acqEpoch := (s.slice o.ref).acqEpoch } = { s.slice o.ref with wait := .none } ∧
        (∀ q, valid q → q ≠ o.ref → t.slice q = s.slice q) ∧ t.mem.bytes = s.mem.bytes ∧ post t
      (o.kind = .fence 0 → o.cls = .q →
        (earlier (fun p => p.ackedAt (pairScope p o) = true) → (∀ w ∈ (s.l1 cl).wbuf, o.id ≤ w.op) →
          ((o.scope ≠ .team ∨ (s.team o.ref.tid).desc.pair = true) → ∀ p ∈ s.mem.ops, s.clusterOf p.ref = cl → p.id < o.id → p.cls ≠ .none → p.kind ≠ .fence 0 → p.performed = true) →
          (o.scope = .sys → s.openWindows none = []) → goesOn (.evFenceScComplete o.id) fun t =>
            t.l1 cl = { s.l1 cl with sectors := (t.l1 cl).sectors, epoch := (t.l1 cl).epoch } ∧
            ((o.scope ≠ .team ∨ (s.team o.ref.tid).desc.pair = true) → (t.l1 cl).sectors = [])) ∧
        ((∃ w ∈ (s.l1 cl).wbuf, w.op < o.id) → exec (.evFenceScComplete o.id) s = .next s)) ∧
      (o.kind = .seal →
        (earlier (fun p => p.ackedAt o.scope = true ∧ (p.cls.trails = true → p.performed = true)) → o.lacking = [] → goesOn (.evSealComplete o.id) fun _ => True) ∧
        ((o.lacking ≠ [] ∨ ∃ p ∈ s.mem.ops, p.ref = o.ref ∧ p.id < o.id ∧ p.cls ≠ .none ∧ p.ackedAt o.scope = false) → exec (.evSealComplete o.id) s = .next s)) ∧
      (o.kind = .chkr →
        (o.host = true → goesOn (.evChkrComplete o.id) fun _ => True) ∧
        (o.host = false → o.arrived = false → s.anyHeld o.id o.elems = false →
          (earlier (fun p => p.kind.isLoad = false → p.kind.gatherOf = none → elemsOverlap p.elems o.elems = true → p.ackedAt .dev = true) →
            ∃ t, exec (.evChkrComplete o.id) s = .next t ∧ t.op? o.id = some { o with arrived := true, performed := true } ∧ t.slices = s.slices ∧
              ∀ e es, o.elems = e :: es → ∃ x ∈ t.mem.xfers, x.line = lineOf e.pa ∧ x.client = .op o.id ∧ x.write = false) ∧
          ((∃ p ∈ s.mem.ops, p.ref = o.ref ∧ p.id < o.id ∧ p.cls ≠ .none ∧ p.kind.isLoad = false ∧ p.kind.gatherOf = none ∧ elemsOverlap p.elems o.elems = true ∧ p.ackedAt .dev = false) →
            exec (.evChkrComplete o.id) s = .next s)) ∧
        (o.host = false → o.arrived = true →
          ((∃ x ∈ s.mem.xfers, x.client = .op o.id) → exec (.evChkrComplete o.id) s = .next s) ∧
          ((∀ x ∈ s.mem.xfers, x.client ≠ .op o.id) →
            (o.clear = false → exec (.evChkrComplete o.id) s = .next (s.setOp { o with clear := true, lacking := s.openWindows (some (opLines o.elems)) })) ∧
            (o.clear = true → o.lacking ≠ [] → exec (.evChkrComplete o.id) s = .next s) ∧
            (o.clear = true → o.lacking = [] → goesOn (.evChkrComplete o.id) fun _ => True)))) ∧
      (o.kind = .icinv → earlier (fun p => p.cls ≠ .l → p.ackedAt (Scope.wider .die o.scope) = true) →
        goesOn (.evIcinvComplete o.id) fun t => ∀ e es, o.elems = e :: es → ∀ c ∈ s.icinvClusters o, smFind (lineOf e.pa) (t.l1 c).icache = none)) ∧
  (∀ (s : State) (hp : Nat) (v : Quad), hp < 4 →
      let c := s.check hp
      let n := v.toNat
      let only := fun (t : State) => { t with checks := s.checks } = s ∧ ∀ h, h ≠ hp → t.check h = s.check h
      (c.lock = true → exec (.evChkmodeWrite hp v) s = .next s) ∧
      (s.tdiRun hp = true → (v.getLsbD 0 = true ∨ v.getLsbD 1 = true) → exec (.evChkmodeWrite hp v) s = .next s) ∧
      (c.lock = false → (s.tdiRun hp = false ∨ (v.getLsbD 0 = false ∧ v.getLsbD 1 = false)) → ∃ t, exec (.evChkmodeWrite hp v) s = .next t ∧ only t ∧
        t.check hp = { c with sqobs := v.getLsbD 0, scobs := v.getLsbD 1, lock := v.getLsbD 2 }) ∧
      (s.tdiRun hp = true → v.getLsbD 0 = true → exec (.evOrdinjWrite hp v) s = .next s) ∧
      ((s.tdiRun hp = false ∨ v.getLsbD 0 = false) → ∃ t, exec (.evOrdinjWrite hp v) s = .next t ∧ only t ∧
        { t.check hp with ordinj := c.ordinj } = c ∧ (t.check hp).ordinj.getLsbD 0 = v.getLsbD 0 ∧ (t.check hp).ordinj.getLsbD 1 = (c.ordinj.getLsbD 1 && !v.getLsbD 1) ∧
        (t.check hp).ordinj.getLsbD 2 = v.getLsbD 2 ∧ (∀ k, 8 ≤ k → k < 22 → (t.check hp).ordinj.getLsbD k = v.getLsbD k) ∧
        (∀ k, (3 ≤ k ∧ k < 8) ∨ 22 ≤ k → (t.check hp).ordinj.getLsbD k = false)) ∧
      (v.getLsbD 24 = false → exec (.evShootdownGo hp v) s = .next s) ∧
      (v.getLsbD 24 = true → s.dev.hostq ≠ [] → exec (.evShootdownGo hp v) s = .next s.block) ∧
      (v.getLsbD 24 = true → s.dev.hostq = [] → (c.sdBusy = true ∨ (n / 2 ^ 12 % 2 ^ 12 = 0 ∧ v.getLsbD 7 = false) ∨ v.getLsbD 11 = true ∨ n / 2 ^ 25 ≠ 0) →
        ∃ t, exec (.evShootdownGo hp v) s = .next t ∧ only t ∧ t.check hp = { c with sdErr := true }) ∧
      (v.getLsbD 24 = true → s.dev.hostq = [] → c.sdBusy = false → (n / 2 ^ 12 % 2 ^ 12 ≠ 0 ∨ v.getLsbD 7 = true) → v.getLsbD 11 = false → n / 2 ^ 25 = 0 →
        let lo := c.sdva.toNat / 2 ^ 12 % 2 ^ 45 * 4096
        let size := n / 2 ^ 12 % 2 ^ 12 * 2 ^ pageBits (n / 2 ^ 8 % 8)
        let named := fun (x : TlbEntry) => x.hp = hp ∧ (v.getLsbD 6 = true ∨ (x.glob = false ∧ x.ctx = n % 64)) ∧
          (v.getLsbD 7 = true ∨ overlap lo size (x.va % 2 ^ 57) (2 ^ x.size) = true)
        ∃ t, exec (.evShootdownGo hp v) s = .next t ∧ (∀ k x, x ∈ t.l1Tlb k ↔ x ∈ s.l1Tlb k ∧ ¬ named x) ∧ (∀ k x, x ∈ t.l2Tlb k ↔ x ∈ s.l2Tlb k ∧ ¬ named x) ∧
          (t.check hp).sdBusy = true ∧
          (∀ o ∈ s.mem.ops, ∀ e ∈ o.elems, (s.team o.ref.tid).hp = hp → e.pa < 2 ^ 60 → (v.getLsbD 6 = true ∨ (s.team o.ref.tid).ctx = n % 64) →
            (v.getLsbD 7 = true ∨ overlap lo size (e.va.toNat % 2 ^ 57) 1 = true) → o.id ∈ (t.check hp).sdOps) ∧
          { t with mem := { t.mem with l1tlb := s.mem.l1tlb, l2tlb := s.mem.l2tlb }, checks := s.checks } = s) ∧
      (c.sdBusy = true → ((∃ o ∈ s.mem.ops, o.id ∈ c.sdOps ∧ o.ackedAt .dev = false) → exec (.evShootdownDone hp) s = .next s) ∧
        ((∀ o ∈ s.mem.ops, o.id ∈ c.sdOps → o.ackedAt .dev = true) → ∃ t, exec (.evShootdownDone hp) s = .next t ∧ only t ∧
          t.check hp = { c with sdBusy := false, sdOps := [], sdDone := c.sdDone + 1 })))

/-! ## Steps of the sync engine (08 R257 to R287) -/

/-- R257, R259, R262 to R267, R272: an arrival that its word accepts lowers PENDING by 1 (and NEXT for a drop) and lets its slice go on; the last one
flips PHASE, sets EXPECTED and PENDING to NEXT, and wakes the gangs that wait two clocks on; one that the word refuses takes BARRIER. BARI
writes the word and BARX clears its VALID. HALFDONE flips a half whose own arrivals are complete, and is noted by one whose are not. R275, R287: a group arrival that its slot allows lowers the entry's PENDING, and the last one flips its phase; a second arrival in the phase takes
BARRIER. An arrival for a team whose context is saved acts on the word in the image. -/
def Obligations.BarrierWordsAndGroups : Prop :=
  ((∀ (s : State) (o : Op) (half off : Nat) (flag : Bool), s.mem.ops = [o] → valid o.ref → o.performed = true → (s.team o.ref.tid).away = false →
      let r := o.ref
      let x := s.slice r
      let team := s.team r.tid
      let own := if smGet false (scratchKey half off) team.paired then team.halfOf r.bent else half
      let word := fun (t : State) (h : Nat) => natOfBytes (bytesGet (t.team r.tid).scratch (scratchKey h off) 8)
      let w := word s own
      let pending := w / 2 ^ 16 % 2 ^ 16
      let next := w / 2 ^ 32 % 2 ^ 16
      let phase := bitOf w 48
      let packed := fun (n : Nat) (ph unit_ : Bool) => n + n * 2 ^ 16 + n * 2 ^ 32 + bitVal ph * 2 ^ 48 + 2 ^ 49 + bitVal unit_ * 2 ^ 50
      let goesOn := fun (i : Instr) (post : State → Prop) => ∃ t, exec i s = .next t ∧ t.mem.ops = [] ∧ (t.slice r).pc = x.pc ∧ (t.slice r).wait = .none ∧
        (t.slice r).s = x.s ∧ (t.slice r).v = x.v ∧ (t.slice r).preds = x.preds ∧ t.mem.bytes = s.mem.bytes ∧ post t
      (∀ what v, (what = 0 ∨ what = 1) → o.kind = .barrier what half off flag v →
        let drop := what = 1
        let accepted := w / 2 ^ 51 = 0 ∧ bitOf w 49 = true ∧ bitOf w 50 = flag ∧ scratchKey own off ∉ x.drops ∧ 1 ≤ pending ∧ (drop → 1 ≤ next)
        let n := if drop then next - 1 else next
        (accepted → x.wait = .arrival o.grp →
          (2 ≤ pending → goesOn (.evBarrierArrivalCount o.id) fun t => word t own = w - 2 ^ 16 - (if drop then 2 ^ 32 else 0)) ∧
          (pending = 1 → smGet false (scratchKey own off) team.paired = false → goesOn (.evBarrierArrivalCount o.id) fun t => word t own = packed n (!phase) flag ∧
            ∀ q, valid q → q.tid = r.tid → q ≠ r → (s.slice q).wait = .barrier own off phase → (∃ g, s.gangsOf q.tid q.bent = [g] ∧ g.mask = 1#8 <<< q.sl) →
              (t.slice q).wait = .wake (s.partClock (s.partOfSlice q) + 2) .team)) ∧
        (¬ accepted → x.pend = [] → x.tmode = false → team.desc.handler ≠ 0xFFFFFFFF → (s.ccb team.hp team.ctx).tlogon = false →
          x.moveTo = none → s.iss.fused = false → s.mem.blocked = false →
          ∃ t, exec (.evBarrierArrivalCount o.id) s = .next t ∧ t.mem.ops = [] ∧ word t own = w ∧
            Trapped s t r (faultAll causeBarrier (if w / 2 ^ 51 ≠ 0 then 4 else if bitOf w 49 = false then 2 else if bitOf w 50 ≠ flag then 3 else 1)) o.pc o.pc o.inst)) ∧
      (∀ v : Quad, smGet false (scratchKey half off) team.paired = false → s.wordParked r.tid half off = false → s.wordNamed r.tid half off = false → x.wait = .arrival o.grp →
        (o.kind = .barrier 2 half off false v → goesOn (.evBarrierArrivalCount o.id) fun t => word t half = packed (v.toNat % 2 ^ 16) (v.getLsbD 48) (v.getLsbD 50)) ∧
        (o.kind = .barrier 3 half off flag v → goesOn (.evBarrierArrivalCount o.id) fun t => word t half = w - (if bitOf w 49 then 2 ^ 49 else 0)))) ∧
    (∀ (s : State) (tid half off : Nat), (half, off) ∈ (s.team tid).halfdone →
        let word := fun (t : State) => natOfBytes (bytesGet (t.team tid).scratch (scratchKey half off) 8)
        let u := word s
        let m := u / 2 ^ 32 % 2 ^ 16
        ∃ t, exec (.evHalfdone tid half off) s = .next t ∧ t.mem = s.mem ∧
        (u / 2 ^ 16 % 2 ^ 16 ≠ 0 → word t = u ∧ smGet false (scratchKey half off) (t.team tid).remote = true) ∧
        (u / 2 ^ 16 % 2 ^ 16 = 0 → m ≠ 0 → u / 2 ^ 51 = 0 → bitOf u 49 = true → word t = m + m * 2 ^ 16 + m * 2 ^ 32 + bitVal (!bitOf u 48) * 2 ^ 48 + 2 ^ 49 + bitVal (bitOf u 50) * 2 ^ 50))) ∧
  (∀ (s : State) (o : Op), s.mem.ops = [o] → valid o.ref → o.performed = true →
      let r := o.ref
      let x := s.slice r
      let team := s.team r.tid
      (∀ slot drop e, o.kind = .group slot drop → team.away = false → slot < 4 →
        let g := team.groups.getD slot 0xFFFF
        let entries := fun (t : State) => smGet [] team.launch t.sync.groups
        (entries s)[g]? = some e →
        (team.arrived.getLsbD slot = false → team.dropped.getLsbD slot = false → x.wait = .arrival o.grp →
          let next := if drop then e.next - 1 else e.next
          ∃ t, exec (.evGroupArrival o.id) s = .next t ∧ t.mem.ops = [] ∧ (t.slice r).pc = x.pc ∧ (t.slice r).wait = .none ∧
            (entries t)[g]? = some (if e.pending ≤ 1 then { expected := next, pending := next, next := next, phase := !e.phase } else { e with pending := e.pending - 1, next := next }) ∧
            (∀ k, k ≠ g → (entries t)[k]? = (entries s)[k]?) ∧ (drop = true → (t.team r.tid).dropped.getLsbD slot = true)) ∧
        ((team.arrived.getLsbD slot = true ∨ team.dropped.getLsbD slot = true) → x.pend = [] → x.tmode = false → team.desc.handler ≠ 0xFFFFFFFF →
          (s.ccb team.hp team.ctx).tlogon = false → x.moveTo = none → s.iss.fused = false → s.mem.blocked = false →
          ∃ t, exec (.evGroupArrival o.id) s = .next t ∧ t.mem.ops = [] ∧ t.sync = s.sync ∧ Trapped s t r (faultAll causeBarrier 1) o.pc o.pc o.inst)) ∧
      (∀ half off v e f, o.kind = .barrier 0 half off false v → team.away = true → team.desc.pair = false → half = 0 → x.drops = [] →
        let base := (s.ccb team.hp team.ctx).imgbase.toNat
        let va := base + team.wordAt half off
        let sh := base + team.shadowAt half off
        let pa := physical e va
        let w := natOfBytes (memReadN s.mem.bytes pa 8)
        va % 8 = 0 → va + 8 ≤ 2 ^ 64 → sh < 2 ^ 64 → Serves s team.hp team.ctx .write va e → Serves s team.hp team.ctx .read va e → s.poisoned pa 8 = false →
        Serves s team.hp team.ctx .write sh f → Serves s team.hp team.ctx .read sh f → s.poisoned (physical f sh) 1 = false →
        (physical f sh < pa ∨ pa + 8 ≤ physical f sh) → natOfBytes (memReadN s.mem.bytes (physical f sh) 1) = 0 →
        w / 2 ^ 51 = 0 → bitOf w 49 = true → bitOf w 50 = false → 2 ≤ w / 2 ^ 16 % 2 ^ 16 →
        ∃ t, exec (.evRedirectedArrival o.id) s = .next t ∧ t.op? o.id = none ∧ natOfBytes (memReadN t.mem.bytes pa 8) = w - 2 ^ 16 ∧
          ∀ q, valid q → t.slice q = s.slice q))

/-- R277, R279, R280: a push joins the on-chip ring while it has room, and is refused by a full queue without a spill ring or one in error; a pop takes the oldest
entry, or reads zeros; QST answers with the count and the state; a spilled entry moves to the ring; the control record is written as its rules say. -/
def Obligations.QueueSteps : Prop :=
  (∀ (s : State) (o : Op) (e : Elem) (q : Nat), s.mem.ops = [o] → valid o.ref → o.elems = [e] →
    let x := s.queue q
    let ends := fun (i : Instr) (ws : List RegWrite) (y : Queue) => ∃ t, exec i s = .next t ∧ Answered s t o ws ∧ t.mem.ops = [] ∧ t.queue q = y ∧
      (∀ k, k ≠ q → t.queue k = s.queue k) ∧ t.mem.bytes = s.mem.bytes
    x.valid = true →
    (∀ p, o.kind = .push q p → o.performed = true →
      (x.scount = 0 → x.ring.length < 256 → x.err = false → ends (.evQueuePushArrival o.id) [{ reg := .p p, lane := e.lane, val := 1 }] { x with ring := x.ring ++ [e.data] }) ∧
      ((x.err = true ∨ (256 ≤ x.ring.length ∧ (x.splog = 0 ∨ 2 ^ x.splog ≤ x.scount))) → ends (.evQueuePushArrival o.id) [{ reg := .p p, lane := e.lane, val := 0 }] x)) ∧
    (∀ d p, o.kind = .pop q d p →
      (∀ b bs, x.ring = b :: bs → ends (.evQueuePopArrival o.id) (resultWrites .b128 false e.lane d (natOfBytes b) ++ [{ reg := .p p, lane := e.lane, val := 1 }]) { x with ring := bs }) ∧
      (x.ring = [] → x.scount = 0 → ends (.evQueuePopArrival o.id) (resultWrites .b128 false e.lane d 0 ++ [{ reg := .p p, lane := e.lane, val := 0 }]) x)) ∧
    (∀ d, o.kind = .stat q d →
      let room := x.scount = 0 ∧ x.ring.length < 256
      let spill := 0 < x.splog ∧ x.scount < 2 ^ x.splog ∧ x.err = false
      ends (.evQueueStatArrival o.id) [{ reg := .s d, lane := 0, val := BitVec.ofNat 32 (x.ring.length + x.scount) },
        { reg := .s (d + 1), lane := 0, val := BitVec.ofNat 32 (x.splog + (if x.err then 2 ^ 8 else 0) + (if room ∨ spill then 0 else 2 ^ 9)) }] x)) ∧
  (∀ (s : State) (q : Nat) (f : TlbEntry),
      let x := s.queue q
      let va := x.spbase.toNat + 16 * (x.shead % 2 ^ x.splog)
      x.valid = true → x.scount = 1 → x.ring.length < 256 → x.err = false → Serves s (s.queueHp q) x.ctx .read va f → s.poisoned (physical f va) 16 = false →
      ∃ t, exec (.evSpillMove q) s = .next t ∧ t.mem = s.mem ∧
        t.queue q = { x with ring := x.ring ++ [memReadN s.mem.bytes (physical f va) 16], shead := (x.shead + 1) % 2 ^ x.splog, scount := 0 }) ∧
  (∀ (s : State) (q : Nat) (v : Quad), q < 4096 →
      let x := s.queue q
      ∃ t, exec (.evQcrWrite q 0 v) s = .next t ∧ t.mem = s.mem ∧ (∀ k, k ≠ q → t.queue k = s.queue k) ∧
      (t.queue q).valid = v.getLsbD 0 ∧
      (t.queue q).ctx = (if x.valid then x.ctx else v.toNat / 2 ^ 8 % 2 ^ 6) ∧ (t.queue q).splog = (if x.valid then x.splog else v.toNat / 2 ^ 16 % 2 ^ 5) ∧ (t.queue q).err = (x.err && !v.getLsbD 1) ∧
      (t.queue q).ring = (if v.getLsbD 0 then x.ring else []) ∧ (t.queue q).scount = (if v.getLsbD 0 = true ∧ v.getLsbD 1 = false then x.scount else 0))

/-! ## Packets (01 R34 to R40, 11 R340 to R357) -/

/-- R35, R37, 09 R291, 11 R350, R351: the pool's clock work and the packets that the distributor runs itself. An entry becomes ready at its time, gains a
level for each millisecond, and goes on after its prefetch; NOP completes at once and raises its timeline's value; SIGNAL stores, adds or takes the
maximum, but no maximum in host memory (06 R191); WAIT completes when its timeline has reached the value, or in error at its timeout. A consumer that finds the slot's phase right starts
its packet and advances RDIDX. R293, R297, R344, R347, R348, R357, 13 R408: packets for the engines. COPY and SCRUB give their engine the work that the body describes; KERNEL starts a launch of
the descriptor that it reads, or is rejected; DOVETAIL and COLLECTIVE are posted to their half; GRAPH starts a graph whose header and nodes are
sound. A node that has completed, and a NODEGO, take one from their successors' LIVE, and the last admits it. -/
def Obligations.Packets : Prop :=
  ((∀ (s : State) (e : Entry), s.entry? e.eid = some e →
      let be := fun (i : Instr) (e' : Entry) (time : Nat) => ∃ t, exec i s = .next t ∧ EntryIs s t e' ∧ time ≤ t.ns ∧
        { t with clk := s.clk, dist := { t.dist with entries := s.dist.entries } } = s
      (e.stage = 0 → be (.evEntryReady e.eid) { e with stage := 1, ready := max s.ns e.until_ } e.until_) ∧
      (e.stage = 1 → 0 < e.level → be (.evLevelAging e.eid) { e with level := e.level - 1 } (e.ready + (e.cls - e.level + 1) * 1000000)) ∧
      (e.stage = 2 → s.running e.hp e.ctx = true → ∃ t, exec (.evPrefetchWaitEnd e.eid) s = .next t ∧
        EntryIs s t { e with stage := 3, tag := (s.ccb e.hp e.ctx).ptag } ∧ (e.node = none → t.mem = s.mem) ∧
        { t with mem := { t.mem with sill := s.mem.sill }, dist := { t.dist with entries := s.dist.entries } } = s) ∧
      (Starts s e 0 → Plain e → ∃ t, exec (.evNopPacket e.eid) s = .next t ∧ EntryEnds s t e) ∧
      (∀ va x, Starts s e 0 → e.tlid ≠ 0 → e.irq = false → e.node = none → s.findTimeline e.hp e.ctx e.tlid = (some va, s) → Serves s e.hp e.ctx .write va x →
        ∃ t, exec (.evNopPacket e.eid) s = .next t ∧ t.entry? e.eid = none ∧
          StoresAt s t (physical x va) (bytesOfNat 8 (max (natOfBytes (memReadN s.mem.bytes (physical x va) 8)) e.tlval) ++ memReadN s.mem.bytes (physical x va + 8) 16)) ∧
      (∀ x, let va := e.field 191 128
        let op := e.field 257 256
        let v := e.field 255 192
        let old := natOfBytes (memReadN s.mem.bytes (physical x va) 8)
        Starts s e 8 → Plain e → op < 3 → Serves s e.hp e.ctx (if op = 0 then .write else .atomic) va x → s.poisoned (physical x va) 8 = false →
        s.mem.migs = [] → s.lineHeld (lineOf (physical x va)) 0 = false → s.openWindows none = [] →
        let refused := op = 2 ∧ (s.region e.hp (physical x va)).isHost = true
        ∃ t, exec (.evSignalPacket e.eid) s = .next t ∧ t.entry? e.eid = none ∧ (refused → t.mem.bytes = s.mem.bytes) ∧
          (¬ refused → StoresAt s t (physical x va) (bytesOfNat 8 (if op = 0 then v else if op = 1 then old + v else max old v)))) ∧
      (Starts s e 9 → be (.evWaitPacket e.eid) { e with stage := 4, until_ := s.ns + e.field 319 256 } 0) ∧
      (e.stage = 4 → e.kind = 9 → Plain e →
        (∀ va f, s.timelineVa e.hp e.ctx (e.field 143 128) = some va → s.timeline e.hp e.ctx va = some f →
          (e.field 255 192 ≤ f.1 → ∃ t, exec (.evWaitSatisfied e.eid) s = .next t ∧ EntryEnds s t e) ∧
          (f.1 < e.field 255 192 → exec (.evWaitSatisfied e.eid) s = .next s)) ∧
        (e.field 319 256 ≠ 0 → ∃ t, exec (.evWaitTimeout e.eid) s = .next t ∧ t.entry? e.eid = none ∧ e.until_ ≤ t.ns ∧ t.mem = s.mem) ∧
        (e.field 319 256 = 0 → exec (.evWaitTimeout e.eid) s = .next s))) ∧
    (∀ (s : State) (hp ctx q : Nat) (x : QueueReg) (hd : List Byte) (idx : Nat) (pkt : List Byte) (w : TlbEntry),
        let p := newEntry s hp ctx none q idx pkt
        s.userQueue hp ctx q = some x → x.bind = false → x.prev = none → s.openWindows none = [] → s.running hp ctx = true → s.poolCount hp ctx < 4096 →
        hd.length = 32 → Holds s hp ctx x.hdr hd → bitsOf (natOfBytes hd) 191 128 = idx → bitOf (natOfBytes hd) 72 = false →
        pkt.length = 64 → Holds s hp ctx ((x.rbase + 64 * (idx % 2 ^ x.log2n)) % 2 ^ 64) pkt →
        (bitsOf (natOfBytes pkt) 31 24 ≠ (idx / 2 ^ x.log2n + 1) % 256 → exec (.evQueueSlotRead hp ctx q) s = .next s) ∧
        (bitsOf (natOfBytes pkt) 31 24 = (idx / 2 ^ x.log2n + 1) % 256 → Serves s hp ctx .write (x.hdr + 16) w → Sound p →
          ∃ t n, exec (.evQueueSlotRead hp ctx q) s = .next t ∧ StoresAt s t (physical w (x.hdr + 16)) (bytesOfNat 8 (idx + 1)) ∧
            t.dist.entries = s.dist.entries ++ [n] ∧ n.pkt = pkt ∧ n.hp = hp ∧ n.ctx = ctx ∧ n.q = q ∧ n.idx = idx ∧ n.level = n.cls ∧
            n.stage = (if s.ns < p.notBefore 0 then 0 else 1)))) ∧
  (∀ (s : State) (e : Entry), e.eid < s.mem.nextOp →
      let begun := fun (t : State) => EntryIs s t { e with stage := 4 }
      let rejected := fun (i : Instr) => ∃ t, exec i s = .next t ∧ t.entry? e.eid = none ∧ t.dist.launches = s.dist.launches ∧ t.copy = s.copy
      (Starts s e 2 → e.field 305 304 ≠ 1 → ∃ t c, exec (.evCopyPacket e.eid) s = .next t ∧ begun t ∧ t.copy = { s.copy with copies := s.copy.copies ++ [c] } ∧
        c.eid = some e.eid ∧ c.hp = e.hp ∧ c.ctx = e.ctx ∧ c.engine = e.engine ∧ c.op = e.field 305 304 ∧ c.src = e.field 191 128 ∧ c.dst = e.field 255 192 ∧
        c.len = e.field 303 256 ∧ c.ety = Ty.ofCode (e.field 311 308) ∧ c.rop = e.field 315 312 ∧ c.scope = .dev ∧ c.next = 0 ∧ c.status = 0 ∧ c.started = true) ∧
      (Starts s e 6 → ∃ t x, exec (.evScrubPacket e.eid) s = .next t ∧ begun t ∧ t.copy = { s.copy with scrubs := s.copy.scrubs ++ [x] } ∧ x.eid = e.eid ∧
        x.hp = e.hp ∧ x.ctx = e.ctx ∧ x.engine = e.engine ∧ x.addr = e.field 191 128 ∧ x.nsect = e.field 223 192 ∧ x.map = e.field 319 256 ∧
        x.recAddr = e.field 383 320 ∧ x.next = 0 ∧ x.bad = []) ∧
      (∀ bs, Starts s e 1 → bs.length = 256 → Holds s e.hp e.ctx (e.field 191 128) bs →
        let d := descOf (natOfBytes bs)
        (descBad (natOfBytes bs) = true → e.node = none → rejected (.evKernelPacket e.eid)) ∧
        (descBad (natOfBytes bs) = false → e.field 383 320 = 0 → d.groups = 0 → (d.isolated = false ∨ d.acc = 0) →
          ∃ t l, exec (.evKernelPacket e.eid) s = .next t ∧ begun t ∧ t.dist.launches = s.dist.launches ++ [l] ∧ l.eid = e.eid ∧ l.hp = e.hp ∧ l.ctx = e.ctx ∧
            l.desc = d ∧ l.loaded = true ∧ l.gx = e.field 287 256 ∧ l.gy = e.field 303 288 ∧ l.gz = e.field 319 304 ∧ l.args = BitVec.ofNat 64 (e.field 255 192) ∧
            l.next = 0 ∧ l.live = 0)) ∧
      (∀ p ∈ ([(3, .evDovetailPacket e.eid, true), (4, .evCollectivePacket e.eid, false)] : List (Nat × Instr × Bool)), Starts s e p.1 →
        ∃ t o, exec p.2.1 s = .next t ∧ begun t ∧ t.coll = { s.coll with ops := s.coll.ops ++ [o] } ∧ o.dove = p.2.2 ∧ o.rec_ = e.n ∧ o.half = e.engine ∧
          o.eid = some e.eid ∧ o.hp = e.hp ∧ o.ctx = e.ctx ∧ o.stage = 0 ∧ o.posted = s.ns) ∧
      (∀ hd, Starts s e 7 → hd.length = 256 → Holds s e.hp e.ctx (e.field 191 128) hd → (∀ g ∈ s.dist.graphs, g.gid < s.mem.nextOp) →
        let n := natOfBytes hd
        let node := fun k => (e.field 191 128 + 256 * (k + 1))
        (n / 2 ^ 17 ≠ 0 ∨ n % 65536 = 0 → e.node = none → rejected (.evGraphPacket e.eid)) ∧
        (n / 2 ^ 17 = 0 → n % 65536 ≠ 0 → (∀ k < n % 65536, ∃ bs, bs.length = 256 ∧ Holds s e.hp e.ctx (node k) bs ∧ nodeMalformed (n % 65536) (natOfBytes bs) = false) →
          ∃ t g, exec (.evGraphPacket e.eid) s = .next t ∧ t.entry? e.eid = some { e with stage := 4 } ∧ t.graph? s.mem.nextOp = some g ∧ g.eid = e.eid ∧
            g.gobj = e.field 191 128 ∧ g.nnode = n % 65536 ∧ g.stopErr = bitOf n 16)) ∧
      (∀ g k bs w, s.graph? g.gid = some g → bs.length = 256 → Holds s g.hp g.ctx (g.nodeVa k) bs → g.nodeVa k % 256 = 0 → Serves s g.hp g.ctx .write (g.nodeVa k + 66) w →
        let live := bitsOf (natOfBytes bs) 543 528
        let counts := fun (t : State) => StoresAt s t (physical w (g.nodeVa k + 66)) (bytesOfNat 2 (live - 1))
        (∀ j js, s.readNode g j = some js → nodeSuccs js = [k] → k < g.nnode → k ≠ j → (smGet 0 j g.nodes = 2 ∨ smGet 0 j g.nodes = 3) → smGet 0 k g.nodes = 0 →
          (smGet 0 j g.nodes = 3 → g.stopErr = false) → g.skip = [] →
          (2 ≤ live → ∃ t, exec (.evNodeComplete g.gid j) s = .next t ∧ counts t ∧ t.graph? g.gid = some { g with nodes := smPut 0 j (smGet 0 j g.nodes + 2) g.nodes }) ∧
          (live = 1 → ∃ t h, exec (.evNodeComplete g.gid j) s = .next t ∧ t.graph? g.gid = some h ∧ smGet 0 k h.nodes ≠ 0)) ∧
        (∀ o : Op, s.mem.ops = [o] → o.kind = .nodego (BitVec.ofNat 64 (g.nodeVa k)) → o.performed = true → valid o.ref → g.nodeVa k < 2 ^ 64 →
          s.nodeAt (s.team o.ref.tid).hp (s.team o.ref.tid).ctx (g.nodeVa k) = some (g, k) →
          (2 ≤ live → ∃ t, exec (.evNodegoArrival o.id) s = .next t ∧ counts t ∧ t.mem.ops = []) ∧
          (live = 0 → ∃ t, exec (.evNodegoArrival o.id) s = .next t ∧ t.mem.ops = [] ∧ t.dist = s.dist))))

/-! ## Copies and tiles (09 R300 to R312, 10 R322 to R336) -/

/-- R297, R299, R306, R312, R313, 10 R322: the copy engine's steps. The next chunk of a plain copy moves the source's bytes as they stand to the destination and
nothing else; a copy whose chunks have performed ends, and clears its token or ends its packet; an abandoned copy starts again from its first chunk,
a reduce from its segment's; a follow-on that waited enters its team's queue; a scrub counts and poisons sector by sector, then writes its results. A copy waits for the receipts of what it has written; one whose transfer a Scribe has refused ends
with its chunks poisoned (07 R236, R239). -/
def Obligations.CopySteps : Prop :=
  ∀ (s : State), s.mem.ops = [] → s.mem.migs = [] → s.openWindows none = [] →
    (∀ c : Copy, s.copy.copies = [c] → c.started = true → valid c.ref →
      (∀ e f, let n := c.chunkBytes c.next
        let lo := max c.dst ((c.dst / 2048 + c.next) * 2048)
        let from_ := c.src + (lo - c.dst)
        c.ready = true → c.op = 0 → c.desc = none → c.dsp = 0 → c.ssp = 0 → c.cls < 4 → ccbKey c.hp c.ctx < 256 →
        (s.engineCtx c.engine (ccbKey c.hp c.ctx)).deficit.length = 4 →
        (∀ k < n, Serves s c.hp c.ctx .read (from_ + k) e ∧ physical e (from_ + k) = physical e from_ + k ∧ s.poisoned (physical e (from_ + k)) 1 = false) →
        (∀ k < n, Serves s c.hp c.ctx .write (lo + k) f ∧ physical f (lo + k) = physical f lo + k) → from_ % 4096 + n ≤ 4096 → lo % 4096 + n ≤ 4096 →
        ∃ t, exec (.evCopyChunkSend c.engine) s = .next t ∧ StoresAt s t (physical f lo) (memReadN s.mem.bytes (physical e from_) n) ∧
          t.copy.copies = [{ c with next := c.next + 1 }] ∧ t.slices = s.slices ∧ t.teams = s.teams) ∧
      (c.placing = false → (∃ x ∈ s.mem.xfers, x.client = .copy c.cid) → exec (.evCopyComplete c.cid) s = .next s) ∧
      (∀ e viol line, c.placing = false → (∀ x ∈ s.mem.xfers, x.client ≠ .copy c.cid) → c.abandoned = false → c.waits = [] → c.lost = some (viol, line) →
        c.eid = some e.eid → s.entry? e.eid = some e → Plain e → c.dsp = 0 →
        ∃ t, exec (.evCopyComplete c.cid) s = .next t ∧ t.copy.copies = [] ∧ t.entry? e.eid = none ∧ t.mem.bytes = s.mem.bytes ∧ t.slices = s.slices ∧
          ((∀ p ∈ c.written, ∃ f, Serves s c.hp c.ctx .write p.1 f) →
            ∀ p ∈ c.written, ∀ f, c.desc = none → c.op = 0 → Serves s c.hp c.ctx .write p.1 f → t.poisoned (physical f p.1) p.2 = true)) ∧
      (c.moved = true → c.placing = false → (∀ x ∈ s.mem.xfers, x.client ≠ .copy c.cid) → c.lost = none → c.bad = none → c.status = 0 →
        (∀ e, c.eid = some e.eid → s.entry? e.eid = some e → Plain e →
          ∃ t, exec (.evCopyComplete c.cid) s = .next t ∧ t.copy.copies = [] ∧ t.entry? e.eid = none ∧ t.mem = s.mem ∧ t.slices = s.slices) ∧
        (c.eid = none → c.bar = none → c.follow = none → c.tlid = 0 → ∃ t, exec (.evCopyComplete c.cid) s = .next t ∧ t.copy.copies = [] ∧
          t.slice c.ref = { s.slice c.ref with tokens := (s.slice c.ref).tokens &&& ~~~(1#8 <<< c.token) } ∧ t.mem.bytes = s.mem.bytes ∧
          ∀ x ∈ t.mem.ranges, x.cid ≠ c.cid)) ∧
      (∀ b, c.placing = true → c.eid = none → c.status = 0 → c.bar = none → c.tlid = 0 → c.follow = some b →
        let half := (s.team c.ref.tid).halfOf c.ref.bent
        ((s.team c.ref.tid).queueOf half).length < 64 → ∃ t d, exec (.evFollowonEnter c.cid) s = .next t ∧ t.copy.copies = [] ∧
          (t.team c.ref.tid).queueOf half = (s.team c.ref.tid).queueOf half ++ [d] ∧ d.kind = 0 ∧ d.block = b ∧ d.token = none ∧ d.ref = c.ref ∧ d.pc = c.pc) ∧
      (c.halted = false → c.placing = false → ∃ t, exec (.evCopyAbandon c.cid) s = .next t ∧ t.copy.copies = [{ c with abandoned := true }] ∧ { t with copy := s.copy } = s) ∧
      (c.abandoned = true → c.waits = [] → c.eid.isSome = true → smGet 0 (ccbKey c.hp c.ctx) s.dist.saving = 0 →
        ∃ t, exec (.evCopyReplay c.cid) s = .next t ∧ { t with copy := s.copy } = s ∧ t.copy.copies =
          [if c.op = 2 then { c with abandoned := false, halted := false, status := 0, next := c.segbase, failva := c.bad.getD 0 }
           else { c with abandoned := false, halted := false, status := 0, next := 0, pos := CvtPos.zero, bad := none, failva := 0 }])) ∧
    (∀ x : Scrub, s.copy.scrubs = [x] → x.waits = [] →
      (∀ e found, let va := (x.addr + 32 * x.next) % 2 ^ 64
        let pa := physical e va
        x.next < x.nsect → Serves s x.hp x.ctx .read va e → (s.region x.hp pa).isHost = false →
        let y : Scrub := { x with next := x.next + 1, scanned := x.scanned + 1, fixed := if found.fixed then x.next :: x.fixed else x.fixed }
        ∃ t, exec (.evScrubSector x.sid found) s = .next t ∧ t.mem.bytes = s.mem.bytes ∧ t.mem.ops = [] ∧ t.copy.scrubs =
          [if s.poisoned pa 32 = true then (if x.next ∈ x.bad then { y with newpoison := x.newpoison + 1 } else { y with oldpoison := x.oldpoison + 1 })
           else if found.bad = true then { y with bad := x.next :: x.bad, newpoison := x.newpoison + 1 }
           else y] ∧
          (∀ k, smGet false k t.mem.poison = (smGet false k s.mem.poison || (!(s.poisoned pa 32) && found.bad && k == pa / 32)))) ∧
      (∀ e u v found, x.nsect ≤ x.next → e.eid = x.eid → s.entry? x.eid = some e → Plain e → Serves s x.hp x.ctx .write x.map u → Serves s x.hp x.ctx .write x.recAddr v →
        x.map % 4096 + (x.nsect + 7) / 8 ≤ 4096 → x.recAddr % 4096 + 32 ≤ 4096 → 0 < x.nsect →
        ∃ t bits, exec (.evScrubSector x.sid found) s = .next t ∧ t.copy.scrubs = [] ∧ t.entry? x.eid = none ∧ bits.length = (x.nsect + 7) / 8 ∧
          (∀ k < x.nsect, ∀ f, Serves s x.hp x.ctx .read ((x.addr + 32 * k) % 2 ^ 64) f →
            (bits.getD (k / 8) 0).getLsbD (k % 8) = (let pa := physical f ((x.addr + 32 * k) % 2 ^ 64); !(s.region x.hp pa).isHost && s.poisoned pa 32)) ∧
          ∀ a, t.byteAt a = (if physical v x.recAddr ≤ a ∧ a < physical v x.recAddr + 32 then
            (bytesOfNat 8 x.scanned ++ bytesOfNat 8 x.fixed.eraseDups.length ++ bytesOfNat 8 x.newpoison ++ bytesOfNat 8 x.oldpoison).getD (a - physical v x.recAddr) 0
            else stored s.mem.bytes (physical u x.map) bits a)))

/-- R323, R328, R329, R334 to R336: the cluster engine's steps on the head command of a team's queue. TZRO zeroes its tile, TRD answers with a block of it,
TWR writes one, and each leaves the queue; TSTO stores converted rows, then ends with its flags and its token; a TMMA loads a slab, streams the rows
of a group while the next slab loads, adds each element's sum of products into the tile, goes on to the next group or chunk, and ends; while the
array's clock relocks it stands still (01 R18). -/
def Obligations.TileSteps : Prop :=
  ∀ (s : State) (tid cl : Nat) (T : Team) (c : TileCmd) (rest : List TileCmd), s.mem.ops = [] → s.teams = [(tid, T)] → s.mem.ranges = [] → s.mem.migs = [] →
    T.cluster = cl → T.desc.pair = false → T.ended = false → T.stopped = false → T.held = false → T.away = false → T.tileQ = c :: rest →
    c.ref.tid = tid → valid c.ref →
    let q := T.seq
    let m := tmmaOf c.block
    let team := fun (t : State) => t.team tid
    let keepsTiles := fun (t : State) => (team t).tiles = T.tiles
    let seqIs := fun (t : State) (x : TileSeq) => (team t).tileQ = T.tileQ ∧ (team t).seq = x ∧ keepsTiles t ∧ t.mem.bytes = s.mem.bytes
    let elem := fun (U : Team) (i j : Nat) => U.tileElem 0 (c.imm % 16) false i j
    (s.arrayStopped cl = true → c.kind = 0 → exec (.evTileRotation cl) s = .next s ∧ exec (.evTmmaSlabLoad tid) s = .next s ∧ exec (.evTmmaStream tid) s = .next s ∧
      exec (.evTmmaWriteback tid) s = .next s ∧ exec (.evTmmaDone tid) s = .next s) ∧
    (s.arrayStopped cl = false → q.started = false → q.waits = [] → c.kind = 0 → 1 ≤ q.phase → q.phase ≤ 3 →
      ∃ t, exec (.evTileRotation cl) s = .next t ∧ seqIs t { q with started := true }) ∧
    (s.arrayStopped cl = false → q.started = false → q.waits = [] → q.phase = 0 →
      let turns := fun (post : State → Prop) => ∃ t, exec (.evTileRotation cl) s = .next t ∧ post t
      (c.kind = 1 → turns fun t => (team t).tileQ = rest ∧ t.mem = s.mem ∧ (∀ i < 128, ∀ j < 128, elem (team t) i j = 0) ∧
        ∀ k, (k < tileKey 0 (c.imm % 16) ∨ tileKey 0 (c.imm % 16) + 2 ^ 16 ≤ k) → smGet 0 k (team t).tiles = smGet 0 k T.tiles) ∧
      (∀ pid, c.kind = 2 → c.pids = [(c.ref.sl, pid)] → (∀ p ∈ c.lanes, p.1 = c.ref.sl) → turns fun t => (team t).tileQ = rest ∧ keepsTiles t ∧ t.mem = s.mem ∧
        (t.slice c.ref).pend = settle pid (some (c.lanes.flatMap fun p => (List.range 8).map fun k =>
          ({ reg := .v (c.dreg + k), lane := p.2, val := BitVec.ofNat 32 (elem T (16 * (c.imm / 16 % 8) + k + 8 * ((4 * p.1 + p.2) / 16)) (16 * (c.imm / 128 % 8) + (4 * p.1 + p.2) % 16)) } : RegWrite)))
          0 none (s.slice c.ref).pend) ∧
      (∀ sl j ws, c.kind = 3 → c.lanes = [(sl, j)] → c.data = [ws] → ws.length = 8 → sl < 8 → j < 4 → turns fun t => (team t).tileQ = rest ∧ t.mem = s.mem ∧
        ∀ row < 128, ∀ col < 128, elem (team t) row col =
          (let k := row - (16 * (c.imm / 16 % 8) + 8 * ((4 * sl + j) / 16))
           if 16 * (c.imm / 16 % 8) + 8 * ((4 * sl + j) / 16) ≤ row ∧ k < 8 ∧ col = 16 * (c.imm / 128 % 8) + (4 * sl + j) % 16 then (ws.getD k 0).toNat else elem T row col)) ∧
      (c.kind = 0 → (tmmaFault T c.ref.bent c.block = none → turns fun t => seqIs t { q with phase := 1, started := true }) ∧
        (tmmaFault T c.ref.bent c.block ≠ none → turns fun t => (team t).tileQ = rest ∧ keepsTiles t)) ∧
      (∀ e, c.kind = 4 → (tstoOf c.block).rows = 1 → (tstoOf c.block).scratch = false → (tstoOf c.block).dst < 2 ^ 64 →
        let dst := (tstoOf c.block).dst
        let row := (List.range 128).map fun j => convertTo (fmtOf c.tc) { rnd := Rnd.ofCode (c.flg % 4), sat := bitOf c.flg 2, ftz := false }
          ((fmtOf c.ta).decode (T.tileElem 0 (tstoOf c.block).tile (c.ta == .f64) 0 j))
        dst % 4096 + 128 * tyBytes c.tc ≤ 4096 → Serves s T.hp T.ctx .write dst e →
        turns fun t => StoresAt s t (physical e dst) (row.flatMap fun x => bytesOfNat (tyBytes c.tc) x.1) ∧ (team t).tileQ = T.tileQ ∧ keepsTiles t ∧
          (team t).seq = { q with phase := 4, flags := orFlags (row.map (·.2)) })) ∧
    (s.arrayStopped cl = false → c.kind = 0 → q.started = true →
      (q.phase = 1 → q.slab ≠ [] → ∃ t, exec (.evTmmaSlabLoad tid) s = .next t ∧ seqIs t { q with phase := 2 }) ∧
      (q.phase = 1 → q.slab = [] → (m.bgeom ≠ 3 → ∃ t, exec (.evTmmaSlabLoad tid) s = .next t ∧ seqIs t { q with phase := 2, slab := T.slabColumns 0 m q.chunk }) ∧
        (m.bgeom = 3 → (∃ x ∈ T.slabColumns 0 m q.chunk, svbMalformed x = true) → ∃ t, exec (.evTmmaSlabLoad tid) s = .next t ∧ (team t).tileQ = rest ∧ keepsTiles t)) ∧
      (∀ half off : Nat → Nat, q.phase = 2 → m.vault = false → m.ageom ≠ 3 →
        let n := chunkLen m.tyA m.ageom (m.len q.chunk)
        (∀ i < 16, scratchAt T c.ref.bent n (m.rowAt q.chunk (16 * q.group + i)) = some (half i, off i)) →
        let cols := T.slabColumns 0 m (q.chunk + 1)
        ∃ t, exec (.evTmmaStream tid) s = .next t ∧
          seqIs t { q with phase := 3, rows := (List.range 16).map fun i => partValues m.tyA m.ageom (m.len q.chunk) (T.scratchBytes (half i) (off i) n)
                           next := if q.next = [] ∧ q.chunk + 1 < m.chunks ∧ (m.bgeom ≠ 3 ∨ ∀ x ∈ cols, svbMalformed x = false) then cols else q.next }) ∧
      (q.phase = 3 → q.slab.length = 128 → q.rows.length = 16 → q.group < 8 → m.tile < 16 →
        let n := m.len q.chunk
        let f := if m.f64 then fmtF64 else fmtF32
        let at_ := fun (U : Team) (i j : Nat) => U.tileElem 0 m.tile m.f64 i j
        let sum := fun (i j : Nat) => chunkSum (m.tyA == .f16 || m.tyA == .bf16) (q.rows.getD i []) (partValues m.tyB m.bgeom n (q.slab.getD j []))
        ∃ t, exec (.evTmmaWriteback tid) s = .next t ∧ (team t).tileQ = T.tileQ ∧ t.mem = s.mem ∧
          (∀ i < 128, ∀ j < 128, at_ (team t) i j =
            if 16 * q.group ≤ i ∧ i < 16 * q.group + 16 then
              accumulate f (if q.chunk = 0 ∧ m.acc = false then .fin (Dyad.zero false) else f.decode (at_ T i j)) (sum (i - 16 * q.group) j) % 2 ^ (if m.f64 then 64 else 32)
            else at_ T i j) ∧
          (team t).seq = if q.group + 1 < m.rows / 16 then { q with rows := [], group := q.group + 1, phase := 2 }
            else if q.chunk + 1 < m.chunks then { q with rows := [], group := 0, chunk := q.chunk + 1, phase := 1, started := false, slab := q.next, next := [] }
            else { q with rows := [], phase := 4, started := false, slab := [], next := [] }) ∧
      (q.phase = 4 → c.bar = none → m.bar = false → ∃ t, exec (.evTmmaDone tid) s = .next t ∧ (team t).tileQ = rest ∧ keepsTiles t ∧ t.mem.bytes = s.mem.bytes ∧
        ∀ k, c.token = some k → (t.slice c.ref).tokens = (s.slice c.ref).tokens &&& ~~~(1#8 <<< k))) ∧
    (∀ k, c.kind = 4 → q.phase = 4 → c.token = some k → (∀ x ∈ s.mem.xfers, x.client ≠ .copy c.id) → ∃ t, exec (.evTstoComplete c.id) s = .next t ∧ (team t).tileQ = rest ∧ t.mem.bytes = s.mem.bytes ∧
      (t.slice c.ref).tokens = (s.slice c.ref).tokens &&& ~~~(1#8 <<< k) ∧
      (t.slice c.ref).fflags = if (s.slice c.ref).exited then (s.slice c.ref).fflags else (s.slice c.ref).fflags ||| q.flags)

/-! ## Collectives (13) -/

/-- R407, R409, R411, R418, R419: a collective of two members of one package. Posting reads the list, refuses a malformed one with status 0x11, and sends the
other its CSET with the operation's hash; CSETs that differ end it with 0x12; a CDAT is stored at its place and counted, and DONE answers the last; DONE,
ABORT, COMMIT and NOSW are noted; completion writes the status record and ends the packet; a timeout ends it with 0x13; messages that no operation
claims are dropped in the end. -/
def Obligations.CollectiveSteps : Prop :=
  ∀ (s : State) (o : CollOp), s.coll.ops = [o] → s.mem.ops = [] → s.mem.migs = [] → o.waits = [] → o.fab = false → valid o.ref →
    let only := fun (t : State) (x : CollOp) => t.coll.ops = [x]
    let ends := fun (i : Instr) (status : Nat) => ∃ t x, exec i s = .next t ∧ only t x ∧ x.oid = o.oid ∧ x.stage = 3 ∧ x.status = status ∧ x.waits = []
    (∀ hd, o.eid.isSome = true → o.stage = 0 → hd.length = 64 → Holds s o.hp o.ctx (o.memb % 2 ^ 64) hd → o.memb % 4096 + 64 ≤ 4096 →
      (natOfBytes hd % 65536 = 0 ∨ 1024 < natOfBytes hd % 65536 ∨ o.memb % 64 ≠ 0 → ends (.evCollectivePost o.oid) 0x11) ∧
      (∀ es, es.length = 8 → natOfBytes hd % 65536 = 2 → bitOf (natOfBytes hd) 16 = false → o.memb % 64 = 0 → o.memb % 4096 + 72 ≤ 4096 →
        Holds s o.hp o.ctx (o.memb % 2 ^ 64) (hd ++ es) → o.dove = false → s.coll.held = [] → o.rank < 2 → o.csets = [] →
        let ms := [natOfBytes (es.take 4), natOfBytes (es.drop 4)]
        let o' := s.withList o (natOfBytes hd) ms
        s.listBad o.hp (natOfBytes hd) ms = false → s.collBad o' = false →
        let h := crc64 (bytesOfNat 8 (o.f 447 384) ++ hd.take 4 ++ es)
        ∃ t m, exec (.evCollectivePost o.oid) s = .next t ∧ only t { o' with stage := 1, hash := h } ∧ t.fab = { s.fab with inbox := s.fab.inbox ++ [m] } ∧
          m.mtype = 13 ∧ m.data = bytesOfNat 8 h.toNat ∧ m.tag = BitVec.ofNat 16 o.rank ∧ m.wkey = BitVec.ofNat 32 o.ctag ∧
          m.dpeer = BitVec.ofNat 10 (ms.getD (1 - o.rank) 0 % 1024))) ∧
    (∀ m : Msg, s.collTakes m o = true → msgHashOk m = true → o.members.length = 2 → o.rank < 2 →
      let r := m.tag.toNat
      let x : CollOp := { o with csets := smSet r (some (BitVec.ofNat 64 (natOfBytes m.data))) o.csets }
      (m.mtype = 13 → o.stage = 1 → r = 1 - o.rank → BitVec.ofNat 64 (natOfBytes m.data) ≠ o.hash → ∃ t y, exec (.evCset m) s = .next t ∧ only t y ∧ y.stage = 3 ∧
        y.status = 0x12 ∧ y.missing = [r]) ∧
      (m.mtype = 13 → o.stage = 1 → r = 1 - o.rank → BitVec.ofNat 64 (natOfBytes m.data) = o.hash → o.dove = false → o.insw = false → o.op = 2 → o.root = r →
        0 < o.count → 0 < o.es → ∃ t, exec (.evCset m) s = .next t ∧ only t { x with stage := 2, sent := true } ∧ t.mem = s.mem ∧ t.fab = s.fab) ∧
      (∀ e, let n := m.data.length
        let va := o.dst + m.offset.toNat
        m.mtype = 14 → o.stage = 2 → o.sent = true → o.early = [] → (o.dove = true ∨ 2 ≤ o.op) → o.inSwitch = false → m.interval = 0 → 0 < n →
        va % 4096 + n ≤ 4096 → Serves s o.hp o.ctx .write (va % 2 ^ 64) e → s.poisoned (physical e (va % 2 ^ 64)) n = false →
        let y : CollOp := { o with got := smPut 0 r (smGet 0 r o.got + n) o.got }
        ∃ t, exec (.evCdat m) s = .next t ∧ StoresAt s t (physical e (va % 2 ^ 64)) m.data ∧ only t y ∧
          (y.paid r = false → t.fab = s.fab) ∧
          (y.paid r = true → ∃ d, t.fab = { s.fab with inbox := s.fab.inbox ++ [d] } ∧ d.mtype = 15 ∧ d.aopst = 1 ∧ d.tag = BitVec.ofNat 16 o.rank)) ∧
      (m.mtype = 15 → m.aopst = 1 → ∃ t, exec (.evCctlDone m) s = .next t ∧ only t { o with dones := (o.dones ++ [r]).eraseDups } ∧ { t with coll := s.coll } = s) ∧
      (m.mtype = 15 → m.aopst = 2 → o.inSwitch = false → ends (.evCctlAbort m) 0x16) ∧
      (m.mtype = 15 → m.aopst = 3 → ∃ t, exec (.evCctlCommit m) s = .next t ∧ only t { o with commit := true } ∧ { t with coll := s.coll } = s) ∧
      (m.mtype = 15 → m.aopst = 4 → o.stage = 1 → ∃ t, exec (.evCctlNosw m) s = .next t ∧ only t { o with nosw := true } ∧ { t with coll := s.coll } = s)) ∧
    (o.finished = true →
      let status := if o.status = 0 ∧ o.poison = true then 0x17 else o.status
      (∀ eid e w, o.eid = some eid → s.entry? eid = some e → e.eid = eid → Plain e → o.statrec ≠ 0 → o.statrec % 64 = 0 → o.statrec < 2 ^ 64 → o.statrec % 4096 + 192 ≤ 4096 →
        Serves s o.hp o.ctx .write o.statrec w → ∃ t bs, exec (.evCollectiveComplete o.oid) s = .next t ∧ t.coll.ops = [] ∧ t.entry? eid = none ∧
          bs.length = 192 ∧ bs.take 1 = [BitVec.ofNat 8 status] ∧ StoresAt s t (physical w o.statrec) bs) ∧
      (o.eid = none → o.statrec = 0 → o.tlid = 0 → status = 0 → o.token < 8 → ∃ t, exec (.evCollectiveComplete o.oid) s = .next t ∧ t.coll.ops = [] ∧ t.mem.bytes = s.mem.bytes)) ∧
    (o.finished = false → (o.stage = 1 ∨ o.stage = 2) → o.timeout ≠ 0 →
      ∃ t x, exec (.evCollectiveTimeout o.oid) s = .next t ∧ only t x ∧ x.stage = 3 ∧ x.status = 0x13 ∧ o.posted + 1000 * o.timeout ≤ t.ns ∧
        (∀ q < o.members.length, q ≠ o.rank → o.stage = 1 → (q ∈ x.missing ↔ smGet none q o.csets = none))) ∧
    (∀ h, s.coll.held = [h] → ∃ t, exec (.evHeldMessageDiscard h.half) s = .next t ∧ t.coll.held = [] ∧ t.coll.ops = [o] ∧ t.mem = s.mem ∧
      h.since + 2 * (s.hpFab ((s.hpOfPeer h.m.dpeer.toNat).getD 0)).timeout ≤ t.ns)

/-! ## Contexts saved, restored and killed (11 R358 to R366) -/

/-- R340, R358, R359, R363, R366: a context's control. The control word's fields take a write while the context is idle or saved, and EN while it is idle, which
starts it; FQRD takes a value within the ring. SAVE drains a running or idle context whose image fits, or sets ERR; a drained context goes on to its end; at the
limit its teams are held and its started copies abandoned; the end leaves it saved, with its teams off the device, and raises the interrupt. RESTORE of a
saved context with a sound header runs it again; KILL stops its teams and leaves it idle. -/
def Obligations.ContextSteps : Prop :=
  ∀ (s : State) (hp ctx : Nat) (v : Quad) (w : Word), ctx < 64 →
    let c := s.ccb hp ctx
    let key := 64 * hp + ctx
    let fields := fun (c : Ccb) => { c with ptag := v.getLsbD 1, migth := (v >>> 2).setWidth 3, tlogon := v.getLsbD 5, err := c.err && !v.getLsbD 10 }
    let others := fun (t : State) => ∀ h k, k < 64 → (h, k) ≠ (hp, ctx) → t.ccb h k = s.ccb h k
    let ccbOnly := fun (i : Instr) (x : Ccb) => ∃ t, exec i s = .next t ∧ t.ccb hp ctx = x ∧ others t ∧ { t with ccbs := s.ccbs } = s
    let errs := fun (i : Instr) => ccbOnly i { c with err := true }
    let saving := fun (t : State) => smGet 0 key t.dist.saving
    (c.state = 0 → v.getLsbD 0 = true → c.en = false → c.qcnt = 0 → ∃ t, exec (.evCtxEnWrite hp ctx v) s = .next t ∧ others t ∧
      t.ccb hp ctx = { fields c with en := true, state := 1 } ∧ t.mem = s.mem ∧ ∀ q < 65536, t.userQueue hp ctx q = none) ∧
    (∀ qe hd x, c.state = 0 → v.getLsbD 0 = true → c.en = false → c.qcnt = 1 → s.userQueue hp ctx 0 = none → qe.length = 16 → hd.length = 256 →
      Holds s hp ctx c.qtab.toNat qe → bitOf (natOfBytes qe) 69 = true → natOfBytes qe % 256 = 0 → Holds s hp ctx (natOfBytes qe % 2 ^ 64) hd →
      headerQueue (natOfBytes qe % 2 ^ 64) (natOfBytes qe) (natOfBytes hd) = .ok x →
      ∃ t, exec (.evCtxEnWrite hp ctx v) s = .next t ∧ t.userQueue hp ctx 0 = some x ∧ t.ccb hp ctx = { fields c with en := true, state := 1 }) ∧
    (c.state = 0 → (v.getLsbD 0 = false ∨ c.en = true) → ccbOnly (.evCtxEnWrite hp ctx v) { fields c with en := v.getLsbD 0 }) ∧
    (c.state = 3 → ccbOnly (.evCtxEnWrite hp ctx v) (fields c)) ∧
    (c.state = 1 ∨ c.state = 2 → ccbOnly (.evCtxEnWrite hp ctx v) c) ∧
    ((c.fqwr - w).toNat ≤ 2 ^ c.fqlog → ccbOnly (.evFqrdWrite hp ctx w) { c with fqrd := w }) ∧
    (2 ^ c.fqlog < (c.fqwr - w).toNat → exec (.evFqrdWrite hp ctx w) s = .next s) ∧
    (c.state ≤ 1 → s.imageNeed hp ctx ≤ c.imglen.toNat → ∃ t, exec (.evCtxSave hp ctx) s = .next t ∧ t.ccb hp ctx = { c with state := 2 } ∧ others t ∧
      smGet 0 key t.dist.drainEnd = s.ns + 1000 * c.drainlim.toNat ∧ { t with ccbs := s.ccbs, dist := { t.dist with drainEnd := s.dist.drainEnd } } = s) ∧
    (2 ≤ c.state ∨ c.imglen.toNat < s.imageNeed hp ctx → errs (.evCtxSave hp ctx)) ∧
    (c.state = 2 → saving s = 0 →
      (s.drained hp ctx = true → ∃ t, exec (.evSaveDrainDone hp ctx) s = .next t ∧ saving t = 2 ∧ t.ccbs = s.ccbs ∧ t.slices = s.slices) ∧
      (s.drained hp ctx = false → exec (.evSaveDrainDone hp ctx) s = .next s) ∧
      (∃ t, exec (.evForcedSave hp ctx) s = .next t ∧ saving t = 1 ∧ smGet 0 key s.dist.drainEnd ≤ t.ns ∧ t.ccbs = s.ccbs ∧ t.slices = s.slices ∧
        (∀ tid ∈ s.residentOf hp ctx, (s.team tid).stopped = false → (t.team tid).held = true) ∧
        (∀ k ∈ t.copy.copies, k.hp = hp → k.ctx = ctx → k.started = true → k.placing = false → k.eid.isSome = true → k.abandoned = true))) ∧
    (c.state = 2 → s.dev.irqvec0.getLsbD 48 = true → s.dev.irqvec1.getLsbD 48 = false →
      let saved := fun (t : State) => t.ccb hp ctx = { c with state := 3 } ∧ saving t = 0 ∧ (∀ l ∈ t.dist.launches, l.hp = hp → l.ctx = ctx → smFind l.lid t.sync.groups = none) ∧
        t.dev.irqs = s.dev.irqs ++ [{ port := 0, fn := 0, vec := s.dev.irqvec0.toNat % 2048 }]
      (saving s = 2 → ∃ t, exec (.evSaveComplete hp ctx) s = .next t ∧ saved t ∧ t.mem = s.mem ∧ t.teams = s.teams) ∧
      (saving s = 1 → s.forcedReady hp ctx = true → s.savedOf hp ctx = [] →
        ∃ t, exec (.evSaveComplete hp ctx) s = .next t ∧ saved t ∧ t.savedOf hp ctx = s.residentOf hp ctx ∧
          (∀ k ∈ t.copy.copies, k.hp = hp → k.ctx ≠ ctx) ∧ ∀ tid ∈ s.residentOf hp ctx, (t.team tid).away = true ∧ ∀ b < 64, t.gangsOf tid b = [])) ∧
    (c.state ≠ 3 → errs (.evCtxRestore hp ctx)) ∧
    (∀ hd, c.state = 3 → hd.length = 256 → Holds s hp ctx c.imgbase.toNat hd →
      let n := natOfBytes hd
      (n % 2 ^ 32 ≠ 0x4B533943 ∨ n / 2 ^ 32 % 2 ^ 16 ≠ 1 ∨ c.imglen.toNat < n / 2 ^ 64 % 2 ^ 64 → errs (.evCtxRestore hp ctx)) ∧
      (n % 2 ^ 32 = 0x4B533943 → n / 2 ^ 32 % 2 ^ 16 = 1 → n / 2 ^ 64 % 2 ^ 64 ≤ c.imglen.toNat → c.qcnt = 0 → s.ctxLaunches hp ctx = [] → s.savedOf hp ctx = [] →
        smGet [] key s.dist.savedCopies = [] → ∃ t, exec (.evCtxRestore hp ctx) s = .next t ∧ t.ccb hp ctx = { c with state := 1, en := true } ∧ others t ∧
          (c.imgbase.toNat % 4096 + n / 2 ^ 64 % 2 ^ 64 ≤ 4096 → t.mem = s.mem) ∧ t.teams = s.teams ∧ t.copy = s.copy)) ∧
    (c.state = 0 → errs (.evCtxKill hp ctx)) ∧
    (c.state ≠ 0 → smGet [] key s.dist.savedCopies = [] → s.savedOf hp ctx = [] → s.dist.entries = [] → s.dist.graphs = [] → s.dist.queues = [] → s.coll.ops = [] →
      ∃ t, exec (.evCtxKill hp ctx) s = .next t ∧ t.ccb hp ctx = { c with state := 0, en := false } ∧ others t ∧ saving t = 0 ∧
        (smGet CtxFab.reset key t.fab.ctxs).rxen = false ∧ t.mem.bytes = s.mem.bytes ∧
        ∀ tid ∈ s.residentOf hp ctx, (s.team tid).stopped = false → (t.team tid).stopped = true ∧ (t.team tid).killed = some 0xFF ∧ (t.team tid).held = false)

/-! ## Remote requests and links (12) -/

/-- R376 to R380, R387, R398: the requester's end. A waiting request takes an entry of its table, its number in the pair's sequence and its tag, and leaves; its
answer lands in the lane's destination and status predicate, and the entry is free; an error response, or none within REQTO, lands its code, or REMOTE where
the instruction names no predicate; DEAD is recorded once. An answer that fails a check completes without data, and taints (07 R234, R236). -/
def Obligations.RemoteAnswers : Prop :=
  (∀ (s : State) (m : Msg) (r : Req), s.hpOfPeer m.dpeer.toNat = some r.hp → m.dinc.toNat = (s.hpFab r.hp).inc → s.reqOf r.hp m.tag.toNat = some r →
    let completes := fun (i : Instr) => ∃ t, exec i s = .next t ∧ t.fab.reqs = s.fab.reqs.filter (fun q => q.tag != r.tag) ∧ t.fab.waiting = s.fab.waiting
    (r.m.mtype = 1 → completes (.evRdrsp m)) ∧ (r.m.mtype = 2 → completes (.evWrack m)) ∧ (r.m.mtype = 3 → completes (.evAtrsp m)) ∧
    (r.m.mtype = 4 → completes (.evFnack m)) ∧ completes (.evErrrsp m)) ∧
  (∀ (s : State) (r : Req) (die tag : Nat), s.fab.reqs.find? (fun q => q.die == die && q.tag == tag) = some r →
    ∃ t, exec (.evRequestTimeout die tag) s = .next t ∧ t.fab.reqs = s.fab.reqs.filter (fun q => q.tag != tag) ∧ r.sent + (s.hpFab r.hp).timeout ≤ t.ns) ∧
  (∀ (s : State) (r : Req) (die tag : Nat), s.freeReqTag die = some tag → s.fab.waiting.find? (fun q => q.die == die && s.mayGo q) = some r →
    (r.m.dpeer.toNat = (s.hpFab r.hp).peer ∨ (s.routeOf r.hp r.m.dpeer.toNat).isSome = true) →
    let n := if r.m.num then smGet 1 (msgPair r.m) s.fab.txSeq else 0
    ∃ t, exec (.evRequestTableAdmit die) s = .next t ∧ t.fab.waiting = s.fab.waiting.filter (fun q => q != r) ∧ t.mem = s.mem ∧ t.slices = s.slices ∧
      t.fab.reqs = s.fab.reqs ++ [{ r with tag := tag, sent := s.ns, m := { r.m with tag := BitVec.ofNat 16 tag, mseq := BitVec.ofNat 32 n } }]) ∧
  (∀ (s : State) (o : Op) (e : Elem) (r : Req) (op dst : Nat) (ty : Ty) (sp : Option Nat), s.mem.ops = [o] → o.elems = [e] → o.kind = .remote op dst ty sp →
    o.stat = [] → o.got = [] → valid o.ref → e.lane < 4 → o.pid.isSome = true → r.parts = [{ op := o.id, lane := e.lane, off := 0, n := e.size }] →
    let x := s.slice o.ref
    let loads := op = 0 ∨ op = 2
    let pred := fun (v : Word) => match sp with | some q => [({ reg := .p q, lane := e.lane, val := v } : RegWrite)] | none => []
    let lands := fun (t : State) (ws : List RegWrite) (flt : Option FaultInfo) => t.fab.reqs = [] ∧ (t.slice o.ref).pend = settle (o.pid.getD 0) (some ws) 0 flt x.pend ∧
      (∀ q, valid q → q ≠ o.ref → t.slice q = s.slice q) ∧ ∀ p ∈ t.mem.ops, p.performed = true
    let answered := fun (t : State) (bs : List Byte) => lands t ((if loads then resultWrites ty false e.lane dst (natOfBytes (bs.take e.size)) else []) ++ pred 1) none
    let failed := fun (t : State) (code : Nat) =>
      lands t (if sp = none then [] else (if loads then (List.range ty.regs).map fun k => { reg := .v (dst + k), lane := e.lane, val := BitVec.ofNat 32 (if k = 0 then code else 0) } else []) ++ pred 0)
        (if sp = none then some { cause := causeRemote, sub := code, lanes := 2 ^ e.lane, addr := e.va } else none)
    (∀ m : Msg, s.fab.reqs = [r] → s.hpOfPeer m.dpeer.toNat = some r.hp → m.dinc.toNat = (s.hpFab r.hp).inc → m.tag.toNat = r.tag →
      (r.m.mtype = 1 → msgHashOk m = true → ∃ t, exec (.evRdrsp m) s = .next t ∧ answered t m.data ∧ t.mem.bytes = s.mem.bytes) ∧
      (r.m.mtype = 1 → msgHashOk m = false → (s.check r.hp).scobs = false → x.taint = none →
        ∃ t, exec (.evRdrsp m) s = .next t ∧ lands t (pred 1) none ∧ (t.slice o.ref).taint.isSome = true) ∧
      (r.m.mtype = 1 → msgHashOk m = false → (s.check r.hp).scobs = true → ∃ t, exec (.evRdrsp m) s = .next t ∧ answered t m.data) ∧
      (r.m.mtype = 2 → m.aopst = 0 → ¬ loads → ∃ t, exec (.evWrack m) s = .next t ∧ answered t [] ∧ t.mem.bytes = s.mem.bytes) ∧
      (r.m.mtype = 3 → m.aopst = 0 → msgHashOk m = true →
        (∀ k, smFind (knownKey r.line (s.reqDie r)) s.mem.known = some k → intervalBefore m.interval k = false) → ∃ t, exec (.evAtrsp m) s = .next t ∧ answered t m.data ∧ t.mem.bytes = s.mem.bytes) ∧
      (r.m.mtype = 4 → m.mseq = r.m.mseq → ¬ loads → ∃ t, exec (.evFnack m) s = .next t ∧ answered t [] ∧ t.mem.bytes = s.mem.bytes) ∧
      (m.aopst ≠ 0 → m.aopst ≠ 7 → ∃ t, exec (.evErrrsp m) s = .next t ∧ failed t m.aopst.toNat ∧ t.mem.bytes = s.mem.bytes) ∧
      (m.aopst = 7 → s.coll.ops = [] → (r.hp, r.m.dpeer.toNat, r.m.dinc.toNat) ∉ s.fab.isolated →
        ∃ t, exec (.evErrrsp m) s = .next t ∧ failed t 7 ∧ t.fab.isolated = s.fab.isolated ++ [(r.hp, r.m.dpeer.toNat, r.m.dinc.toNat)])) ∧
    (s.fab.reqs = [r] → ∃ t, exec (.evRequestTimeout r.die r.tag) s = .next t ∧ failed t 9 ∧ r.sent + (s.hpFab r.hp).timeout ≤ t.ns ∧ t.mem.bytes = s.mem.bytes ∧
      (r.m.num = true → r.m.dpeer.toNat = (s.hpFab r.hp).peer → ∃ k : Msg, t.fab.inbox = s.fab.inbox ++ [k] ∧ k.mtype = 5 ∧ k.mseq = r.m.mseq ∧ k.num = true)) ∧
    (s.fab.reqs = [] → s.fab.waiting = [r] → s.mayGo r = true → (s.routeOf r.hp r.m.dpeer.toNat).isSome = true →
      let n := if r.m.num then smGet 1 (msgPair r.m) s.fab.txSeq else 0
      ∃ t, exec (.evRequestTableAdmit r.die) s = .next t ∧ t.fab.waiting = [] ∧ t.slices = s.slices ∧ t.mem = s.mem ∧
        t.fab.reqs = [{ r with tag := 8192 * r.die, sent := s.ns, m := { r.m with tag := BitVec.ofNat 16 (8192 * r.die), mseq := BitVec.ofNat 32 n } }]))

/-- R372, R376, R390, R396, R399: the responder. A request of the window's key, inside it and with its right is served where it translates: a read answers with the
bytes, a write stores them, an atomic updates its element once and answers with the old value, a fence answers in its turn; a numbered one takes the next number, and
one ahead of it waits; a SKIP fills its number. Another is answered with the status of the first check that it fails, and changes no byte. -/
def Obligations.RemoteService : Prop :=
  (∀ (s : State) (m : Msg) (hp : Nat) (x : Nat), s.hpOfPeer m.dpeer.toNat = some hp → s.replaced hp m = false → m.dinc.toNat = (s.hpFab hp).inc → s.fab.held = [] →
    s.fab.cache = [] → s.mem.migs = [] → s.mem.ops = [] → (s.ctxFab hp m.rctx.toNat).rxen = true →
    smFind (winKeyOf hp m.rctx.toNat m.win.toNat) s.fab.exports = some x →
    let next := smGet 1 (msgPair m) s.fab.rxSeq
    let turn := m.num = true → m.mseq.toNat = next
    let counts := fun (t : State) => m.num = true → smGet 1 (msgPair m) t.fab.rxSeq = (next + 1) % 2 ^ 32
    let replies := fun (t : State) (k st : Nat) (bs : List Byte) => m.speer = m.dpeer →
      ∃ a : Msg, t.fab.inbox = s.fab.inbox ++ [a] ∧ a.mtype = BitVec.ofNat 4 k ∧ a.aopst = BitVec.ofNat 4 st ∧ a.tag = m.tag ∧ a.data = bs ∧ a.dinc = m.sinc ∧ a.hash = dataHash bs
    let va := (bitsOf x 127 64 + m.offset.toNat) % 2 ^ 64
    let good := fun (n : Nat) => bitOf x 0 = true ∧ bitsOf x 223 192 = m.wkey.toNat ∧ m.offset.toNat + n ≤ bitsOf x 191 128 ∧ bitOf x m.mtype.toNat = true
    turn →
    (∀ e n, m.mtype = 1 → m.num = false → n = m.len.toNat → good n → Serves s hp m.rctx.toNat .read va e → s.poisoned (physical e va) n = false →
      s.openWindows none = [] → (∀ l, (s.line l).narrow = []) →
      ∃ t, exec (.evRdreq m) s = .next t ∧ replies t 8 0 (memReadN s.mem.bytes (physical e va) n) ∧ t.mem.bytes = s.mem.bytes) ∧
    (∀ e, m.mtype = 2 → m.num = true → m.data.length = m.len.toNat → good m.data.length → msgHashOk m = true → Serves s hp m.rctx.toNat .write va e →
      ∃ t, exec (.evWrreq m) s = .next t ∧ replies t 9 0 [] ∧ counts t ∧ StoresAt s t (physical e va) m.data ∧ t.fab.cache.length = 1) ∧
    (∀ e, m.mtype = 3 → m.num = true → msgHashOk m = true → Serves s hp m.rctx.toNat .atomic va e →
      let t' := Ty.ofCode m.ty
      let n := tyBytes t'
      let old := memReadN s.mem.bytes (physical e va) n
      good n → s.poisoned (physical e va) n = false → s.openWindows none = [] → (∀ l, (s.line l).narrow = []) →
      let refused := (s.region hp (physical e va)).isHost = true ∧ ¬ (t'.isInt = true ∧ (m.aopst = 0 ∨ m.aopst = 6 ∨ m.aopst = 7))
      ∃ t, exec (.evAtreq m) s = .next t ∧ counts t ∧ (refused → replies t 12 4 [] ∧ t.mem.bytes = s.mem.bytes) ∧
        (¬ refused → replies t 10 0 old ∧ t.fab.cache.length = 1 ∧ StoresAt s t (physical e va)
          (bytesOfNat n (atomNew m.aopst.toNat t' (natOfBytes old) (natOfBytes (m.data.take n)) (natOfBytes (m.data.drop n)))))) ∧
    (m.mtype = 4 → m.num = true → ∃ t, exec (.evFnreq m) s = .next t ∧ replies t 11 0 [] ∧ counts t ∧ t.mem = s.mem) ∧
    (m.mtype = 5 → m.num = true → ∃ t, exec (.evSkip m) s = .next t ∧ counts t ∧ t.mem = s.mem ∧ t.fab.inbox = s.fab.inbox) ∧
    (∀ p ∈ ([(1, .evRdreq m), (2, .evWrreq m), (3, .evAtreq m)] : List (Nat × Instr)), m.mtype.toNat = p.1 → m.num = (p.1 != 1) →
      let n := if p.1 = 3 then tyBytes (Ty.ofCode m.ty) else m.len.toNat
      let refuses := fun (st : Nat) => ∃ t, exec p.2 s = .next t ∧ replies t 12 st [] ∧ counts t ∧ t.mem = s.mem
      (bitOf x 0 = false ∨ bitsOf x 223 192 ≠ m.wkey.toNat → refuses 2) ∧
      (bitOf x 0 = true → bitsOf x 223 192 = m.wkey.toNat →
        (bitsOf x 191 128 < m.offset.toNat + n → refuses 3) ∧ (m.offset.toNat + n ≤ bitsOf x 191 128 → bitOf x p.1 = false → refuses 4)))) ∧
  (∀ (s : State) (hp : Nat) (h : HeldReq), s.fab.held = [h] → h.hp = hp → h.m.num = true → (s.check hp).scobs = false →
        (∀ i < 4, planDies s.dev.plan i ≠ 0 → (s.check i).scobs = false) → (∃ i < 4, planDies s.dev.plan i ≠ 0) →
        ∃ t, exec (.evLimopSeqGapTimeout hp h.m.speer.toNat h.m.sinc.toNat) s = .next t ∧ t.fab.held = [] ∧ h.since + 2 * (s.hpFab hp).timeout ≤ t.ns ∧ t.mem = s.mem) ∧
  (∀ (s : State) (c : CachedRsp), s.fab.cache = [c] →
      ∃ t, exec (.evResponseCacheExpiry c.die c.m.dpeer.toNat c.m.dinc.toNat c.m.tag.toNat) s = .next t ∧ t.fab.cache = [] ∧ c.until_ ≤ t.ns ∧ t.mem = s.mem)

/-- R356, R367 to R369, R383, R386, R391 to R396, 14 R436: the fabric blocks and the Limop links. EN = 1 and RTLOAD read the route table; a good flit in order gives its messages, one in
error or ahead of a gap is answered with a NAK, held or at once; a NAK has every flit after FACK sent again; a partly filled flit leaves at its time. Light lost and
found changes the receive map, ACTMAP and TXEN the transmit map, and a port below four wavelengths goes down; a port that comes up starts anew. -/
def Obligations.Links : Prop :=
  ∀ (s : State) (hp g : Nat) (v : Quad), g < 16 →
    let x := s.hpFab hp
    let p := s.lport g
    let routes := fun (t : State) => ∀ d < 1024, smGet 0 d (t.hpFab hp).routes = if (s.region hp x.rtbase).backed then natOfBytes (memReadN s.mem.bytes (x.rtbase + 4 * d) 4) else 0
    let now := fun (i : Instr) (f : State → Port) => ∃ t, exec i s = .next t ∧ t.lport g = f t ∧ (∀ k, k ≠ g → t.lport k = s.lport k)
    let idle := p.queue = [] ∧ p.part = [] ∧ p.rest = [] ∧ p.window.length < 1024 ∧ ∀ w ∈ p.window, w.lost = false
    (∃ t, exec (.evFabricEnWrite hp v) s = .next t ∧ (t.hpFab hp).en = v.getLsbD 24 ∧ (t.hpFab hp).peer = (if x.en then x.peer else v.toNat % 1024) ∧
      (t.hpFab hp).inc = (if x.en then x.inc else v.toNat / 2 ^ 16 % 256) ∧ t.mem = s.mem ∧
      (((v.getLsbD 24 = true ∧ x.en = false) ∨ v.getLsbD 25 = true) → routes t) ∧ (v.getLsbD 24 = false → v.getLsbD 25 = false → (t.hpFab hp).routes = x.routes)) ∧
    (∃ t, exec (.evRtload hp) s = .next t ∧ routes t ∧ { t.hpFab hp with routes := x.routes } = x ∧ t.mem = s.mem) ∧
    (∀ ctx < 64, (v.getLsbD 17 = false → exec (.evFabricInvalidate hp ctx v) s = .next s) ∧
      (v.getLsbD 17 = true → v.getLsbD 16 = true → ∃ t, exec (.evFabricInvalidate hp ctx v) s = .next t ∧
        (∀ q < 1024, smFind (peerKey hp ctx q) t.fab.peers = none) ∧ ∀ w < 256, smFind (winKeyOf hp ctx w) t.fab.imports = none ∧ smFind (winKeyOf hp ctx w) t.fab.exports = none) ∧
      (v.getLsbD 17 = true → v.getLsbD 16 = false → ∃ t, exec (.evFabricInvalidate hp ctx v) s = .next t ∧ smFind (peerKey hp ctx (v.toNat % 1024)) t.fab.peers = none ∧
        t.fab.imports = s.fab.imports ∧ t.fab.exports = s.fab.exports)) ∧
    (∀ f : Flit, p.state = 2 → idle → p.window = [] → f.mapv = false → f.nak = false →
      (flitOk f = false → ∃ t, exec (.evFlitReceive g f) s = .next t ∧ (t.lport g).crcerr = p.crcerr + 1 ∧ (t.lport g).good = p.good ∧ t.fab.inbox = s.fab.inbox ∧
        (p.nak = 0 → (t.lport g).nak = 1)) ∧
      (∀ m : Msg, flitOk f = true → f.null = false → f.hole = false → f.fseq.toNat = (p.good + 1) % 4096 → p.rxBytes = [] → m.data = [] → (m.len = 0 ∨ m.mtype = 1) →
        m.mtype ≠ 0 → m.mtype ≠ 6 → m.mtype ≠ 7 → f.space = msgBytes m ++ List.replicate 192 0 →
        ∃ t, exec (.evFlitReceive g f) s = .next t ∧ t.fab.inbox = s.fab.inbox ++ [m] ∧ (t.lport g).good = f.fseq.toNat ∧ (t.lport g).nak = 0 ∧ (t.lport g).peerStop = f.stop) ∧
      (flitOk f = true → f.null = false → f.fseq.toNat ≠ (p.good + 1) % 4096 → seqUpTo f.fseq.toNat p.good = false →
        ∃ t, exec (.evFlitReceive g f) s = .next t ∧ t.fab.inbox = s.fab.inbox ∧ (t.lport g).nak = (if p.nak = 0 then 2 else p.nak) ∧ (t.lport g).good = p.good)) ∧
    (∀ fack, p.state = 2 → idle → let kept := p.window.filter fun w => !(seqUpTo w.flit.fseq.toNat fack)
      now (.evNakReceive g fack) fun _ => { p with window := kept, flits := p.flits + BitVec.ofNat 64 kept.length, replay := p.replay + BitVec.ofNat 64 kept.length, lastSent := s.ns }) ∧
    (p.nak = 2 → now (.evNakRepeat g) (fun t => { p with nakAt := t.ns, lastSent := t.ns }) ∧ ∀ t, exec (.evNakRepeat g) s = .next t → p.nakAt + 64 ≤ t.ns) ∧
    (p.nak = 1 → now (.evNakHoldExpiry g) (fun t => { p with nak := 2, nakAt := t.ns, lastSent := t.ns }) ∧ ∀ t, exec (.evNakHoldExpiry g) s = .next t → p.nakAt + 40 ≤ t.ns) ∧
    (p.state = 2 → p.part ≠ [] → p.part.length ≤ 240 → p.queue = [] → p.rest = [] → p.window.length < 1024 →
      ∃ t w, exec (.evFlitFlush g) s = .next t ∧ (t.lport g).window = p.window ++ [w] ∧ w.flit.space = p.part ++ List.replicate (240 - p.part.length) 0 ∧
        w.flit.fseq = BitVec.ofNat 12 p.nextSeq ∧ w.msgs = p.partMsgs ∧ (t.lport g).part = [] ∧ (t.lport g).nextSeq = (p.nextSeq + 1) % 4096 ∧ p.lastUnit + 64 ≤ t.ns) ∧
    (p.state = 2 → now (.evNullFlit g) (fun t => { p with lastSent := t.ns }) ∧ ∀ t, exec (.evNullFlit g) s = .next t → p.lastSent + 32 ≤ t.ns) ∧
    (∀ wave < 16, p.state = 2 →
      (∀ cause, p.rxmap.getLsbD wave = true → let map := p.rxmap &&& ~~~(1#16 <<< wave)
        (4 ≤ waveCount map → now (.evLossOfLight g wave cause) fun _ => { p with rxmap := map, nak := if p.nak = 1 then 2 else p.nak, nakAt := s.ns, lastSent := s.ns }) ∧
        (waveCount map < 4 → ∃ t, exec (.evLossOfLight g wave cause) s = .next t ∧ (t.lport g).state = 0)) ∧
      (p.rxmap.getLsbD wave = false → now (.evWavelengthRecovery g wave) fun _ =>
        { p with rxmap := p.rxmap ||| (1#16 <<< wave), nak := if p.nak = 1 then 2 else p.nak, nakAt := s.ns, lastSent := s.ns })) ∧
    (∀ (map : Half) (fack : Nat), p.state = 2 → idle →
      (map &&& p.txen = p.txmap → ∃ t, exec (.evActmapReceive g fack map) s = .next t ∧ (t.lport g).peerMap = map ∧ (t.lport g).txmap = p.txmap) ∧
      (map &&& p.txen ≠ p.txmap → 4 ≤ waveCount (map &&& p.txen) → ∃ t, exec (.evActmapReceive g fack map) s = .next t ∧ (t.lport g).txmap = map &&& p.txen ∧
        (t.lport g).window = p.window.filter fun w => !(seqUpTo w.flit.fseq.toNat fack)) ∧
      (map &&& p.txen ≠ p.txmap → waveCount (map &&& p.txen) < 4 → ∃ t, exec (.evActmapReceive g fack map) s = .next t ∧ (t.lport g).state = 0)) ∧
    (∀ cause, p.state ≠ 0 → ∃ t, exec (.evPortDown g cause) s = .next t ∧ (t.lport g).state = 0 ∧ (t.lport g).txmap = 0 ∧ (t.lport g).rxmap = 0 ∧ (t.lport g).window = [] ∧ (t.lport g).queue = []) ∧
    (p.state ≠ 2 → p.queue = [] → now (.evPortUp g) fun _ => { p with state := 2, txmap := p.txen, rxmap := 0xFFFF, peerMap := 0xFFFF, nextSeq := 0, good := 4095, rxBytes := [], nak := 0, peerStop := 0, window := [], part := [], first := 15, partMsgs := [], rest := [], restMsg := [], lastSent := s.ns, lastUnit := s.ns }) ∧
    (∀ w ∈ p.window, w.lost = false → now (.evSendWindowHole g w.flit.fseq.toNat) fun _ =>
      { p with holes := p.holes + 1, window := p.window.map fun u => if u.flit.fseq.toNat = w.flit.fseq.toNat then { u with lost := true } else u }) ∧
    (let en : Half := v.setWidth 16
     (waveCount en < 4 → exec (.evTxenWrite g v) s = .next s) ∧
     (4 ≤ waveCount en → p.state ≠ 2 → now (.evTxenWrite g v) fun _ => { p with txen := en }) ∧
     (4 ≤ waveCount en → p.state = 2 → idle → en &&& p.peerMap ≠ p.txmap → 4 ≤ waveCount (en &&& p.peerMap) →
       ∃ t, exec (.evTxenWrite g v) s = .next t ∧ (t.lport g).txen = en ∧ (t.lport g).txmap = en &&& p.peerMap)) ∧
    (∀ die port, let half := if s.wavelengths 1 ≤ s.wavelengths 0 then 0 else 1
      ∃ t, exec (.evBandwidthChange die port) s = .next t ∧ { t with dist := { t.dist with entries := s.dist.entries } } = s ∧
        t.dist.entries = s.dist.entries.map fun e => if e.hp = s.portOwner (8 * die + port) ∧ (e.kind = 3 ∨ e.kind = 4) ∧ e.stage ≤ 3 then { e with engine := half } else e)

/-! ## The device and its registers (14) -/

/-- R16, R18, R19, R427 to R437: power, partitions, keys, trusted interfaces and Glomel. A step change holds a die until it has relocked, and a write in the
meantime until then; a trip at 110 °C stops the clocks until a host reset; a plan is accepted while every context is idle and no way is vault, and ends with
near memory zero; KEYCMD moves slots through EMPTY, LOADED and DESTROYED or sets ERR; a TDI that leaves RUN has its slots destroyed; the device leaves reset
only when every image verifies; alarms act as GLPOL says. -/
def Obligations.DeviceSteps : Prop :=
  ∀ (s : State) (v : Quad),
    let d := s.dev
    let n := v.toNat
    let takes := fun (i : Instr) (y : Dev) => exec i s = .next { s with dev := y }
    let counted := fun (t : State) (c : Nat) => t.dev.errAt c = min (d.errAt c + 1) (2 ^ 64 - 1)
    (∃ t, exec (.evPstepWrite v) s = .next t ∧ { t with dev := { t.dev with steps := d.steps, relock := d.relock, stepHeld := d.stepHeld, stepErr := d.stepErr } } = s ∧
      (t.dev.stepErr = true ↔ (d.stepErr = true ∧ v.getLsbD 32 = false) ∨ ∃ k < 8, 6 ≤ n / 2 ^ (4 * k) % 8) ∧
      ∀ k < 8, let f := n / 2 ^ (4 * k) % 8
        let was := fun (y : Dev) => (smGet 0 k y.steps, smGet false k y.relock, smGet 0 k y.stepHeld)
        (6 ≤ f → was t.dev = was d) ∧ (f < 6 → smGet false k d.relock = true → was t.dev = (smGet 0 k d.steps, true, f + 1)) ∧
        (f < 6 → smGet false k d.relock = false → was t.dev = (f, decide (smGet 0 k d.steps ≠ f), smGet 0 k d.stepHeld))) ∧
    (∀ k, smGet false k d.relock = true → ∃ t, exec (.evStepRelockDone k) s = .next t ∧ smGet 0 k t.dev.stepHeld = 0 ∧
      (smGet 0 k d.stepHeld = 0 → smGet false k t.dev.relock = false ∧ smGet 0 k t.dev.steps = smGet 0 k d.steps) ∧
      (∀ f, smGet 0 k d.stepHeld = f + 1 → smGet 0 k t.dev.steps = f ∧ (smGet false k t.dev.relock = true ↔ smGet 0 k d.steps ≠ f))) ∧
    (∀ die < 26, ∀ temp : Half, (temp.toNat < 1760 → exec (.evThermalTrip die temp) s = .next s) ∧
      (1760 ≤ temp.toNat → ∃ t, exec (.evThermalTrip die temp) s = .next t ∧ { t with dev := { t.dev with therm := d.therm, tripped := d.tripped, errcnt := d.errcnt } } = s ∧
        t.dev.tripped = true ∧ counted t 15 ∧ t.dev.therm.getLsbD 0 = true ∧ t.dev.therm.toNat / 2 % 32 = die ∧ t.dev.therm.toNat / 2 ^ 16 % 2 ^ 16 = temp.toNat ∧
        t.dev.therm.toNat / 2 ^ 32 = s.ns / 1000 % 2 ^ 32)) ∧
    takes .evHostReset { d with tripped := false } ∧
    (∃ t, exec .evPowerOnReset s = .next t ∧ { t with agenda := State.reset.agenda, free := State.reset.free } = State.reset) ∧
    (let err := d.planErr && !v.getLsbD 4
     let y : Dev := { d with planErr := err, cxlown := BitVec.ofNat 16 (n / 2 ^ 16), lmown := BitVec.ofNat 32 (n / 2 ^ 32) }
     ((∃ p ∈ s.ccbs, p.2.state ≠ 0) ∨ (∃ p ∈ s.mem.vaults, p.2.vault ≠ 0) ∨ d.planBusy = true → takes (.evPartcfgWrite v) { d with planErr := true }) ∧
     ((∀ p ∈ s.ccbs, p.2.state = 0) → (∀ p ∈ s.mem.vaults, p.2.vault = 0) → d.planBusy = false →
       (n % 8 = d.plan → d.plan ≤ 4 → takes (.evPartcfgWrite v) y) ∧ (n % 8 ≤ 4 → n % 8 ≠ d.plan → takes (.evPartcfgWrite v) { y with plan := n % 8, planBusy := true }) ∧
       (4 < n % 8 → takes (.evPartcfgWrite v) { y with planErr := true }))) ∧
    (d.planBusy = true → ∃ t, exec .evPlanChangeDone s = .next t ∧ t.dev = { d with planBusy := false } ∧ (∀ a, t.byteAt a = if a < 0x8000000000 then 0 else s.byteAt a) ∧ { t with dev := d, mem := s.mem } = s) ∧
    (let slot := n % 8192
     let part := n / 2 ^ 16 % 4
     let hnd := n / 2 ^ 32 % 2 ^ 16
     let x := s.keySlot slot
     let refused := fun (i : Instr) => takes i { d with keyErr := true }
     let loads := fun (t : State) (dr : Nat) (im : Option Nat) => t.keySlot slot = { st := 1, part := part, draw := dr, imported := im } ∧
       (∀ k, k ≠ slot → t.keySlot k = s.keySlot k) ∧ { t with dev := { t.dev with keys := d.keys }, free := s.free } = s
     let barred := slot = 0 ∨ d.keyBusy = true
     let bound := s.boundInRun slot = true
     (barred ∨ planDies d.plan part = 0 ∨ x.st ≠ 0 → refused (.evKeyGenerate v) ∧ refused (.evKeyImport v)) ∧
     (barred ∨ x.st ≠ 1 ∨ bound → refused (.evKeyDestroy v)) ∧ (barred ∨ x.st ≠ 2 ∨ bound → refused (.evKeyClear v)) ∧
     (¬ barred → planDies d.plan part ≠ 0 → x.st = 0 →
       (∃ t, exec (.evKeyGenerate v) s = .next t ∧ loads t s.free none ∧ t.free = s.free + 1) ∧
       (hnd ∈ d.handles → ∃ t, exec (.evKeyImport v) s = .next t ∧ loads t 0 (some hnd) ∧ t.free = s.free) ∧
       (hnd ∉ d.handles → ∃ t, exec (.evKeyImport v) s = .next t ∧ t.dev.keyErr = true ∧ counted t 18 ∧ (t.keySlot slot).st = 0)) ∧
     (¬ barred → ¬ bound → x.st = 1 → ∃ t, exec (.evKeyDestroy v) s = .next t ∧ t.keySlot slot = { x with st := 2 } ∧ (∀ k, k ≠ slot → t.keySlot k = s.keySlot k) ∧
       { t with dev := { t.dev with keys := d.keys } } = { s with dev := { d with keyBusy := true, keyDoomed := d.keyDoomed ++ [slot] } }) ∧
     (¬ barred → ¬ bound → x.st = 2 → ∃ t, exec (.evKeyClear v) s = .next t ∧ (t.keySlot slot).st = 0 ∧ (∀ k, k ≠ slot → t.keySlot k = s.keySlot k) ∧
       { t with dev := { t.dev with keys := d.keys } } = s)) ∧
    (d.keyBusy = true → ∃ t, exec .evKeyDestroyDone s = .next t ∧ t.dev = { d with keyBusy := false, keyDoomed := [] } ∧ t.mem.bytes = s.mem.bytes ∧
      (∀ cl, (∀ x ∈ (t.l1 cl).sectors, x.key ∉ d.keyDoomed) ∧ (∀ e ∈ (t.l1 cl).wbuf, e.key ∉ d.keyDoomed) ∧ ∀ x ∈ (t.l1 cl).icache, x.2.key ∉ d.keyDoomed) ∧
      (∀ p ∈ t.mem.l2, ∀ x ∈ p.2, x.key ∉ d.keyDoomed) ∧ ∀ p ∈ t.mem.sill, ∀ x ∈ p.2, x.key ∉ d.keyDoomed) ∧
    (∀ port < 2, ∀ vf, 1 ≤ vf → vf < 128 →
      let x := s.tdi port vf
      let becomes := fun (t : State) (y : Tdi) => t.tdi port vf = y ∧ (∀ k, k ≠ tdiKey port vf → smGet Tdi.reset k t.dev.tdis = smGet Tdi.reset k d.tdis)
      let sets := fun (i : Instr) (y : Tdi) => ∃ t, exec i s = .next t ∧ becomes t y ∧ { t with dev := { t.dev with tdis := d.tdis } } = s
      let leaves := fun (i : Instr) (y : Tdi) => ∃ t, exec i s = .next t ∧ becomes t y ∧
        (∀ k, t.keySlot k = if k ∈ x.slots ∧ (s.keySlot k).st = 1 then { s.keySlot k with st := 2 } else s.keySlot k) ∧
        (t.dev.keyBusy = true ↔ d.keyBusy = true ∨ ∃ k ∈ x.slots, (s.keySlot k).st = 1)
      (∀ ks, x.st = 0 → sets (.evLockInterface port vf ks) { st := 1, slots := ks }) ∧ (x.st = 1 → sets (.evStartInterface port vf) { x with st := 2 }) ∧
      (x.st ≠ 1 → exec (.evStartInterface port vf) s = .next s) ∧
      (x.st = 2 → leaves (.evStopInterface port vf) { st := 0, slots := [] } ∧ leaves (.evFunctionLevelReset port vf) { st := 0, slots := [] } ∧
        leaves (.evIdeIntegrityFailure port vf) { x with st := 3 })) ∧
    (∀ images : List BootImage, d.booted = false → d.bootFail = false → d.alarmHold = false →
      let sound := images ≠ [] ∧ ∀ b ∈ images, b.ecdsaOk = true ∧ b.lmsOk = true ∧ Config.fusedVersion ≤ b.version
      (¬ sound → takes (.evGlomelBoot images) { d with bootFail := true }) ∧
      (sound → ∃ t, exec (.evGlomelBoot images) s = .next t ∧ t.dev.booted = true ∧ (t.keySlot 0).st = 1 ∧ (∀ k, k ≠ 0 → t.keySlot k = s.keySlot k) ∧
        { t with dev := { t.dev with booted := false, keys := d.keys }, free := s.free } = s)) ∧
    takes .evGlomelFailover { d with glActive := 1 } ∧
    takes .evSpdmRequest { d with attested := d.attested + 1, handles := d.handles ++ [d.attested] } ∧
    (∀ a : Alarm, ∃ t, exec (.evSecurityAlarm a) s = .next t ∧ counted t 18 ∧
      let g := fun (lo : Nat) => d.glpol.toNat / 2 ^ lo % 4
      let destroyed := fun (ks : List Nat) => ∀ k ∈ ks, (s.keySlot k).st = 1 → (t.keySlot k).st = 2
      ((a.cause = .tamper ∧ g 0 = 2) ∨ (a.cause = .glitch ∧ g 2 = 2) ∨ (a.cause = .misuse ∧ g 4 = 2) →
        t.dev.booted = false ∧ (∀ k, (t.keySlot k).st ≠ 1) ∧ ∀ port vf, (t.tdi port vf).st ≠ 2) ∧
      ((a.cause = .tamper ∧ g 0 ≤ 1) ∨ (a.cause = .glitch ∧ g 2 ≤ 1) ∨ (a.cause = .misuse ∧ g 4 = 1) → destroyed a.slots ∧ t.dev.booted = d.booted) ∧
      (a.cause = .hash → g 6 = 1 → destroyed (a.slots.filter s.boundInRun) ∧ ∀ k, k ∉ a.slots → s.boundInRun k = false → t.keySlot k = s.keySlot k) ∧
      ((a.cause = .misuse ∧ g 4 = 0) ∨ (a.cause = .hash ∧ g 6 = 0) → { t with dev := { t.dev with errcnt := d.errcnt } } = s)) ∧
    (d.glpol.getLsbD 8 = true → exec (.evGlpolWrite v) s = .next s) ∧ (d.glpol.getLsbD 8 = false → takes (.evGlpolWrite v) { d with glpol := v &&& 0x1FF }) ∧
    (∀ c < 768,
      let x := s.chan c
      let y : Srpol := { x with mode := n % 4, idle := n / 2 ^ 8 % 2 ^ 24, spent := false }
      let now := fun (i : Instr) (z : Srpol) (t : State) => exec i s = .next t ∧ t.chan c = z ∧ (∀ k, k ≠ c → t.chan k = s.chan k) ∧
        { t with dev := { t.dev with srpol := d.srpol, errcnt := d.errcnt }, clk := s.clk } = s
      (∃ t, now (.evSrpolWrite c v) { y with insr := x.insr || decide (n % 4 = 2) } t ∧ (n % 4 = 2 → x.insr = false → counted t 16)) ∧
      (x.mode = 1 → x.insr = false → ∃ t, now (.evSelfRefreshEntry c) { x with insr := true } t ∧ counted t 16 ∧ x.expiry ≤ t.clk.ticks) ∧
      (x.insr = true → ∃ t, now (.evSelfRefreshExit c) { x with insr := false, idleFrom := s.clk.ticks, spent := x.spent || decide (x.mode = 2) } t ∧ t.clk = s.clk) ∧
      (x.mode = 1 → x.insr = false → x.expiry = s.clk.ticks → ∃ t, now (.evSelfRefreshExit c) { x with idleFrom := s.clk.ticks } t ∧ counted t 17))

/-- R7, R28, R29, R37, R340, R424 to R426, R439: the registers and the host's ports. A write to a register whose rule gives it an effect has that effect;
a control block's other fields are written while its context is idle or saved; a host store or AtomicOp changes the bytes it names, and one that
reaches no unit is dropped and counted; a store to half a register clears nothing in the other half; an access that finds others waiting waits behind
them, and a read is given its bytes; the RESYNC summary begins with its magic and version, and its end raises the management vectors. -/
def Obligations.RegistersAndHostPorts : Prop :=
  ∀ (s : State) (v : Quad),
    let base := 0xF000000000
    let w := fun (off : Nat) => exec (.evRegisterWrite (base + off) v) s
    let d := s.dev
    let counted := fun (t : State) (c : Nat) => { t with dev := { t.dev with errcnt := d.errcnt } } = s ∧ t.dev.errAt c = min (d.errAt c + 1) (2 ^ 64 - 1)
    w 0 = exec (.evPartcfgWrite v) s ∧ w 0x100 = exec (.evPstepWrite v) s ∧ w 0x200 = exec (.evResyncGo v) s ∧ w 0x5100 = exec (.evGlpolWrite v) s ∧
    (∀ c < 768, w (0x3000 + 8 * c) = exec (.evSrpolWrite c v) s) ∧
    (let op := v.toNat / 2 ^ 13 % 8
     (op = 0 → w 0x5000 = .next s) ∧ (op = 1 → w 0x5000 = exec (.evKeyGenerate v) s) ∧ (op = 2 → w 0x5000 = exec (.evKeyImport v) s) ∧
     (op = 3 → w 0x5000 = exec (.evKeyDestroy v) s) ∧ (op = 4 → w 0x5000 = exec (.evKeyClear v) s) ∧ (5 ≤ op → w 0x5000 = .next { s with dev := { d with keyErr := true } })) ∧
    (∀ q < 4096, w (0x2000000 + 32 * q) = exec (.evQcrWrite q 0 v) s) ∧
    (∀ hp < 4, w (0x3000000 + 0x1000 * hp) = exec (.evChkmodeWrite hp v) s ∧ w (0x3000008 + 0x1000 * hp) = exec (.evOrdinjWrite hp v) s ∧
      w (0x3000028 + 0x1000 * hp) = exec (.evShootdownGo hp v) s ∧ w (0x6000000 + 0x1000 * hp) = exec (.evFabricEnWrite hp v) s ∧
      ((s.hpFab hp).en = true → w (0x6000008 + 0x1000 * hp) = .next s ∧ w (0x6000010 + 0x1000 * hp) = .next s ∧ w (0x6000018 + 0x1000 * hp) = .next s)) ∧
    (∀ g < 16, w (0x6080038 + 0x100 * g) = exec (.evTxenWrite g v) s) ∧
    (∀ hp < 4, ∀ ctx < 64,
      let at_ := fun (off : Nat) => w (0x4000000 + 0x40000 * hp + 0x1000 * ctx + off)
      let c := s.ccb hp ctx
      at_ 0 = exec (.evCtxEnWrite hp ctx v) s ∧ at_ 0x20 = exec (.evFqrdWrite hp ctx (v.setWidth 32)) s ∧
      (v.toNat % 4 = 0 → at_ 0xA0 = .next s) ∧ (v.toNat % 4 = 1 → at_ 0xA0 = exec (.evCtxSave hp ctx) s) ∧ (v.toNat % 4 = 2 → at_ 0xA0 = exec (.evCtxRestore hp ctx) s) ∧
      (v.toNat % 4 = 3 → at_ 0xA0 = exec (.evCtxKill hp ctx) s) ∧
      (v.getLsbD 16 = true → at_ 0x28 = exec (.evRetryFail hp ctx (v.toNat % 2 ^ 16)) s) ∧ (v.getLsbD 16 = false → at_ 0x28 = exec (.evRetryRetry hp ctx (v.toNat % 2 ^ 16)) s) ∧
      (∀ p ∈ ([(0x10, { c with fqbase := v &&& ~~~0xFFF }), (0x18, { c with fqlog := v.toNat % 32 }), (0x38, { c with tltab := v }), (0x40, { c with tlcnt := v.toNat % 2 ^ 17 }),
               (0x48, { c with qtab := v }), (0x50, { c with qcnt := v.toNat % 2 ^ 16 }), (0x60, { c with ellog := v.toNat % 32 }), (0x68, { c with drainlim := v.setWidth 32 })] : List (Nat × Ccb)),
        (c.state = 0 ∨ c.state = 3 → ∃ t, at_ p.1 = .next t ∧ t.ccb hp ctx = p.2 ∧ { t with ccbs := s.ccbs } = s ∧ ∀ h k, (h, k) ≠ (hp, ctx) → k < 64 → t.ccb h k = s.ccb h k) ∧
        (c.state = 1 ∨ c.state = 2 → at_ p.1 = .next s)) ∧
      w (0x5000020 + 0x40000 * hp + 0x1000 * ctx) = exec (.evFabricInvalidate hp ctx v) s) ∧
    (∃ t, w 0x300 = .next t ∧ { t with dev := { t.dev with irqvec0 := d.irqvec0 } } = s ∧ ∀ b < 64, t.dev.irqvec0.getLsbD b = (v.getLsbD b && (b % 16 < 11 && b < 43 || 48 ≤ b && b < 51))) ∧
    (∃ t, w 0x10000000 = .next t ∧ counted t 8) ∧
    (d.rsBusy = true → v.getLsbD 0 = true → w 0x200 = .next { s with dev := { d with rsErr := true } }) ∧
    (d.rsBusy = false → v.getLsbD 0 = true →
      w 0x200 = .next { s with dev := { d with rsbase := v.toNat / 4096 % 2 ^ 40 * 4096, rsBusy := true, rsErr := d.rsErr && !v.getLsbD 2 } }) ∧
    (∀ hp < 4, d.rsBusy = true → (s.region hp d.rsbase).backed = true → ∃ t, exec .evResyncDone s = .next t ∧ t.dev.rsBusy = false ∧
      natOfBytes (memReadN t.mem.bytes d.rsbase 4) = 0x52535943 ∧ natOfBytes (memReadN t.mem.bytes (d.rsbase + 4) 4) = 1 ∧
      natOfBytes (memReadN t.mem.bytes (d.rsbase + 64) 8) = s.readRegister base % 2 ^ 64 ∧ (∀ a, a < d.rsbase ∨ d.rsbase + 4096 ≤ a → t.byteAt a = s.byteAt a) ∧
      (d.irqvec0.getLsbD 50 = true → ({ port := 0, fn := 0, vec := d.irqvec0.toNat / 2 ^ 32 % 2 ^ 11 } : Irq) ∈ t.dev.irqs)) ∧
    (∀ a : HostWrite, a.vf = 0 → a.op = .store (bytesOfNat 8 v.toNat) → a.pa % 8 = 0 → windowOf a.pa = 3 → exec (.evHostPortWrite a) s = exec (.evRegisterWrite a.pa v) s) ∧
    (∀ (a : HostWrite) (x : Word), a.vf = 0 → a.op = .store (bytesOfNat 4 x.toNat) → a.pa % 4 = 0 → windowOf a.pa = 3 →
      let at8 := a.pa / 8 * 8
      let lo := 8 * (a.pa % 8)
      let other := 32 - lo
      let reg := s.readRegister at8
      ∃ u : Quad, exec (.evHostPortWrite a) s = exec (.evRegisterWrite at8 u) s ∧ u.toNat / 2 ^ lo % 2 ^ 32 = x.toNat ∧
        (at8 ≠ base + 0x100 → u.toNat / 2 ^ other % 2 ^ 32 = (reg - (reg &&& clearedByOne at8)) / 2 ^ other % 2 ^ 32) ∧
        u.toNat / 2 ^ other % 2 ^ 32 &&& clearedByOne at8 / 2 ^ other = 0) ∧
    (∀ (a : HostWrite) (n : Nat), a.vf = 0 → a.op = .read n → windowOf a.pa = 3 → regAt (a.pa / 8 * 8) ≠ .none →
      exec (.evHostPortWrite a) s = .next { s with dev := { d with hostData := ((bytesOfNat 8 (s.readRegister (a.pa / 8 * 8))).drop (a.pa % 8)).take n } }) ∧
    (∀ a : HostWrite, windowOf a.pa ≠ 3 →
      (s.hostReaches a = none → ∃ t, exec (.evHostPortWrite a) s = .next t ∧
        match a.op with
        | .read k => t.dev.hostData = List.replicate k 0 ∧ t.dev.errAt 7 = min (d.errAt 7 + 1) (2 ^ 64 - 1) ∧ { t with dev := { t.dev with errcnt := d.errcnt, hostData := d.hostData } } = s
        | _ => counted t 8) ∧
      (∀ hp, s.hostReaches a = some hp → d.hostq ≠ [] → exec (.evHostPortWrite a) s = .next { s with dev := { d with hostq := d.hostq ++ [a] } }) ∧
      (∀ hp, s.hostReaches a = some hp → d.hostq = [] → s.mem.migs = [] → s.mem.ops = [] → s.openWindows none = [] →
        let writes := fun (bs : List Byte) (y : Dev) => ∃ t, exec (.evHostPortWrite a) s = .next t ∧ StoresAt s t a.pa bs ∧ t.slices = s.slices ∧ t.dev = y
        let old := fun (k : Nat) => memReadN s.mem.bytes a.pa k
        let clean := fun (k : Nat) => s.poisoned a.pa k = false
        let gives := fun (k : Nat) => { d with hostData := old k }
        match a.op with
        | .read k => clean k → ∃ t, exec (.evHostPortWrite a) s = .next t ∧ t.mem.bytes = s.mem.bytes ∧ t.slices = s.slices ∧ t.dev = gives k
        | .store bs => writes bs d
        | .swap k x => clean k → writes (bytesOfNat k x.toNat) (gives k)
        | .fetchAdd k x => clean k → writes (bytesOfNat k (natOfBytes (old k) + x.toNat)) (gives k)
        | .cas k e x => clean k → writes (if natOfBytes (old k) = e.toNat % 2 ^ (8 * k) then bytesOfNat k x.toNat else old k) (gives k)))

/-! ## The whole machine (00 R3, 01 R19, 03 R70 to R79, 14 R424 to R437) -/

/-- R70, R73, R78, R79: the words that encode gives a well-formed instruction decode to it, with every operand at every value, whatever words come after;
the one exception is ADD v0, v0, v0, whose only word would be zero (R72). -/
def Obligations.DecodeOfEncode : Prop :=
  ∀ (i : Instr) (ws rest : List Nat), i.wellFormed = true → encode i = some ws →
    (∀ w ∈ ws, w < 2 ^ 32) ∧ ws.length = wordCount (ws.headD 0) ∧
    (ws = [0] ↔ i = .bviAdd { d := 0, a := 0, b := 0, bk := false, lit := none }) ∧ (ws ≠ [0] → decodeWords (ws ++ rest) = .ok i)

/-- R102 and the entries of 03 to 13: words of the spec's own examples decode to the instructions that they stand for. -/
def Obligations.DecodedWords : Prop :=
  ∀ p ∈ ([([0x00006213], .bviAdd { d := 3, a := 4, b := 9, bk := true, lit := none }),
      ([0x84018800, 0x12C, 0], .bviiAdd { d := 3, a := 4, imm := 0, lit := some 300 }),
      ([0x0830FFF8], .bbrBrcAny { s := 3, off := -8, lit := none }),
      ([0x09000005], .bctYield { d := 0, a := 0, b := 0, lit := none }),
      ([0x61030A0B, 0x03C80E00, 0xA6400000], .xfFfma (plainHead 10 11 3 200) { plainArith .f32 with rnd := .rz, sat := true, kb := true }),
      ([0x65502882, 0x00003502, 0x0000409A], .xmLd { d := 0x28, a := 0x82, b := 0, c := 0, la := 3, gp := 2, gn := true, wk := 2, lit := none } (plainMem 5 0x40 .dev .acq .f32)),
      ([0x67700A02, 0x0B0C0E00, 0x000008B5], .xaAtom (plainHead 10 2 11 12) (plainMem 7 8 .dev .acqrel .z32)),
      ([0x68000000, 0x00000E00, 0x00000080], .xoFence (plainHead 0 0 0 0) (plainMem 0 0 .dev .rlx .i8)),
      ([0x6A030000, 0x00000E00, 0], .xuPhsw (plainHead 0 0 0 0) (plainMem 0 0 .team .rlx .i8)),
      ([0x6B000190, 0x00000E00, 0x00000080], .xpCpy (plainHead 1 0x90 0 0) (plainMem 0 0 .dev .rlx .i8)),
      ([0x6C0103B0, 0x00000E00, 0], .xxTmma (plainHead 3 0xB0 0 0) (plainCommand .i8 .i8 0 0)),
      ([0x6E010294, 0x00000E00, 0x00010000], .xvColl (plainHead 2 0x94 0 0) (plainCommand .i8 .i8 1 0)),
      ([0x6F000400, 0x00000E00, 0x00000020], .xzCsrr (plainHead 4 0 0 0) (plainCommand .i8 .i8 0 0x20))] : List (List Nat × Instr)), decodeWords p.1 = .ok p.2

/-- R71, R98, 07 R226: where the words at the issuing gang's PC decode to an instruction, a step is its meaning, or a stall where that meets a line or a page that is
held, and the end of the issue clock where no gang is left to issue in it; the fetch changes instruction caches and the tags of the caches below them alone; a
lane-wise f64 instruction takes the partition's next clock as well (05 R148). Where no gang is to issue and none is to be chosen, the step that comes first on the
agenda runs, unless it has to wait: then another that is due does. -/
def Obligations.StepRunsTheDecoded : Prop :=
  ∀ (s : State), s.dev.booted = true → s.dev.tripped = false →
    (∀ (g : GangRef) (e : TlbEntry) (ws : List Nat) (i : Instr), s.iss.now.head? = some g → CodeAt s g e ws → decodeWords ws = .ok i →
      ∃ u, Fetched s u ∧ step s = endIssueOf (unlessBlocked (.next (s.popIssue.stallGang .retry g.refs)) (afterIssue i (exec i u))) ∧
        ∀ t, exec i u = .next t → t.mem.blocked = false → t.iss.now ≠ [] → takesSecond i = false → step s = .next t) ∧
    (∀ i rest, s.iss.now = [] → s.iss.opened = false → s.agenda = i :: rest → step s = unlessBlocked s.autoStep (exec i { s with agenda := rest }) ∧
      ∀ t, exec i { s with agenda := rest } = .next t → t.mem.blocked = false → step s = .next t) ∧
    (s.iss.now = [] → s.iss.opened = true → ∃ t, step s = .next t ∧ t.iss.opened = false ∧ t.iss.part = s.iss.part) ∧
    (∀ (u : State), endIssueOf (.next u) = .next (if u.iss.now = [] then u.endIssue else u)) ∧
    ∀ (i : Instr) (u : State), takesSecond i = true → u.iss.stalled = none →
      afterIssue i (.next u) = .next { u with iss := { u.iss with second := smSet u.iss.part (u.partClock u.iss.part + 1) u.iss.second } }

/-- R72: the word 0 is not an instruction, and a slice that meets it as a first word takes ILL, as it does at any words that do not decode; the same value is
legal inside a literal, and as word 1 or word 2. -/
def Obligations.ZeroWord : Prop :=
  (∀ rest, decodeWords (0 :: rest) = .error .zeroWord) ∧
  (∀ (s : State) (g h : GangRef) (r : SliceRef) (e : TlbEntry) (ws gs) (err : DecodeError), s.dev.booted = true → s.dev.tripped = false → s.iss.now = g :: h :: gs →
    g.bent < 64 → CodeAt s g e ws → decodeWords ws = .error err → Alone s g r →
    ∃ t, step s = .next t ∧ Trapped s t r (faultAll causeIll) (s.slice r).pc (s.slice r).pc (BitVec.ofNat 32 (ws.headD 0)) ∧
      (∀ q, valid q → q ≠ r → t.slice q = s.slice q) ∧ t.mem.bytes = s.mem.bytes) ∧
  decodeWords [0x80000000, 0, 0] = .ok (.bviAdd { d := 0, a := 0, b := 0, bk := false, lit := some 0 }) ∧
  decodeWords [0x65000080, 0, 0] = .ok (.xmLd { plainHead 0 0x80 0 0 with gp := 0 } (plainMem 0 0 .team .rlx .i8))

/-- 14 R425 to R438, 12 R367, R369, R388, 11 R340, 07 R243 to R251, 08 R277: every register of the register range reads its reset value; the device is held in
reset, where a step that is no boot and no reset is a fault of that name; the invariants of runs hold. -/
def Obligations.ResetRegisters : Prop :=
  let at_ := fun (off : Nat) => State.reset.readRegister (0xF000000000 + off)
  at_ 0 = 4 ∧ at_ 0x100 = 0 ∧ at_ 0x108 = 0 ∧ at_ 0x200 = 0 ∧ at_ 0x300 = 0x0007000200010000 ∧ at_ 0x308 = 0x0000000200010000 ∧ at_ 0x5008 = 0 ∧ at_ 0x5100 = 0x5A ∧
  (∀ k < 256, at_ (0x1000 + 8 * k) = 0) ∧ (∀ k < 32, at_ (0x2000 + 8 * k) = 0) ∧ (∀ c < 768, at_ (0x3000 + 8 * c) = 1000 * 2 ^ 8) ∧ (∀ k < 4, at_ (0x1000000 + 0x1000 * k) = 0) ∧
  (∀ q < 4096, ∀ f < 4, at_ (0x2000000 + 32 * q + 8 * f) = 0) ∧
  (∀ hp < 4, (∀ f < 512, at_ (0x3000000 + 0x1000 * hp + 8 * f) = 0) ∧ (∀ f < 512, at_ (0x6000000 + 0x1000 * hp + 8 * f) = if f = 4 then 1000 else 0) ∧
    ∀ ctx < 64, (∀ f < 512, f ≠ 16 → at_ (0x4000000 + 0x40000 * hp + 0x1000 * ctx + 8 * f) = if f = 13 then 200 else 0) ∧
      ∀ f < 512, at_ (0x5000000 + 0x40000 * hp + 0x1000 * ctx + 8 * f) = 0) ∧
  (∀ g < 16, ∀ f < 32, at_ (0x6080000 + 0x100 * g + 8 * f) = if f = 7 then 0xFFFF else 0) ∧
  InReset State.reset ∧ memoryCanonical State.reset ∧ step State.reset = .fault .heldInReset

/-- 14 R432, R435: the device does not leave reset until every step of the boot has passed: a machine that is in reset, with no sound chain of images to come, stays
so, and until a power-on reset no slice and no byte of memory changes. -/
def Obligations.ResetHolds : Prop :=
  ∀ (s t : State), InReset s → step s = .next t →
    InReset t ∧ (s.agenda.head? ≠ some .evPowerOnReset → t.slices = s.slices ∧ t.mem = s.mem ∧ t.dev.errcnt = s.dev.errcnt)

/-- 01 R19: after a thermal trip the device resumes only after a host reset: until one comes no slice, team, clock, engine or byte of memory changes, and a step that
is not Glomel's stops the run under a name of its own. -/
def Obligations.TripHolds : Prop :=
  ∀ (s : State), Stopped s →
    (∀ t, step s = .next t → Stopped t ∧ { t with agenda := s.agenda, dev := { t.dev with therm := s.dev.therm, errcnt := s.dev.errcnt } } = s) ∧
    (∀ i rest, s.agenda = i :: rest → (∀ d x, i ≠ .evThermalTrip d x) → (∀ x, i ≠ .evGlomelBoot x) → step s = .fault .clocksStopped) ∧
    (s.agenda = [] → step s = .fault .clocksStopped) ∧
    (∀ rest, step { s with agenda := .evHostReset :: rest } = .next { s with agenda := rest, dev := { s.dev with tripped := false } })

/-- R3 and the one form of memory: bytes stored lowest first read back, the byte at the lowest address holding bits 7:0; every other byte is as it was; and two
memories in their form that read alike at every address are equal. -/
def Obligations.MemoryForm : Prop :=
  (∀ (m : Memory) (a n v : Nat), let m' := memWriteN m a (bytesOfNat n v)
    natOfBytes (memReadN m' a n) = v % 2 ^ (8 * n) ∧ (∀ k < n, memRead m' (a + k) = BitVec.ofNat 8 (v / 2 ^ (8 * k))) ∧
    (∀ c, c < a ∨ a + n ≤ c → memRead m' c = memRead m c) ∧ (Memory.wf m = true → Memory.wf m' = true)) ∧
  (∀ (m m' : Memory), Memory.wf m = true → Memory.wf m' = true → (∀ a, memRead m a = memRead m' a) → m = m') ∧
  (∀ (s : State) (who pa : Nat) (bs : List Byte), let t := s.commitAll who pa bs
    StoresAt s t pa bs ∧ (memoryCanonical s → memoryCanonical t) ∧ t.slices = s.slices ∧ t.dev = s.dev)

/-- Memory keeps its one form: whatever a step does, the list of bytes stays sorted, with no entry that an unlisted address would read as. -/
def Obligations.MemoryStaysCanonical : Prop := ∀ (s t : State), memoryCanonical s → step s = .next t → memoryCanonical t
end

