-- ==== Sys2Proof/Laws/Maps.lean ====
section
/-! SUPPORT. Laws of the sparse stores: a read after a write, and that every operation keeps the one form; the same of
memory (01 R28) and of the byte stores over it. -/

namespace Sys2Proof.Machine

variable {α : Type}

/-! ## Reading after writing -/

theorem smGet_smSet (d : α) (k j : Nat) (x : α) (m : SMap α) :
    smGet d j (smSet k x m) = if j = k then x else smGet d j m := by
  induction m with
  | nil => simp [smSet, smGet, eq_comm]
  | cons p m ih =>
    obtain ⟨i, y⟩ := p
    by_cases h1 : i = k
    · subst h1; by_cases h2 : j = i
      · subst h2; simp [smSet, smGet]
      · simp [smSet, smGet, h2, Ne.symm h2]
    · by_cases h3 : k < i
      · by_cases h2 : j = k
        · subst h2; simp [smSet, smGet, h1, h3]
        · simp [smSet, smGet, h1, h3, h2, Ne.symm h2]
      · by_cases h2 : i = j
        · subst h2; simp [smSet, smGet, h1, h3]
        · simp [smSet, smGet, h1, h3, h2, ih]

theorem smGet_smDel (d : α) (k j : Nat) (m : SMap α) : smGet d j (smDel k m) = if j = k then d else smGet d j m := by
  induction m with
  | nil => simp [smDel, smGet]
  | cons p m ih =>
    obtain ⟨i, y⟩ := p
    by_cases h1 : i = k
    · subst h1; by_cases h2 : j = i
      · subst h2; simpa [smDel] using ih
      · simp [smDel, smGet, ih, h2, Ne.symm h2]
    · by_cases h2 : i = j
      · subst h2; simp [smDel, smGet, h1]
      · simp [smDel, smGet, h1, h2, ih]

theorem smGet_smPut [DecidableEq α] (d : α) (k j : Nat) (x : α) (m : SMap α) :
    smGet d j (smPut d k x m) = if j = k then x else smGet d j m := by
  unfold smPut
  split
  · subst_vars; exact smGet_smDel _ _ _ _
  · exact smGet_smSet _ _ _ _ _

@[simp] theorem smGet_smSet_same (d : α) (k : Nat) (x : α) (m : SMap α) : smGet d k (smSet k x m) = x := by simp [smGet_smSet]
@[simp] theorem smGet_smPut_same [DecidableEq α] (d : α) (k : Nat) (x : α) (m : SMap α) : smGet d k (smPut d k x m) = x := by
  simp [smGet_smPut]

theorem smGet_smSet_ne {d : α} {k j : Nat} {x : α} {m : SMap α} (h : j ≠ k) : smGet d j (smSet k x m) = smGet d j m := by
  simp [smGet_smSet, h]
theorem smGet_smPut_ne [DecidableEq α] {d : α} {k j : Nat} {x : α} {m : SMap α} (h : j ≠ k) :
    smGet d j (smPut d k x m) = smGet d j m := by simp [smGet_smPut, h]

theorem smFind_smSet (k j : Nat) (x : α) (m : SMap α) : smFind j (smSet k x m) = if j = k then some x else smFind j m := by
  induction m with
  | nil => simp [smSet, smFind, eq_comm]
  | cons p m ih =>
    obtain ⟨i, y⟩ := p
    by_cases h1 : i = k
    · subst h1; by_cases h2 : j = i
      · subst h2; simp [smSet, smFind]
      · simp [smSet, smFind, h2, Ne.symm h2]
    · by_cases h3 : k < i
      · by_cases h2 : j = k
        · subst h2; simp [smSet, smFind, h1, h3]
        · simp [smSet, smFind, h1, h3, h2, Ne.symm h2]
      · by_cases h2 : i = j
        · subst h2; simp [smSet, smFind, h1, h3]
        · simp [smSet, smFind, h1, h3, h2, ih]

theorem smFind_smDel (k j : Nat) (m : SMap α) : smFind j (smDel k m) = if j = k then none else smFind j m := by
  induction m with
  | nil => simp [smDel, smFind]
  | cons p m ih =>
    obtain ⟨i, y⟩ := p
    by_cases h1 : i = k
    · subst h1; by_cases h2 : j = i
      · subst h2; simpa [smDel] using ih
      · simp [smDel, smFind, ih, h2, Ne.symm h2]
    · by_cases h2 : i = j
      · subst h2; simp [smDel, smFind, h1]
      · simp [smDel, smFind, h1, h2, ih]

theorem smGet_eq_smFind (d : α) (k : Nat) (m : SMap α) : smGet d k m = (smFind k m).getD d := by
  induction m with
  | nil => rfl
  | cons p m ih => obtain ⟨i, y⟩ := p; simp only [smGet, smFind]; split <;> simp_all

/-! ## The one form -/

/-- Keys rise strictly, in terms of pairwise order. -/
theorem smSorted_iff (m : SMap α) : smSorted m = true ↔ m.Pairwise (fun p q => p.1 < q.1) := by
  induction m with
  | nil => simp [smSorted]
  | cons p m ih =>
    cases m with
    | nil => simp [smSorted]
    | cons q m =>
      obtain ⟨j, x⟩ := p
      obtain ⟨k, y⟩ := q
      simp only [smSorted, Bool.and_eq_true, decide_eq_true_eq, ih, List.pairwise_cons, List.mem_cons, forall_eq_or_imp]
      constructor
      · rintro ⟨h, h1, h2⟩; exact ⟨⟨h, fun a ha => Nat.lt_trans h (h1 a ha)⟩, h1, h2⟩
      · rintro ⟨⟨h, _⟩, h1, h2⟩; exact ⟨h, h1, h2⟩

theorem mem_smSet {k : Nat} {x : α} {m : SMap α} {p : Nat × α} (h : p ∈ smSet k x m) : p = (k, x) ∨ p ∈ m := by
  induction m with
  | nil => simpa [smSet] using h
  | cons q m ih =>
    obtain ⟨i, y⟩ := q
    simp only [smSet] at h
    split at h <;> (try split at h) <;> simp only [List.mem_cons] at h ⊢
    · rcases h with h | h <;> simp_all
    · exact h
    · rcases h with h | h
      · simp_all
      · rcases ih h with h | h <;> simp_all

theorem mem_smDel {k : Nat} {m : SMap α} {p : Nat × α} (h : p ∈ smDel k m) : p ∈ m := by
  induction m with
  | nil => simp [smDel] at h
  | cons q m ih =>
    obtain ⟨i, y⟩ := q
    simp only [smDel] at h
    split at h
    · exact List.mem_cons_of_mem _ (ih h)
    · rcases List.mem_cons.1 h with h | h
      · simp_all
      · exact List.mem_cons_of_mem _ (ih h)

theorem smSorted_smSet {k : Nat} {x : α} {m : SMap α} (h : smSorted m = true) : smSorted (smSet k x m) = true := by
  rw [smSorted_iff] at *
  induction m with
  | nil => simp [smSet]
  | cons q m ih =>
    obtain ⟨i, y⟩ := q
    rw [List.pairwise_cons] at h
    simp only [smSet]
    split
    · subst_vars; exact List.pairwise_cons.2 ⟨h.1, h.2⟩
    · split
      · refine List.pairwise_cons.2 ⟨?_, List.pairwise_cons.2 h⟩
        intro a ha
        rcases List.mem_cons.1 ha with rfl | ha
        · assumption
        · exact Nat.lt_trans ‹_› (h.1 a ha)
      · refine List.pairwise_cons.2 ⟨?_, ih h.2⟩
        intro a ha
        rcases mem_smSet ha with rfl | ha
        · simp only; omega
        · exact h.1 a ha

theorem smSorted_smDel {k : Nat} {m : SMap α} (h : smSorted m = true) : smSorted (smDel k m) = true := by
  rw [smSorted_iff] at *
  induction m with
  | nil => simp [smDel]
  | cons q m ih =>
    obtain ⟨i, y⟩ := q
    rw [List.pairwise_cons] at h
    simp only [smDel]
    split
    · exact ih h.2
    · exact List.pairwise_cons.2 ⟨fun a ha => h.1 a (mem_smDel ha), ih h.2⟩

theorem smWf_smPut [DecidableEq α] {d : α} {k : Nat} {x : α} {m : SMap α} (h : smWf d m = true) : smWf d (smPut d k x m) = true := by
  simp only [smWf, smNoDefault, Bool.and_eq_true, List.all_eq_true, decide_eq_true_eq] at *
  unfold smPut
  split
  · exact ⟨smSorted_smDel h.1, fun p hp => h.2 p (mem_smDel hp)⟩
  · refine ⟨smSorted_smSet h.1, fun p hp => ?_⟩
    rcases mem_smSet hp with rfl | hp
    · assumption
    · exact h.2 p hp

/-! ## Memory -/

/-- A write keeps memory's one form. -/
theorem memWrite_wf {m : Memory} {a : Nat} {b : Byte} (h : Memory.wf m = true) : Memory.wf (memWrite m a b) = true := smWf_smPut h

theorem memWriteN_wf {m : Memory} {a : Nat} {bs : List Byte} (h : Memory.wf m = true) : Memory.wf (memWriteN m a bs) = true := by
  induction bs generalizing m a with
  | nil => exact h
  | cons b bs ih => exact ih (memWrite_wf h)

/-- A read after a write. -/
theorem memRead_memWrite (m : Memory) (a c : Nat) (b : Byte) : memRead (memWrite m a b) c = if c = a then b else memRead m c :=
  smGet_smPut _ _ _ _ _

/-- Bytes outside those written read as before; those written read as they were given. -/
theorem memRead_memWriteN (m : Memory) (a c : Nat) (bs : List Byte) :
    memRead (memWriteN m a bs) c = if a ≤ c then (bs[c - a]?).getD (memRead m c) else memRead m c := by
  induction bs generalizing m a with
  | nil => simp [memWriteN]
  | cons b bs ih =>
    simp only [memWriteN, ih, memRead_memWrite]
    by_cases h : a + 1 ≤ c
    · have h1 : a ≤ c := by omega
      have h2 : c - a = (c - (a + 1)) + 1 := by omega
      have h3 : c ≠ a := by omega
      simp [h, h1, h2, h3]
    · by_cases h1 : a = c
      · subst h1; simp
      · have h4 : ¬ a ≤ c := by omega
        have h3 : c ≠ a := fun h => h1 h.symm
        simp [h, h3, h4]

theorem memReadN_length (m : Memory) (a n : Nat) : (memReadN m a n).length = n := by
  induction n generalizing a with
  | zero => rfl
  | succ n ih => simp [memReadN, ih]

theorem memReadN_get (m : Memory) (a n i : Nat) (h : i < n) : (memReadN m a n)[i]? = some (memRead m (a + i)) := by
  induction n generalizing a i with
  | zero => omega
  | succ n ih =>
    cases i with
    | zero => simp [memReadN]
    | succ i => simp only [memReadN, List.getElem?_cons_succ]; rw [ih _ _ (by omega)]; congr 2; omega

/-- A read of bytes just written gives them. -/
theorem memReadN_memWriteN (m : Memory) (a : Nat) (bs : List Byte) : memReadN (memWriteN m a bs) a bs.length = bs := by
  apply List.ext_getElem?
  intro i
  by_cases h : i < bs.length
  · rw [memReadN_get _ _ _ _ h, memRead_memWriteN]; simp [h]
  · rw [List.getElem?_eq_none (by rw [memReadN_length]; omega), List.getElem?_eq_none (by omega)]

/-- A read of bytes outside those written gives what it gave. -/
theorem memReadN_memWriteN_apart (m : Memory) (a c n : Nat) (bs : List Byte) (h : c + n ≤ a ∨ a + bs.length ≤ c) :
    memReadN (memWriteN m a bs) c n = memReadN m c n := by
  apply List.ext_getElem?
  intro i
  by_cases hi : i < n
  · rw [memReadN_get _ _ _ _ hi, memReadN_get _ _ _ _ hi, memRead_memWriteN]
    split
    · rw [List.getElem?_eq_none (by omega)]; simp
    · rfl
  · rw [List.getElem?_eq_none (by rw [memReadN_length]; omega), List.getElem?_eq_none (by rw [memReadN_length]; omega)]

/-- A store of bytes in a sparse store, as `memRead_memWriteN`. -/
theorem smGet_bytesPut (m : SMap Byte) (a c : Nat) (bs : List Byte) :
    smGet 0 c (bytesPut m a bs) = if a ≤ c then (bs[c - a]?).getD (smGet 0 c m) else smGet 0 c m := by
  induction bs generalizing m a with
  | nil => simp [bytesPut]
  | cons b bs ih =>
    simp only [bytesPut, ih, smGet_smPut]
    by_cases h : a + 1 ≤ c
    · have h1 : a ≤ c := by omega
      have h2 : c - a = (c - (a + 1)) + 1 := by omega
      have h3 : c ≠ a := by omega
      simp [h, h1, h2, h3]
    · by_cases h1 : a = c
      · subst h1; simp
      · have h4 : ¬ a ≤ c := by omega
        have h3 : c ≠ a := fun h => h1 h.symm
        simp [h, h3, h4]

theorem bytesGet_length (m : SMap Byte) (a n : Nat) : (bytesGet m a n).length = n := by
  induction n generalizing a with
  | zero => rfl
  | succ n ih => simp [bytesGet, ih]

end Sys2Proof.Machine
end

