-- ==== Sys2Proof/Laws/Registers.lean ====
section
/-! SUPPORT. Laws of a slice's registers (03 R88, R89): what a read gives after a write, and after a list of writes. -/

namespace Sys2Proof.Machine

/-! ## One write -/

theorem key_inj {n m i j : Nat} (hi : i < 4) (hj : j < 4) : 4 * n + i = 4 * m + j ↔ n = m ∧ i = j := by omega

theorem Slice.getV_setV (x : Slice) (n m i j : Nat) (w : Word) (hi : i < 4) (hj : j < 4) :
    (x.setV n i w).getV m j = if m = n ∧ j = i then w else x.getV m j := by
  simp only [Slice.getV, Slice.setV, smGet_smPut, key_inj hj hi]

@[simp] theorem Slice.getS_setV (x : Slice) (n m i : Nat) (w : Word) : (x.setV n i w).getS m = x.getS m := rfl
@[simp] theorem Slice.getP_setV (x : Slice) (n m i j : Nat) (w : Word) : (x.setV n i w).getP m j = x.getP m j := rfl
theorem Slice.getS_setS (x : Slice) (n m : Nat) (w : Word) : (x.setS n w).getS m = if m = n then w else x.getS m := by
  simp only [Slice.getS, Slice.setS, smGet_smPut]
@[simp] theorem Slice.getV_setS (x : Slice) (n m j : Nat) (w : Word) : (x.setS n w).getV m j = x.getV m j := rfl
@[simp] theorem Slice.getP_setS (x : Slice) (n m j : Nat) (w : Word) : (x.setS n w).getP m j = x.getP m j := rfl

@[simp] theorem Slice.getV_setP (x : Slice) (n m i j : Nat) (b : Bool) : (x.setP n i b).getV m j = x.getV m j := by
  unfold Slice.setP; split <;> rfl
@[simp] theorem Slice.getS_setP (x : Slice) (n m i : Nat) (b : Bool) : (x.setP n i b).getS m = x.getS m := by
  unfold Slice.setP; split <;> rfl

theorem one_shift_getLsbD (k i : Nat) (hi : i < 32) : (1#32 <<< k).getLsbD i = decide (i = k) := by
  simp only [BitVec.getLsbD_shiftLeft, BitVec.getLsbD_one, hi, decide_true, Bool.true_and]
  by_cases h : i = k
  · subst h; simp
  · by_cases h2 : i < k
    · simp [h, h2]
    · have h3 : ¬ (i - k = 0) := by omega
      simp [h, h2, h3]

theorem Slice.getP_setP (x : Slice) (n m i j : Nat) (b : Bool) (hm : m < 8) (hi : i < 4) (hj : j < 4) :
    (x.setP n i b).getP m j = if m = n ∧ j = i then (m == 7 || b) else x.getP m j := by
  unfold Slice.setP Slice.getP
  by_cases hn : n = 7
  · subst hn
    by_cases h : m = 7 ∧ j = i
    · simp [h.1, h.2]
    · simp [h]
  · have hk : 4 * m + j < 32 := by omega
    have hq : decide (4 * m + j = 4 * n + i) = decide (m = n ∧ j = i) := by
      apply decide_eq_decide.2; exact key_inj hj hi
    simp only [hn, if_false]
    cases b
    · simp only [Bool.false_eq_true, if_false, BitVec.getLsbD_and, BitVec.getLsbD_not, one_shift_getLsbD _ _ hk, hk, decide_true, Bool.true_and, hq]
      by_cases h : m = n ∧ j = i
      · simp [h.1, h.2]
      · simp [h]
    · simp only [if_true, BitVec.getLsbD_or, one_shift_getLsbD _ _ hk, hq]
      by_cases h : m = n ∧ j = i
      · simp [h.1, h.2]
      · simp [h]

@[simp] theorem Slice.setP_fflags (x : Slice) (n i : Nat) (b : Bool) : (x.setP n i b).fflags = x.fflags := by
  unfold Slice.setP; split <;> rfl

theorem getP_seven (x : Slice) (lane : Nat) : x.getP 7 lane = true := by simp [Slice.getP]

/-! ## A list of writes -/

open Sys2Proof.Safety

theorem Slice.put_v (x : Slice) (w : RegWrite) (hw : w.lane < 4) (n lane : Nat) (hl : lane < 4) :
    (x.put w).getV n lane = if reaches w (.v n) lane then w.val else x.getV n lane := by
  unfold Slice.put reaches
  cases hr : w.reg with
  | v m => simp only [Slice.getV_setV _ _ _ _ _ _ hw hl]; by_cases h : n = m ∧ lane = w.lane
           · simp [h.1, h.2]
           · have h' : ¬ (m = n ∧ w.lane = lane) := fun e => h ⟨e.1.symm, e.2.symm⟩
             simp [h, h']
  | s m => simp
  | p m => simp

theorem Slice.put_s (x : Slice) (w : RegWrite) (n : Nat) :
    (x.put w).getS n = if reaches w (.s n) 0 then w.val else x.getS n := by
  unfold Slice.put reaches
  cases hr : w.reg with
  | v m => simp
  | s m => simp only [Slice.getS_setS]; by_cases h : n = m
           · simp [h]
           · simp [h, Ne.symm h]
  | p m => simp

theorem Slice.put_p (x : Slice) (w : RegWrite) (hw : w.lane < 4) (n lane : Nat) (hn : n < 8) (hl : lane < 4) :
    (x.put w).getP n lane = if n = 7 then true else if reaches w (.p n) lane then w.val.getLsbD 0 else x.getP n lane := by
  unfold Slice.put reaches
  cases hr : w.reg with
  | v m => by_cases h : n = 7
           · subst h; simp [getP_seven]
           · simp [h]
  | s m => by_cases h : n = 7
           · subst h; simp [getP_seven]
           · simp [h]
  | p m =>
    simp only [Slice.getP_setP _ _ _ _ _ _ hn hw hl]
    by_cases h7 : n = 7
    · simp [h7, Slice.getP]
    · by_cases h : n = m ∧ lane = w.lane
      · simp only [h.1, h.2]; simp [h.1 ▸ h7]
      · have h' : ¬ (m = n ∧ w.lane = lane) := fun e => h ⟨e.1.symm, e.2.symm⟩
        simp [h, h', h7]

/-- A list of writes leaves each register with the last value written to it. -/
theorem Slice.putAll_wrote (ws : List RegWrite) (hw : ∀ w ∈ ws, w.lane < 4) (x : Slice) : Wrote ws x (x.putAll ws) := by
  induction ws generalizing x with
  | nil =>
    refine ⟨fun _ _ _ => rfl, fun _ => rfl, fun n lane _ _ => ?_⟩
    by_cases h : n = 7
    · simp [writtenBit, h, getP_seven]
    · simp [writtenBit, h, Slice.putAll]
  | cons w ws ih =>
    have h1 := hw w (by simp)
    have h2 := ih (fun w hw' => hw w (by simp [hw'])) (x.put w)
    refine ⟨fun n lane hl => ?_, fun n => ?_, fun n lane hn hl => ?_⟩
    · simp only [Slice.putAll, h2.v n lane hl, Slice.put_v x w h1 n lane hl, written, List.foldl_cons]
    · simp only [Slice.putAll, h2.s n, Slice.put_s x w n, written, List.foldl_cons]
    · simp only [Slice.putAll, h2.p n lane hn hl, Slice.put_p x w h1 n lane hn hl, writtenBit, List.foldl_cons]
      by_cases h : n = 7 <;> simp [h]

/-- A list of writes changes registers alone. -/
theorem Slice.putAll_eq (ws : List RegWrite) (x : Slice) :
    x.putAll ws = { x with v := (x.putAll ws).v, s := (x.putAll ws).s, preds := (x.putAll ws).preds } := by
  induction ws generalizing x with
  | nil => rfl
  | cons w ws ih =>
    have h : x.put w = { x with v := (x.put w).v, s := (x.put w).s, preds := (x.put w).preds } := by
      unfold Slice.put; split
      · rfl
      · rfl
      · unfold Slice.setP; split <;> rfl
    simp only [Slice.putAll]; rw [ih (x.put w)]
    generalize (x.put w).putAll ws = y
    rw [h]

end Sys2Proof.Machine
end

