-- ==== Sys2Proof/Laws/State.lean ====
section
/-! SUPPORT. What each update of the state leaves alone, field by field. -/

namespace Sys2Proof.Machine

@[simp] theorem State.setSlice_agenda (s : State) (r : SliceRef) (x : Slice) : (s.setSlice r x).agenda = s.agenda := rfl
@[simp] theorem State.setSlice_clk (s : State) (r : SliceRef) (x : Slice) : (s.setSlice r x).clk = s.clk := rfl
@[simp] theorem State.setSlice_iss (s : State) (r : SliceRef) (x : Slice) : (s.setSlice r x).iss = s.iss := rfl
@[simp] theorem State.setSlice_gangs (s : State) (r : SliceRef) (x : Slice) : (s.setSlice r x).gangs = s.gangs := rfl
@[simp] theorem State.setSlice_teams (s : State) (r : SliceRef) (x : Slice) : (s.setSlice r x).teams = s.teams := rfl
@[simp] theorem State.setSlice_mem (s : State) (r : SliceRef) (x : Slice) : (s.setSlice r x).mem = s.mem := rfl
@[simp] theorem State.setSlice_sync (s : State) (r : SliceRef) (x : Slice) : (s.setSlice r x).sync = s.sync := rfl
@[simp] theorem State.setSlice_copy (s : State) (r : SliceRef) (x : Slice) : (s.setSlice r x).copy = s.copy := rfl
@[simp] theorem State.setSlice_mat (s : State) (r : SliceRef) (x : Slice) : (s.setSlice r x).mat = s.mat := rfl
@[simp] theorem State.setSlice_dist (s : State) (r : SliceRef) (x : Slice) : (s.setSlice r x).dist = s.dist := rfl
@[simp] theorem State.setSlice_fab (s : State) (r : SliceRef) (x : Slice) : (s.setSlice r x).fab = s.fab := rfl
@[simp] theorem State.setSlice_coll (s : State) (r : SliceRef) (x : Slice) : (s.setSlice r x).coll = s.coll := rfl
@[simp] theorem State.setSlice_checks (s : State) (r : SliceRef) (x : Slice) : (s.setSlice r x).checks = s.checks := rfl
@[simp] theorem State.setSlice_ccbs (s : State) (r : SliceRef) (x : Slice) : (s.setSlice r x).ccbs = s.ccbs := rfl
@[simp] theorem State.setSlice_dev (s : State) (r : SliceRef) (x : Slice) : (s.setSlice r x).dev = s.dev := rfl
@[simp] theorem State.setSlice_free (s : State) (r : SliceRef) (x : Slice) : (s.setSlice r x).free = s.free := rfl

@[simp] theorem State.modSlice_agenda (s : State) (r : SliceRef) (f : Slice → Slice) : (s.modSlice r f).agenda = s.agenda := rfl
@[simp] theorem State.modSlice_clk (s : State) (r : SliceRef) (f : Slice → Slice) : (s.modSlice r f).clk = s.clk := rfl
@[simp] theorem State.modSlice_iss (s : State) (r : SliceRef) (f : Slice → Slice) : (s.modSlice r f).iss = s.iss := rfl
@[simp] theorem State.modSlice_gangs (s : State) (r : SliceRef) (f : Slice → Slice) : (s.modSlice r f).gangs = s.gangs := rfl
@[simp] theorem State.modSlice_teams (s : State) (r : SliceRef) (f : Slice → Slice) : (s.modSlice r f).teams = s.teams := rfl
@[simp] theorem State.modSlice_mem (s : State) (r : SliceRef) (f : Slice → Slice) : (s.modSlice r f).mem = s.mem := rfl
@[simp] theorem State.modSlice_sync (s : State) (r : SliceRef) (f : Slice → Slice) : (s.modSlice r f).sync = s.sync := rfl
@[simp] theorem State.modSlice_copy (s : State) (r : SliceRef) (f : Slice → Slice) : (s.modSlice r f).copy = s.copy := rfl
@[simp] theorem State.modSlice_mat (s : State) (r : SliceRef) (f : Slice → Slice) : (s.modSlice r f).mat = s.mat := rfl
@[simp] theorem State.modSlice_dist (s : State) (r : SliceRef) (f : Slice → Slice) : (s.modSlice r f).dist = s.dist := rfl
@[simp] theorem State.modSlice_fab (s : State) (r : SliceRef) (f : Slice → Slice) : (s.modSlice r f).fab = s.fab := rfl
@[simp] theorem State.modSlice_coll (s : State) (r : SliceRef) (f : Slice → Slice) : (s.modSlice r f).coll = s.coll := rfl
@[simp] theorem State.modSlice_checks (s : State) (r : SliceRef) (f : Slice → Slice) : (s.modSlice r f).checks = s.checks := rfl
@[simp] theorem State.modSlice_ccbs (s : State) (r : SliceRef) (f : Slice → Slice) : (s.modSlice r f).ccbs = s.ccbs := rfl
@[simp] theorem State.modSlice_dev (s : State) (r : SliceRef) (f : Slice → Slice) : (s.modSlice r f).dev = s.dev := rfl
@[simp] theorem State.modSlice_free (s : State) (r : SliceRef) (f : Slice → Slice) : (s.modSlice r f).free = s.free := rfl

@[simp] theorem State.setTeam_agenda (s : State) (n : Nat) (x : Team) : (s.setTeam n x).agenda = s.agenda := rfl
@[simp] theorem State.setTeam_clk (s : State) (n : Nat) (x : Team) : (s.setTeam n x).clk = s.clk := rfl
@[simp] theorem State.setTeam_iss (s : State) (n : Nat) (x : Team) : (s.setTeam n x).iss = s.iss := rfl
@[simp] theorem State.setTeam_slices (s : State) (n : Nat) (x : Team) : (s.setTeam n x).slices = s.slices := rfl
@[simp] theorem State.setTeam_gangs (s : State) (n : Nat) (x : Team) : (s.setTeam n x).gangs = s.gangs := rfl
@[simp] theorem State.setTeam_mem (s : State) (n : Nat) (x : Team) : (s.setTeam n x).mem = s.mem := rfl
@[simp] theorem State.setTeam_sync (s : State) (n : Nat) (x : Team) : (s.setTeam n x).sync = s.sync := rfl
@[simp] theorem State.setTeam_copy (s : State) (n : Nat) (x : Team) : (s.setTeam n x).copy = s.copy := rfl
@[simp] theorem State.setTeam_mat (s : State) (n : Nat) (x : Team) : (s.setTeam n x).mat = s.mat := rfl
@[simp] theorem State.setTeam_dist (s : State) (n : Nat) (x : Team) : (s.setTeam n x).dist = s.dist := rfl
@[simp] theorem State.setTeam_fab (s : State) (n : Nat) (x : Team) : (s.setTeam n x).fab = s.fab := rfl
@[simp] theorem State.setTeam_coll (s : State) (n : Nat) (x : Team) : (s.setTeam n x).coll = s.coll := rfl
@[simp] theorem State.setTeam_checks (s : State) (n : Nat) (x : Team) : (s.setTeam n x).checks = s.checks := rfl
@[simp] theorem State.setTeam_ccbs (s : State) (n : Nat) (x : Team) : (s.setTeam n x).ccbs = s.ccbs := rfl
@[simp] theorem State.setTeam_dev (s : State) (n : Nat) (x : Team) : (s.setTeam n x).dev = s.dev := rfl
@[simp] theorem State.setTeam_free (s : State) (n : Nat) (x : Team) : (s.setTeam n x).free = s.free := rfl

@[simp] theorem State.modTeam_agenda (s : State) (n : Nat) (f : Team → Team) : (s.modTeam n f).agenda = s.agenda := rfl
@[simp] theorem State.modTeam_clk (s : State) (n : Nat) (f : Team → Team) : (s.modTeam n f).clk = s.clk := rfl
@[simp] theorem State.modTeam_iss (s : State) (n : Nat) (f : Team → Team) : (s.modTeam n f).iss = s.iss := rfl
@[simp] theorem State.modTeam_slices (s : State) (n : Nat) (f : Team → Team) : (s.modTeam n f).slices = s.slices := rfl
@[simp] theorem State.modTeam_gangs (s : State) (n : Nat) (f : Team → Team) : (s.modTeam n f).gangs = s.gangs := rfl
@[simp] theorem State.modTeam_mem (s : State) (n : Nat) (f : Team → Team) : (s.modTeam n f).mem = s.mem := rfl
@[simp] theorem State.modTeam_sync (s : State) (n : Nat) (f : Team → Team) : (s.modTeam n f).sync = s.sync := rfl
@[simp] theorem State.modTeam_copy (s : State) (n : Nat) (f : Team → Team) : (s.modTeam n f).copy = s.copy := rfl
@[simp] theorem State.modTeam_mat (s : State) (n : Nat) (f : Team → Team) : (s.modTeam n f).mat = s.mat := rfl
@[simp] theorem State.modTeam_dist (s : State) (n : Nat) (f : Team → Team) : (s.modTeam n f).dist = s.dist := rfl
@[simp] theorem State.modTeam_fab (s : State) (n : Nat) (f : Team → Team) : (s.modTeam n f).fab = s.fab := rfl
@[simp] theorem State.modTeam_coll (s : State) (n : Nat) (f : Team → Team) : (s.modTeam n f).coll = s.coll := rfl
@[simp] theorem State.modTeam_checks (s : State) (n : Nat) (f : Team → Team) : (s.modTeam n f).checks = s.checks := rfl
@[simp] theorem State.modTeam_ccbs (s : State) (n : Nat) (f : Team → Team) : (s.modTeam n f).ccbs = s.ccbs := rfl
@[simp] theorem State.modTeam_dev (s : State) (n : Nat) (f : Team → Team) : (s.modTeam n f).dev = s.dev := rfl
@[simp] theorem State.modTeam_free (s : State) (n : Nat) (f : Team → Team) : (s.modTeam n f).free = s.free := rfl

@[simp] theorem State.setGangs_agenda (s : State) (n b : Nat) (x : List Gang) : (s.setGangs n b x).agenda = s.agenda := rfl
@[simp] theorem State.setGangs_clk (s : State) (n b : Nat) (x : List Gang) : (s.setGangs n b x).clk = s.clk := rfl
@[simp] theorem State.setGangs_iss (s : State) (n b : Nat) (x : List Gang) : (s.setGangs n b x).iss = s.iss := rfl
@[simp] theorem State.setGangs_slices (s : State) (n b : Nat) (x : List Gang) : (s.setGangs n b x).slices = s.slices := rfl
@[simp] theorem State.setGangs_teams (s : State) (n b : Nat) (x : List Gang) : (s.setGangs n b x).teams = s.teams := rfl
@[simp] theorem State.setGangs_mem (s : State) (n b : Nat) (x : List Gang) : (s.setGangs n b x).mem = s.mem := rfl
@[simp] theorem State.setGangs_sync (s : State) (n b : Nat) (x : List Gang) : (s.setGangs n b x).sync = s.sync := rfl
@[simp] theorem State.setGangs_copy (s : State) (n b : Nat) (x : List Gang) : (s.setGangs n b x).copy = s.copy := rfl
@[simp] theorem State.setGangs_mat (s : State) (n b : Nat) (x : List Gang) : (s.setGangs n b x).mat = s.mat := rfl
@[simp] theorem State.setGangs_dist (s : State) (n b : Nat) (x : List Gang) : (s.setGangs n b x).dist = s.dist := rfl
@[simp] theorem State.setGangs_fab (s : State) (n b : Nat) (x : List Gang) : (s.setGangs n b x).fab = s.fab := rfl
@[simp] theorem State.setGangs_coll (s : State) (n b : Nat) (x : List Gang) : (s.setGangs n b x).coll = s.coll := rfl
@[simp] theorem State.setGangs_checks (s : State) (n b : Nat) (x : List Gang) : (s.setGangs n b x).checks = s.checks := rfl
@[simp] theorem State.setGangs_ccbs (s : State) (n b : Nat) (x : List Gang) : (s.setGangs n b x).ccbs = s.ccbs := rfl
@[simp] theorem State.setGangs_dev (s : State) (n b : Nat) (x : List Gang) : (s.setGangs n b x).dev = s.dev := rfl
@[simp] theorem State.setGangs_free (s : State) (n b : Nat) (x : List Gang) : (s.setGangs n b x).free = s.free := rfl

@[simp] theorem State.popIssue_agenda (s : State) : (s.popIssue).agenda = s.agenda := rfl
@[simp] theorem State.popIssue_clk (s : State) : (s.popIssue).clk = s.clk := rfl
@[simp] theorem State.popIssue_slices (s : State) : (s.popIssue).slices = s.slices := rfl
@[simp] theorem State.popIssue_gangs (s : State) : (s.popIssue).gangs = s.gangs := rfl
@[simp] theorem State.popIssue_teams (s : State) : (s.popIssue).teams = s.teams := rfl
@[simp] theorem State.popIssue_mem (s : State) : (s.popIssue).mem = s.mem := rfl
@[simp] theorem State.popIssue_sync (s : State) : (s.popIssue).sync = s.sync := rfl
@[simp] theorem State.popIssue_copy (s : State) : (s.popIssue).copy = s.copy := rfl
@[simp] theorem State.popIssue_mat (s : State) : (s.popIssue).mat = s.mat := rfl
@[simp] theorem State.popIssue_dist (s : State) : (s.popIssue).dist = s.dist := rfl
@[simp] theorem State.popIssue_fab (s : State) : (s.popIssue).fab = s.fab := rfl
@[simp] theorem State.popIssue_coll (s : State) : (s.popIssue).coll = s.coll := rfl
@[simp] theorem State.popIssue_checks (s : State) : (s.popIssue).checks = s.checks := rfl
@[simp] theorem State.popIssue_ccbs (s : State) : (s.popIssue).ccbs = s.ccbs := rfl
@[simp] theorem State.popIssue_dev (s : State) : (s.popIssue).dev = s.dev := rfl
@[simp] theorem State.popIssue_free (s : State) : (s.popIssue).free = s.free := rfl

@[simp] theorem State.withBytes_agenda (s : State) (m : Memory) : (s.withBytes m).agenda = s.agenda := rfl
@[simp] theorem State.withBytes_clk (s : State) (m : Memory) : (s.withBytes m).clk = s.clk := rfl
@[simp] theorem State.withBytes_iss (s : State) (m : Memory) : (s.withBytes m).iss = s.iss := rfl
@[simp] theorem State.withBytes_slices (s : State) (m : Memory) : (s.withBytes m).slices = s.slices := rfl
@[simp] theorem State.withBytes_gangs (s : State) (m : Memory) : (s.withBytes m).gangs = s.gangs := rfl
@[simp] theorem State.withBytes_teams (s : State) (m : Memory) : (s.withBytes m).teams = s.teams := rfl
@[simp] theorem State.withBytes_mem_poison (s : State) (m : Memory) : (s.withBytes m).mem.poison = s.mem.poison := rfl
@[simp] theorem State.withBytes_mem_lines (s : State) (m : Memory) : (s.withBytes m).mem.lines = s.mem.lines := rfl
@[simp] theorem State.withBytes_mem_l1 (s : State) (m : Memory) : (s.withBytes m).mem.l1 = s.mem.l1 := rfl
@[simp] theorem State.withBytes_mem_l2 (s : State) (m : Memory) : (s.withBytes m).mem.l2 = s.mem.l2 := rfl
@[simp] theorem State.withBytes_mem_sill (s : State) (m : Memory) : (s.withBytes m).mem.sill = s.mem.sill := rfl
@[simp] theorem State.withBytes_mem_xfers (s : State) (m : Memory) : (s.withBytes m).mem.xfers = s.mem.xfers := rfl
@[simp] theorem State.withBytes_mem_notCurrent (s : State) (m : Memory) : (s.withBytes m).mem.notCurrent = s.mem.notCurrent := rfl
@[simp] theorem State.withBytes_mem_seqTx (s : State) (m : Memory) : (s.withBytes m).mem.seqTx = s.mem.seqTx := rfl
@[simp] theorem State.withBytes_mem_seqRx (s : State) (m : Memory) : (s.withBytes m).mem.seqRx = s.mem.seqRx := rfl
@[simp] theorem State.withBytes_mem_l1tlb (s : State) (m : Memory) : (s.withBytes m).mem.l1tlb = s.mem.l1tlb := rfl
@[simp] theorem State.withBytes_mem_l2tlb (s : State) (m : Memory) : (s.withBytes m).mem.l2tlb = s.mem.l2tlb := rfl
@[simp] theorem State.withBytes_mem_blocked (s : State) (m : Memory) : (s.withBytes m).mem.blocked = s.mem.blocked := rfl
@[simp] theorem State.withBytes_mem_faults (s : State) (m : Memory) : (s.withBytes m).mem.faults = s.mem.faults := rfl
@[simp] theorem State.withBytes_mem_nextTag (s : State) (m : Memory) : (s.withBytes m).mem.nextTag = s.mem.nextTag := rfl
@[simp] theorem State.withBytes_mem_ops (s : State) (m : Memory) : (s.withBytes m).mem.ops = s.mem.ops := rfl
@[simp] theorem State.withBytes_mem_nextOp (s : State) (m : Memory) : (s.withBytes m).mem.nextOp = s.mem.nextOp := rfl
@[simp] theorem State.withBytes_mem_vaults (s : State) (m : Memory) : (s.withBytes m).mem.vaults = s.mem.vaults := rfl
@[simp] theorem State.withBytes_mem_windows (s : State) (m : Memory) : (s.withBytes m).mem.windows = s.mem.windows := rfl
@[simp] theorem State.withBytes_mem_known (s : State) (m : Memory) : (s.withBytes m).mem.known = s.mem.known := rfl
@[simp] theorem State.withBytes_mem_migs (s : State) (m : Memory) : (s.withBytes m).mem.migs = s.mem.migs := rfl
@[simp] theorem State.withBytes_mem_publish (s : State) (m : Memory) : (s.withBytes m).mem.publish = s.mem.publish := rfl
@[simp] theorem State.withBytes_mem_ranges (s : State) (m : Memory) : (s.withBytes m).mem.ranges = s.mem.ranges := rfl
@[simp] theorem State.withBytes_sync (s : State) (m : Memory) : (s.withBytes m).sync = s.sync := rfl
@[simp] theorem State.withBytes_copy (s : State) (m : Memory) : (s.withBytes m).copy = s.copy := rfl
@[simp] theorem State.withBytes_mat (s : State) (m : Memory) : (s.withBytes m).mat = s.mat := rfl
@[simp] theorem State.withBytes_dist (s : State) (m : Memory) : (s.withBytes m).dist = s.dist := rfl
@[simp] theorem State.withBytes_fab (s : State) (m : Memory) : (s.withBytes m).fab = s.fab := rfl
@[simp] theorem State.withBytes_coll (s : State) (m : Memory) : (s.withBytes m).coll = s.coll := rfl
@[simp] theorem State.withBytes_checks (s : State) (m : Memory) : (s.withBytes m).checks = s.checks := rfl
@[simp] theorem State.withBytes_ccbs (s : State) (m : Memory) : (s.withBytes m).ccbs = s.ccbs := rfl
@[simp] theorem State.withBytes_dev (s : State) (m : Memory) : (s.withBytes m).dev = s.dev := rfl
@[simp] theorem State.withBytes_free (s : State) (m : Memory) : (s.withBytes m).free = s.free := rfl

@[simp] theorem State.setCheck_agenda (s : State) (n : Nat) (x : HpCheck) : (s.setCheck n x).agenda = s.agenda := rfl
@[simp] theorem State.setCheck_clk (s : State) (n : Nat) (x : HpCheck) : (s.setCheck n x).clk = s.clk := rfl
@[simp] theorem State.setCheck_iss (s : State) (n : Nat) (x : HpCheck) : (s.setCheck n x).iss = s.iss := rfl
@[simp] theorem State.setCheck_slices (s : State) (n : Nat) (x : HpCheck) : (s.setCheck n x).slices = s.slices := rfl
@[simp] theorem State.setCheck_gangs (s : State) (n : Nat) (x : HpCheck) : (s.setCheck n x).gangs = s.gangs := rfl
@[simp] theorem State.setCheck_teams (s : State) (n : Nat) (x : HpCheck) : (s.setCheck n x).teams = s.teams := rfl
@[simp] theorem State.setCheck_mem (s : State) (n : Nat) (x : HpCheck) : (s.setCheck n x).mem = s.mem := rfl
@[simp] theorem State.setCheck_sync (s : State) (n : Nat) (x : HpCheck) : (s.setCheck n x).sync = s.sync := rfl
@[simp] theorem State.setCheck_copy (s : State) (n : Nat) (x : HpCheck) : (s.setCheck n x).copy = s.copy := rfl
@[simp] theorem State.setCheck_mat (s : State) (n : Nat) (x : HpCheck) : (s.setCheck n x).mat = s.mat := rfl
@[simp] theorem State.setCheck_dist (s : State) (n : Nat) (x : HpCheck) : (s.setCheck n x).dist = s.dist := rfl
@[simp] theorem State.setCheck_fab (s : State) (n : Nat) (x : HpCheck) : (s.setCheck n x).fab = s.fab := rfl
@[simp] theorem State.setCheck_coll (s : State) (n : Nat) (x : HpCheck) : (s.setCheck n x).coll = s.coll := rfl
@[simp] theorem State.setCheck_ccbs (s : State) (n : Nat) (x : HpCheck) : (s.setCheck n x).ccbs = s.ccbs := rfl
@[simp] theorem State.setCheck_dev (s : State) (n : Nat) (x : HpCheck) : (s.setCheck n x).dev = s.dev := rfl
@[simp] theorem State.setCheck_free (s : State) (n : Nat) (x : HpCheck) : (s.setCheck n x).free = s.free := rfl

@[simp] theorem State.setCcb_agenda (s : State) (n c : Nat) (x : Ccb) : (s.setCcb n c x).agenda = s.agenda := rfl
@[simp] theorem State.setCcb_clk (s : State) (n c : Nat) (x : Ccb) : (s.setCcb n c x).clk = s.clk := rfl
@[simp] theorem State.setCcb_iss (s : State) (n c : Nat) (x : Ccb) : (s.setCcb n c x).iss = s.iss := rfl
@[simp] theorem State.setCcb_slices (s : State) (n c : Nat) (x : Ccb) : (s.setCcb n c x).slices = s.slices := rfl
@[simp] theorem State.setCcb_gangs (s : State) (n c : Nat) (x : Ccb) : (s.setCcb n c x).gangs = s.gangs := rfl
@[simp] theorem State.setCcb_teams (s : State) (n c : Nat) (x : Ccb) : (s.setCcb n c x).teams = s.teams := rfl
@[simp] theorem State.setCcb_mem (s : State) (n c : Nat) (x : Ccb) : (s.setCcb n c x).mem = s.mem := rfl
@[simp] theorem State.setCcb_sync (s : State) (n c : Nat) (x : Ccb) : (s.setCcb n c x).sync = s.sync := rfl
@[simp] theorem State.setCcb_copy (s : State) (n c : Nat) (x : Ccb) : (s.setCcb n c x).copy = s.copy := rfl
@[simp] theorem State.setCcb_mat (s : State) (n c : Nat) (x : Ccb) : (s.setCcb n c x).mat = s.mat := rfl
@[simp] theorem State.setCcb_dist (s : State) (n c : Nat) (x : Ccb) : (s.setCcb n c x).dist = s.dist := rfl
@[simp] theorem State.setCcb_fab (s : State) (n c : Nat) (x : Ccb) : (s.setCcb n c x).fab = s.fab := rfl
@[simp] theorem State.setCcb_coll (s : State) (n c : Nat) (x : Ccb) : (s.setCcb n c x).coll = s.coll := rfl
@[simp] theorem State.setCcb_checks (s : State) (n c : Nat) (x : Ccb) : (s.setCcb n c x).checks = s.checks := rfl
@[simp] theorem State.setCcb_dev (s : State) (n c : Nat) (x : Ccb) : (s.setCcb n c x).dev = s.dev := rfl
@[simp] theorem State.setCcb_free (s : State) (n c : Nat) (x : Ccb) : (s.setCcb n c x).free = s.free := rfl

@[simp] theorem State.setLine_agenda (s : State) (n : Nat) (x : LineState) : (s.setLine n x).agenda = s.agenda := rfl
@[simp] theorem State.setLine_clk (s : State) (n : Nat) (x : LineState) : (s.setLine n x).clk = s.clk := rfl
@[simp] theorem State.setLine_iss (s : State) (n : Nat) (x : LineState) : (s.setLine n x).iss = s.iss := rfl
@[simp] theorem State.setLine_slices (s : State) (n : Nat) (x : LineState) : (s.setLine n x).slices = s.slices := rfl
@[simp] theorem State.setLine_gangs (s : State) (n : Nat) (x : LineState) : (s.setLine n x).gangs = s.gangs := rfl
@[simp] theorem State.setLine_teams (s : State) (n : Nat) (x : LineState) : (s.setLine n x).teams = s.teams := rfl
@[simp] theorem State.setLine_mem_bytes (s : State) (n : Nat) (x : LineState) : (s.setLine n x).mem.bytes = s.mem.bytes := rfl
@[simp] theorem State.setLine_mem_poison (s : State) (n : Nat) (x : LineState) : (s.setLine n x).mem.poison = s.mem.poison := rfl
@[simp] theorem State.setLine_mem_l1 (s : State) (n : Nat) (x : LineState) : (s.setLine n x).mem.l1 = s.mem.l1 := rfl
@[simp] theorem State.setLine_mem_l2 (s : State) (n : Nat) (x : LineState) : (s.setLine n x).mem.l2 = s.mem.l2 := rfl
@[simp] theorem State.setLine_mem_sill (s : State) (n : Nat) (x : LineState) : (s.setLine n x).mem.sill = s.mem.sill := rfl
@[simp] theorem State.setLine_mem_xfers (s : State) (n : Nat) (x : LineState) : (s.setLine n x).mem.xfers = s.mem.xfers := rfl
@[simp] theorem State.setLine_mem_notCurrent (s : State) (n : Nat) (x : LineState) : (s.setLine n x).mem.notCurrent = s.mem.notCurrent := rfl
@[simp] theorem State.setLine_mem_seqTx (s : State) (n : Nat) (x : LineState) : (s.setLine n x).mem.seqTx = s.mem.seqTx := rfl
@[simp] theorem State.setLine_mem_seqRx (s : State) (n : Nat) (x : LineState) : (s.setLine n x).mem.seqRx = s.mem.seqRx := rfl
@[simp] theorem State.setLine_mem_l1tlb (s : State) (n : Nat) (x : LineState) : (s.setLine n x).mem.l1tlb = s.mem.l1tlb := rfl
@[simp] theorem State.setLine_mem_l2tlb (s : State) (n : Nat) (x : LineState) : (s.setLine n x).mem.l2tlb = s.mem.l2tlb := rfl
@[simp] theorem State.setLine_mem_blocked (s : State) (n : Nat) (x : LineState) : (s.setLine n x).mem.blocked = s.mem.blocked := rfl
@[simp] theorem State.setLine_mem_faults (s : State) (n : Nat) (x : LineState) : (s.setLine n x).mem.faults = s.mem.faults := rfl
@[simp] theorem State.setLine_mem_nextTag (s : State) (n : Nat) (x : LineState) : (s.setLine n x).mem.nextTag = s.mem.nextTag := rfl
@[simp] theorem State.setLine_mem_ops (s : State) (n : Nat) (x : LineState) : (s.setLine n x).mem.ops = s.mem.ops := rfl
@[simp] theorem State.setLine_mem_nextOp (s : State) (n : Nat) (x : LineState) : (s.setLine n x).mem.nextOp = s.mem.nextOp := rfl
@[simp] theorem State.setLine_mem_vaults (s : State) (n : Nat) (x : LineState) : (s.setLine n x).mem.vaults = s.mem.vaults := rfl
@[simp] theorem State.setLine_mem_windows (s : State) (n : Nat) (x : LineState) : (s.setLine n x).mem.windows = s.mem.windows := rfl
@[simp] theorem State.setLine_mem_known (s : State) (n : Nat) (x : LineState) : (s.setLine n x).mem.known = s.mem.known := rfl
@[simp] theorem State.setLine_mem_migs (s : State) (n : Nat) (x : LineState) : (s.setLine n x).mem.migs = s.mem.migs := rfl
@[simp] theorem State.setLine_mem_publish (s : State) (n : Nat) (x : LineState) : (s.setLine n x).mem.publish = s.mem.publish := rfl
@[simp] theorem State.setLine_mem_ranges (s : State) (n : Nat) (x : LineState) : (s.setLine n x).mem.ranges = s.mem.ranges := rfl
@[simp] theorem State.setLine_sync (s : State) (n : Nat) (x : LineState) : (s.setLine n x).sync = s.sync := rfl
@[simp] theorem State.setLine_copy (s : State) (n : Nat) (x : LineState) : (s.setLine n x).copy = s.copy := rfl
@[simp] theorem State.setLine_mat (s : State) (n : Nat) (x : LineState) : (s.setLine n x).mat = s.mat := rfl
@[simp] theorem State.setLine_dist (s : State) (n : Nat) (x : LineState) : (s.setLine n x).dist = s.dist := rfl
@[simp] theorem State.setLine_fab (s : State) (n : Nat) (x : LineState) : (s.setLine n x).fab = s.fab := rfl
@[simp] theorem State.setLine_coll (s : State) (n : Nat) (x : LineState) : (s.setLine n x).coll = s.coll := rfl
@[simp] theorem State.setLine_checks (s : State) (n : Nat) (x : LineState) : (s.setLine n x).checks = s.checks := rfl
@[simp] theorem State.setLine_ccbs (s : State) (n : Nat) (x : LineState) : (s.setLine n x).ccbs = s.ccbs := rfl
@[simp] theorem State.setLine_dev (s : State) (n : Nat) (x : LineState) : (s.setLine n x).dev = s.dev := rfl
@[simp] theorem State.setLine_free (s : State) (n : Nat) (x : LineState) : (s.setLine n x).free = s.free := rfl

@[simp] theorem State.setL1_agenda (s : State) (n : Nat) (x : L1) : (s.setL1 n x).agenda = s.agenda := rfl
@[simp] theorem State.setL1_clk (s : State) (n : Nat) (x : L1) : (s.setL1 n x).clk = s.clk := rfl
@[simp] theorem State.setL1_iss (s : State) (n : Nat) (x : L1) : (s.setL1 n x).iss = s.iss := rfl
@[simp] theorem State.setL1_slices (s : State) (n : Nat) (x : L1) : (s.setL1 n x).slices = s.slices := rfl
@[simp] theorem State.setL1_gangs (s : State) (n : Nat) (x : L1) : (s.setL1 n x).gangs = s.gangs := rfl
@[simp] theorem State.setL1_teams (s : State) (n : Nat) (x : L1) : (s.setL1 n x).teams = s.teams := rfl
@[simp] theorem State.setL1_mem_bytes (s : State) (n : Nat) (x : L1) : (s.setL1 n x).mem.bytes = s.mem.bytes := rfl
@[simp] theorem State.setL1_mem_poison (s : State) (n : Nat) (x : L1) : (s.setL1 n x).mem.poison = s.mem.poison := rfl
@[simp] theorem State.setL1_mem_lines (s : State) (n : Nat) (x : L1) : (s.setL1 n x).mem.lines = s.mem.lines := rfl
@[simp] theorem State.setL1_mem_l2 (s : State) (n : Nat) (x : L1) : (s.setL1 n x).mem.l2 = s.mem.l2 := rfl
@[simp] theorem State.setL1_mem_sill (s : State) (n : Nat) (x : L1) : (s.setL1 n x).mem.sill = s.mem.sill := rfl
@[simp] theorem State.setL1_mem_xfers (s : State) (n : Nat) (x : L1) : (s.setL1 n x).mem.xfers = s.mem.xfers := rfl
@[simp] theorem State.setL1_mem_notCurrent (s : State) (n : Nat) (x : L1) : (s.setL1 n x).mem.notCurrent = s.mem.notCurrent := rfl
@[simp] theorem State.setL1_mem_seqTx (s : State) (n : Nat) (x : L1) : (s.setL1 n x).mem.seqTx = s.mem.seqTx := rfl
@[simp] theorem State.setL1_mem_seqRx (s : State) (n : Nat) (x : L1) : (s.setL1 n x).mem.seqRx = s.mem.seqRx := rfl
@[simp] theorem State.setL1_mem_l1tlb (s : State) (n : Nat) (x : L1) : (s.setL1 n x).mem.l1tlb = s.mem.l1tlb := rfl
@[simp] theorem State.setL1_mem_l2tlb (s : State) (n : Nat) (x : L1) : (s.setL1 n x).mem.l2tlb = s.mem.l2tlb := rfl
@[simp] theorem State.setL1_mem_blocked (s : State) (n : Nat) (x : L1) : (s.setL1 n x).mem.blocked = s.mem.blocked := rfl
@[simp] theorem State.setL1_mem_faults (s : State) (n : Nat) (x : L1) : (s.setL1 n x).mem.faults = s.mem.faults := rfl
@[simp] theorem State.setL1_mem_nextTag (s : State) (n : Nat) (x : L1) : (s.setL1 n x).mem.nextTag = s.mem.nextTag := rfl
@[simp] theorem State.setL1_mem_ops (s : State) (n : Nat) (x : L1) : (s.setL1 n x).mem.ops = s.mem.ops := rfl
@[simp] theorem State.setL1_mem_nextOp (s : State) (n : Nat) (x : L1) : (s.setL1 n x).mem.nextOp = s.mem.nextOp := rfl
@[simp] theorem State.setL1_mem_vaults (s : State) (n : Nat) (x : L1) : (s.setL1 n x).mem.vaults = s.mem.vaults := rfl
@[simp] theorem State.setL1_mem_windows (s : State) (n : Nat) (x : L1) : (s.setL1 n x).mem.windows = s.mem.windows := rfl
@[simp] theorem State.setL1_mem_known (s : State) (n : Nat) (x : L1) : (s.setL1 n x).mem.known = s.mem.known := rfl
@[simp] theorem State.setL1_mem_migs (s : State) (n : Nat) (x : L1) : (s.setL1 n x).mem.migs = s.mem.migs := rfl
@[simp] theorem State.setL1_mem_publish (s : State) (n : Nat) (x : L1) : (s.setL1 n x).mem.publish = s.mem.publish := rfl
@[simp] theorem State.setL1_mem_ranges (s : State) (n : Nat) (x : L1) : (s.setL1 n x).mem.ranges = s.mem.ranges := rfl
@[simp] theorem State.setL1_sync (s : State) (n : Nat) (x : L1) : (s.setL1 n x).sync = s.sync := rfl
@[simp] theorem State.setL1_copy (s : State) (n : Nat) (x : L1) : (s.setL1 n x).copy = s.copy := rfl
@[simp] theorem State.setL1_mat (s : State) (n : Nat) (x : L1) : (s.setL1 n x).mat = s.mat := rfl
@[simp] theorem State.setL1_dist (s : State) (n : Nat) (x : L1) : (s.setL1 n x).dist = s.dist := rfl
@[simp] theorem State.setL1_fab (s : State) (n : Nat) (x : L1) : (s.setL1 n x).fab = s.fab := rfl
@[simp] theorem State.setL1_coll (s : State) (n : Nat) (x : L1) : (s.setL1 n x).coll = s.coll := rfl
@[simp] theorem State.setL1_checks (s : State) (n : Nat) (x : L1) : (s.setL1 n x).checks = s.checks := rfl
@[simp] theorem State.setL1_ccbs (s : State) (n : Nat) (x : L1) : (s.setL1 n x).ccbs = s.ccbs := rfl
@[simp] theorem State.setL1_dev (s : State) (n : Nat) (x : L1) : (s.setL1 n x).dev = s.dev := rfl
@[simp] theorem State.setL1_free (s : State) (n : Nat) (x : L1) : (s.setL1 n x).free = s.free := rfl

@[simp] theorem State.dropL1_agenda (s : State) (n : Nat) : (s.dropL1 n).agenda = s.agenda := rfl
@[simp] theorem State.dropL1_clk (s : State) (n : Nat) : (s.dropL1 n).clk = s.clk := rfl
@[simp] theorem State.dropL1_iss (s : State) (n : Nat) : (s.dropL1 n).iss = s.iss := rfl
@[simp] theorem State.dropL1_slices (s : State) (n : Nat) : (s.dropL1 n).slices = s.slices := rfl
@[simp] theorem State.dropL1_gangs (s : State) (n : Nat) : (s.dropL1 n).gangs = s.gangs := rfl
@[simp] theorem State.dropL1_teams (s : State) (n : Nat) : (s.dropL1 n).teams = s.teams := rfl
@[simp] theorem State.dropL1_mem_bytes (s : State) (n : Nat) : (s.dropL1 n).mem.bytes = s.mem.bytes := rfl
@[simp] theorem State.dropL1_mem_poison (s : State) (n : Nat) : (s.dropL1 n).mem.poison = s.mem.poison := rfl
@[simp] theorem State.dropL1_mem_lines (s : State) (n : Nat) : (s.dropL1 n).mem.lines = s.mem.lines := rfl
@[simp] theorem State.dropL1_mem_l2 (s : State) (n : Nat) : (s.dropL1 n).mem.l2 = s.mem.l2 := rfl
@[simp] theorem State.dropL1_mem_sill (s : State) (n : Nat) : (s.dropL1 n).mem.sill = s.mem.sill := rfl
@[simp] theorem State.dropL1_mem_xfers (s : State) (n : Nat) : (s.dropL1 n).mem.xfers = s.mem.xfers := rfl
@[simp] theorem State.dropL1_mem_notCurrent (s : State) (n : Nat) : (s.dropL1 n).mem.notCurrent = s.mem.notCurrent := rfl
@[simp] theorem State.dropL1_mem_seqTx (s : State) (n : Nat) : (s.dropL1 n).mem.seqTx = s.mem.seqTx := rfl
@[simp] theorem State.dropL1_mem_seqRx (s : State) (n : Nat) : (s.dropL1 n).mem.seqRx = s.mem.seqRx := rfl
@[simp] theorem State.dropL1_mem_l1tlb (s : State) (n : Nat) : (s.dropL1 n).mem.l1tlb = s.mem.l1tlb := rfl
@[simp] theorem State.dropL1_mem_l2tlb (s : State) (n : Nat) : (s.dropL1 n).mem.l2tlb = s.mem.l2tlb := rfl
@[simp] theorem State.dropL1_mem_blocked (s : State) (n : Nat) : (s.dropL1 n).mem.blocked = s.mem.blocked := rfl
@[simp] theorem State.dropL1_mem_faults (s : State) (n : Nat) : (s.dropL1 n).mem.faults = s.mem.faults := rfl
@[simp] theorem State.dropL1_mem_nextTag (s : State) (n : Nat) : (s.dropL1 n).mem.nextTag = s.mem.nextTag := rfl
@[simp] theorem State.dropL1_mem_ops (s : State) (n : Nat) : (s.dropL1 n).mem.ops = s.mem.ops := rfl
@[simp] theorem State.dropL1_mem_nextOp (s : State) (n : Nat) : (s.dropL1 n).mem.nextOp = s.mem.nextOp := rfl
@[simp] theorem State.dropL1_mem_vaults (s : State) (n : Nat) : (s.dropL1 n).mem.vaults = s.mem.vaults := rfl
@[simp] theorem State.dropL1_mem_windows (s : State) (n : Nat) : (s.dropL1 n).mem.windows = s.mem.windows := rfl
@[simp] theorem State.dropL1_mem_known (s : State) (n : Nat) : (s.dropL1 n).mem.known = s.mem.known := rfl
@[simp] theorem State.dropL1_mem_migs (s : State) (n : Nat) : (s.dropL1 n).mem.migs = s.mem.migs := rfl
@[simp] theorem State.dropL1_mem_publish (s : State) (n : Nat) : (s.dropL1 n).mem.publish = s.mem.publish := rfl
@[simp] theorem State.dropL1_mem_ranges (s : State) (n : Nat) : (s.dropL1 n).mem.ranges = s.mem.ranges := rfl
@[simp] theorem State.dropL1_sync (s : State) (n : Nat) : (s.dropL1 n).sync = s.sync := rfl
@[simp] theorem State.dropL1_copy (s : State) (n : Nat) : (s.dropL1 n).copy = s.copy := rfl
@[simp] theorem State.dropL1_mat (s : State) (n : Nat) : (s.dropL1 n).mat = s.mat := rfl
@[simp] theorem State.dropL1_dist (s : State) (n : Nat) : (s.dropL1 n).dist = s.dist := rfl
@[simp] theorem State.dropL1_fab (s : State) (n : Nat) : (s.dropL1 n).fab = s.fab := rfl
@[simp] theorem State.dropL1_coll (s : State) (n : Nat) : (s.dropL1 n).coll = s.coll := rfl
@[simp] theorem State.dropL1_checks (s : State) (n : Nat) : (s.dropL1 n).checks = s.checks := rfl
@[simp] theorem State.dropL1_ccbs (s : State) (n : Nat) : (s.dropL1 n).ccbs = s.ccbs := rfl
@[simp] theorem State.dropL1_dev (s : State) (n : Nat) : (s.dropL1 n).dev = s.dev := rfl
@[simp] theorem State.dropL1_free (s : State) (n : Nat) : (s.dropL1 n).free = s.free := rfl

@[simp] theorem State.setOp_agenda (s : State) (o : Op) : (s.setOp o).agenda = s.agenda := rfl
@[simp] theorem State.setOp_clk (s : State) (o : Op) : (s.setOp o).clk = s.clk := rfl
@[simp] theorem State.setOp_iss (s : State) (o : Op) : (s.setOp o).iss = s.iss := rfl
@[simp] theorem State.setOp_slices (s : State) (o : Op) : (s.setOp o).slices = s.slices := rfl
@[simp] theorem State.setOp_gangs (s : State) (o : Op) : (s.setOp o).gangs = s.gangs := rfl
@[simp] theorem State.setOp_teams (s : State) (o : Op) : (s.setOp o).teams = s.teams := rfl
@[simp] theorem State.setOp_mem_bytes (s : State) (o : Op) : (s.setOp o).mem.bytes = s.mem.bytes := rfl
@[simp] theorem State.setOp_mem_poison (s : State) (o : Op) : (s.setOp o).mem.poison = s.mem.poison := rfl
@[simp] theorem State.setOp_mem_lines (s : State) (o : Op) : (s.setOp o).mem.lines = s.mem.lines := rfl
@[simp] theorem State.setOp_mem_l1 (s : State) (o : Op) : (s.setOp o).mem.l1 = s.mem.l1 := rfl
@[simp] theorem State.setOp_mem_l2 (s : State) (o : Op) : (s.setOp o).mem.l2 = s.mem.l2 := rfl
@[simp] theorem State.setOp_mem_sill (s : State) (o : Op) : (s.setOp o).mem.sill = s.mem.sill := rfl
@[simp] theorem State.setOp_mem_xfers (s : State) (o : Op) : (s.setOp o).mem.xfers = s.mem.xfers := rfl
@[simp] theorem State.setOp_mem_notCurrent (s : State) (o : Op) : (s.setOp o).mem.notCurrent = s.mem.notCurrent := rfl
@[simp] theorem State.setOp_mem_seqTx (s : State) (o : Op) : (s.setOp o).mem.seqTx = s.mem.seqTx := rfl
@[simp] theorem State.setOp_mem_seqRx (s : State) (o : Op) : (s.setOp o).mem.seqRx = s.mem.seqRx := rfl
@[simp] theorem State.setOp_mem_l1tlb (s : State) (o : Op) : (s.setOp o).mem.l1tlb = s.mem.l1tlb := rfl
@[simp] theorem State.setOp_mem_l2tlb (s : State) (o : Op) : (s.setOp o).mem.l2tlb = s.mem.l2tlb := rfl
@[simp] theorem State.setOp_mem_blocked (s : State) (o : Op) : (s.setOp o).mem.blocked = s.mem.blocked := rfl
@[simp] theorem State.setOp_mem_faults (s : State) (o : Op) : (s.setOp o).mem.faults = s.mem.faults := rfl
@[simp] theorem State.setOp_mem_nextTag (s : State) (o : Op) : (s.setOp o).mem.nextTag = s.mem.nextTag := rfl
@[simp] theorem State.setOp_mem_nextOp (s : State) (o : Op) : (s.setOp o).mem.nextOp = s.mem.nextOp := rfl
@[simp] theorem State.setOp_mem_vaults (s : State) (o : Op) : (s.setOp o).mem.vaults = s.mem.vaults := rfl
@[simp] theorem State.setOp_mem_windows (s : State) (o : Op) : (s.setOp o).mem.windows = s.mem.windows := rfl
@[simp] theorem State.setOp_mem_known (s : State) (o : Op) : (s.setOp o).mem.known = s.mem.known := rfl
@[simp] theorem State.setOp_mem_migs (s : State) (o : Op) : (s.setOp o).mem.migs = s.mem.migs := rfl
@[simp] theorem State.setOp_mem_publish (s : State) (o : Op) : (s.setOp o).mem.publish = s.mem.publish := rfl
@[simp] theorem State.setOp_mem_ranges (s : State) (o : Op) : (s.setOp o).mem.ranges = s.mem.ranges := rfl
@[simp] theorem State.setOp_sync (s : State) (o : Op) : (s.setOp o).sync = s.sync := rfl
@[simp] theorem State.setOp_copy (s : State) (o : Op) : (s.setOp o).copy = s.copy := rfl
@[simp] theorem State.setOp_mat (s : State) (o : Op) : (s.setOp o).mat = s.mat := rfl
@[simp] theorem State.setOp_dist (s : State) (o : Op) : (s.setOp o).dist = s.dist := rfl
@[simp] theorem State.setOp_fab (s : State) (o : Op) : (s.setOp o).fab = s.fab := rfl
@[simp] theorem State.setOp_coll (s : State) (o : Op) : (s.setOp o).coll = s.coll := rfl
@[simp] theorem State.setOp_checks (s : State) (o : Op) : (s.setOp o).checks = s.checks := rfl
@[simp] theorem State.setOp_ccbs (s : State) (o : Op) : (s.setOp o).ccbs = s.ccbs := rfl
@[simp] theorem State.setOp_dev (s : State) (o : Op) : (s.setOp o).dev = s.dev := rfl
@[simp] theorem State.setOp_free (s : State) (o : Op) : (s.setOp o).free = s.free := rfl

@[simp] theorem State.dropOp_agenda (s : State) (n : Nat) : (s.dropOp n).agenda = s.agenda := rfl
@[simp] theorem State.dropOp_clk (s : State) (n : Nat) : (s.dropOp n).clk = s.clk := rfl
@[simp] theorem State.dropOp_iss (s : State) (n : Nat) : (s.dropOp n).iss = s.iss := rfl
@[simp] theorem State.dropOp_slices (s : State) (n : Nat) : (s.dropOp n).slices = s.slices := rfl
@[simp] theorem State.dropOp_gangs (s : State) (n : Nat) : (s.dropOp n).gangs = s.gangs := rfl
@[simp] theorem State.dropOp_teams (s : State) (n : Nat) : (s.dropOp n).teams = s.teams := rfl
@[simp] theorem State.dropOp_mem_bytes (s : State) (n : Nat) : (s.dropOp n).mem.bytes = s.mem.bytes := rfl
@[simp] theorem State.dropOp_mem_poison (s : State) (n : Nat) : (s.dropOp n).mem.poison = s.mem.poison := rfl
@[simp] theorem State.dropOp_mem_lines (s : State) (n : Nat) : (s.dropOp n).mem.lines = s.mem.lines := rfl
@[simp] theorem State.dropOp_mem_l1 (s : State) (n : Nat) : (s.dropOp n).mem.l1 = s.mem.l1 := rfl
@[simp] theorem State.dropOp_mem_l2 (s : State) (n : Nat) : (s.dropOp n).mem.l2 = s.mem.l2 := rfl
@[simp] theorem State.dropOp_mem_sill (s : State) (n : Nat) : (s.dropOp n).mem.sill = s.mem.sill := rfl
@[simp] theorem State.dropOp_mem_xfers (s : State) (n : Nat) : (s.dropOp n).mem.xfers = s.mem.xfers := rfl
@[simp] theorem State.dropOp_mem_notCurrent (s : State) (n : Nat) : (s.dropOp n).mem.notCurrent = s.mem.notCurrent := rfl
@[simp] theorem State.dropOp_mem_seqTx (s : State) (n : Nat) : (s.dropOp n).mem.seqTx = s.mem.seqTx := rfl
@[simp] theorem State.dropOp_mem_seqRx (s : State) (n : Nat) : (s.dropOp n).mem.seqRx = s.mem.seqRx := rfl
@[simp] theorem State.dropOp_mem_l1tlb (s : State) (n : Nat) : (s.dropOp n).mem.l1tlb = s.mem.l1tlb := rfl
@[simp] theorem State.dropOp_mem_l2tlb (s : State) (n : Nat) : (s.dropOp n).mem.l2tlb = s.mem.l2tlb := rfl
@[simp] theorem State.dropOp_mem_blocked (s : State) (n : Nat) : (s.dropOp n).mem.blocked = s.mem.blocked := rfl
@[simp] theorem State.dropOp_mem_faults (s : State) (n : Nat) : (s.dropOp n).mem.faults = s.mem.faults := rfl
@[simp] theorem State.dropOp_mem_nextTag (s : State) (n : Nat) : (s.dropOp n).mem.nextTag = s.mem.nextTag := rfl
@[simp] theorem State.dropOp_mem_nextOp (s : State) (n : Nat) : (s.dropOp n).mem.nextOp = s.mem.nextOp := rfl
@[simp] theorem State.dropOp_mem_vaults (s : State) (n : Nat) : (s.dropOp n).mem.vaults = s.mem.vaults := rfl
@[simp] theorem State.dropOp_mem_windows (s : State) (n : Nat) : (s.dropOp n).mem.windows = s.mem.windows := rfl
@[simp] theorem State.dropOp_mem_known (s : State) (n : Nat) : (s.dropOp n).mem.known = s.mem.known := rfl
@[simp] theorem State.dropOp_mem_migs (s : State) (n : Nat) : (s.dropOp n).mem.migs = s.mem.migs := rfl
@[simp] theorem State.dropOp_mem_publish (s : State) (n : Nat) : (s.dropOp n).mem.publish = s.mem.publish := rfl
@[simp] theorem State.dropOp_mem_ranges (s : State) (n : Nat) : (s.dropOp n).mem.ranges = s.mem.ranges := rfl
@[simp] theorem State.dropOp_sync (s : State) (n : Nat) : (s.dropOp n).sync = s.sync := rfl
@[simp] theorem State.dropOp_copy (s : State) (n : Nat) : (s.dropOp n).copy = s.copy := rfl
@[simp] theorem State.dropOp_mat (s : State) (n : Nat) : (s.dropOp n).mat = s.mat := rfl
@[simp] theorem State.dropOp_dist (s : State) (n : Nat) : (s.dropOp n).dist = s.dist := rfl
@[simp] theorem State.dropOp_fab (s : State) (n : Nat) : (s.dropOp n).fab = s.fab := rfl
@[simp] theorem State.dropOp_coll (s : State) (n : Nat) : (s.dropOp n).coll = s.coll := rfl
@[simp] theorem State.dropOp_checks (s : State) (n : Nat) : (s.dropOp n).checks = s.checks := rfl
@[simp] theorem State.dropOp_ccbs (s : State) (n : Nat) : (s.dropOp n).ccbs = s.ccbs := rfl
@[simp] theorem State.dropOp_dev (s : State) (n : Nat) : (s.dropOp n).dev = s.dev := rfl
@[simp] theorem State.dropOp_free (s : State) (n : Nat) : (s.dropOp n).free = s.free := rfl

@[simp] theorem State.reach_agenda (s : State) (n : Nat) : (s.reach n).agenda = s.agenda := rfl
@[simp] theorem State.reach_iss (s : State) (n : Nat) : (s.reach n).iss = s.iss := rfl
@[simp] theorem State.reach_slices (s : State) (n : Nat) : (s.reach n).slices = s.slices := rfl
@[simp] theorem State.reach_gangs (s : State) (n : Nat) : (s.reach n).gangs = s.gangs := rfl
@[simp] theorem State.reach_teams (s : State) (n : Nat) : (s.reach n).teams = s.teams := rfl
@[simp] theorem State.reach_mem (s : State) (n : Nat) : (s.reach n).mem = s.mem := rfl
@[simp] theorem State.reach_sync (s : State) (n : Nat) : (s.reach n).sync = s.sync := rfl
@[simp] theorem State.reach_copy (s : State) (n : Nat) : (s.reach n).copy = s.copy := rfl
@[simp] theorem State.reach_mat (s : State) (n : Nat) : (s.reach n).mat = s.mat := rfl
@[simp] theorem State.reach_dist (s : State) (n : Nat) : (s.reach n).dist = s.dist := rfl
@[simp] theorem State.reach_fab (s : State) (n : Nat) : (s.reach n).fab = s.fab := rfl
@[simp] theorem State.reach_coll (s : State) (n : Nat) : (s.reach n).coll = s.coll := rfl
@[simp] theorem State.reach_checks (s : State) (n : Nat) : (s.reach n).checks = s.checks := rfl
@[simp] theorem State.reach_ccbs (s : State) (n : Nat) : (s.reach n).ccbs = s.ccbs := rfl
@[simp] theorem State.reach_dev (s : State) (n : Nat) : (s.reach n).dev = s.dev := rfl
@[simp] theorem State.reach_free (s : State) (n : Nat) : (s.reach n).free = s.free := rfl

@[simp] theorem State.bumpErr_agenda (s : State) (n k : Nat) : (s.bumpErr n k).agenda = s.agenda := rfl
@[simp] theorem State.bumpErr_clk (s : State) (n k : Nat) : (s.bumpErr n k).clk = s.clk := rfl
@[simp] theorem State.bumpErr_iss (s : State) (n k : Nat) : (s.bumpErr n k).iss = s.iss := rfl
@[simp] theorem State.bumpErr_slices (s : State) (n k : Nat) : (s.bumpErr n k).slices = s.slices := rfl
@[simp] theorem State.bumpErr_gangs (s : State) (n k : Nat) : (s.bumpErr n k).gangs = s.gangs := rfl
@[simp] theorem State.bumpErr_teams (s : State) (n k : Nat) : (s.bumpErr n k).teams = s.teams := rfl
@[simp] theorem State.bumpErr_mem (s : State) (n k : Nat) : (s.bumpErr n k).mem = s.mem := rfl
@[simp] theorem State.bumpErr_sync (s : State) (n k : Nat) : (s.bumpErr n k).sync = s.sync := rfl
@[simp] theorem State.bumpErr_copy (s : State) (n k : Nat) : (s.bumpErr n k).copy = s.copy := rfl
@[simp] theorem State.bumpErr_mat (s : State) (n k : Nat) : (s.bumpErr n k).mat = s.mat := rfl
@[simp] theorem State.bumpErr_dist (s : State) (n k : Nat) : (s.bumpErr n k).dist = s.dist := rfl
@[simp] theorem State.bumpErr_fab (s : State) (n k : Nat) : (s.bumpErr n k).fab = s.fab := rfl
@[simp] theorem State.bumpErr_coll (s : State) (n k : Nat) : (s.bumpErr n k).coll = s.coll := rfl
@[simp] theorem State.bumpErr_checks (s : State) (n k : Nat) : (s.bumpErr n k).checks = s.checks := rfl
@[simp] theorem State.bumpErr_ccbs (s : State) (n k : Nat) : (s.bumpErr n k).ccbs = s.ccbs := rfl
@[simp] theorem State.bumpErr_free (s : State) (n k : Nat) : (s.bumpErr n k).free = s.free := rfl

@[simp] theorem State.count_agenda (s : State) (n e k : Nat) : (s.count n e k).agenda = s.agenda := rfl
@[simp] theorem State.count_clk (s : State) (n e k : Nat) : (s.count n e k).clk = s.clk := rfl
@[simp] theorem State.count_iss (s : State) (n e k : Nat) : (s.count n e k).iss = s.iss := rfl
@[simp] theorem State.count_slices (s : State) (n e k : Nat) : (s.count n e k).slices = s.slices := rfl
@[simp] theorem State.count_gangs (s : State) (n e k : Nat) : (s.count n e k).gangs = s.gangs := rfl
@[simp] theorem State.count_mem (s : State) (n e k : Nat) : (s.count n e k).mem = s.mem := rfl
@[simp] theorem State.count_sync (s : State) (n e k : Nat) : (s.count n e k).sync = s.sync := rfl
@[simp] theorem State.count_copy (s : State) (n e k : Nat) : (s.count n e k).copy = s.copy := rfl
@[simp] theorem State.count_mat (s : State) (n e k : Nat) : (s.count n e k).mat = s.mat := rfl
@[simp] theorem State.count_dist (s : State) (n e k : Nat) : (s.count n e k).dist = s.dist := rfl
@[simp] theorem State.count_fab (s : State) (n e k : Nat) : (s.count n e k).fab = s.fab := rfl
@[simp] theorem State.count_coll (s : State) (n e k : Nat) : (s.count n e k).coll = s.coll := rfl
@[simp] theorem State.count_checks (s : State) (n e k : Nat) : (s.count n e k).checks = s.checks := rfl
@[simp] theorem State.count_ccbs (s : State) (n e k : Nat) : (s.count n e k).ccbs = s.ccbs := rfl
@[simp] theorem State.count_dev (s : State) (n e k : Nat) : (s.count n e k).dev = s.dev := rfl
@[simp] theorem State.count_free (s : State) (n e k : Nat) : (s.count n e k).free = s.free := rfl

@[simp] theorem State.addPending_agenda (s : State) (r : SliceRef) (p : Pending) : (s.addPending r p).agenda = s.agenda := rfl
@[simp] theorem State.addPending_clk (s : State) (r : SliceRef) (p : Pending) : (s.addPending r p).clk = s.clk := rfl
@[simp] theorem State.addPending_iss (s : State) (r : SliceRef) (p : Pending) : (s.addPending r p).iss = s.iss := rfl
@[simp] theorem State.addPending_gangs (s : State) (r : SliceRef) (p : Pending) : (s.addPending r p).gangs = s.gangs := rfl
@[simp] theorem State.addPending_teams (s : State) (r : SliceRef) (p : Pending) : (s.addPending r p).teams = s.teams := rfl
@[simp] theorem State.addPending_mem (s : State) (r : SliceRef) (p : Pending) : (s.addPending r p).mem = s.mem := rfl
@[simp] theorem State.addPending_sync (s : State) (r : SliceRef) (p : Pending) : (s.addPending r p).sync = s.sync := rfl
@[simp] theorem State.addPending_copy (s : State) (r : SliceRef) (p : Pending) : (s.addPending r p).copy = s.copy := rfl
@[simp] theorem State.addPending_mat (s : State) (r : SliceRef) (p : Pending) : (s.addPending r p).mat = s.mat := rfl
@[simp] theorem State.addPending_dist (s : State) (r : SliceRef) (p : Pending) : (s.addPending r p).dist = s.dist := rfl
@[simp] theorem State.addPending_fab (s : State) (r : SliceRef) (p : Pending) : (s.addPending r p).fab = s.fab := rfl
@[simp] theorem State.addPending_coll (s : State) (r : SliceRef) (p : Pending) : (s.addPending r p).coll = s.coll := rfl
@[simp] theorem State.addPending_checks (s : State) (r : SliceRef) (p : Pending) : (s.addPending r p).checks = s.checks := rfl
@[simp] theorem State.addPending_ccbs (s : State) (r : SliceRef) (p : Pending) : (s.addPending r p).ccbs = s.ccbs := rfl
@[simp] theorem State.addPending_dev (s : State) (r : SliceRef) (p : Pending) : (s.addPending r p).dev = s.dev := rfl
@[simp] theorem State.addPending_free (s : State) (r : SliceRef) (p : Pending) : (s.addPending r p).free = s.free := rfl

end Sys2Proof.Machine
end

