-- ==== Sys2Proof/Laws/Issue.lean ====
section
/-! SUPPORT. What the issue of an instruction does (03 R91, R98, 04 R111): each lemma says once all that one shared
operation can do, so that no proof about an instruction unfolds it. -/

namespace Sys2Proof.Machine

open Sys2Proof.Safety

/-! ## Slices and their keys -/

theorem sliceKey_inj {a b : SliceRef} (ha : valid a) (hb : valid b) : sliceKey a = sliceKey b ↔ a = b := by
  obtain ⟨t, n, l⟩ := a
  obtain ⟨u, m, k⟩ := b
  simp only [valid, sliceKey, SliceRef.mk.injEq] at *
  omega

theorem State.slice_setSlice (s : State) {r q : SliceRef} (x : Slice) (hr : valid r) (hq : valid q) :
    (s.setSlice r x).slice q = if q = r then x else s.slice q := by
  simp only [State.slice, State.setSlice, smGet_smSet, sliceKey_inj hq hr]

@[simp] theorem State.slice_setSlice_same (s : State) (r : SliceRef) (x : Slice) : (s.setSlice r x).slice r = x := by
  simp [State.slice, State.setSlice]

theorem State.slice_modSlice (s : State) {r q : SliceRef} (f : Slice → Slice) (hr : valid r) (hq : valid q) :
    (s.modSlice r f).slice q = if q = r then f (s.slice r) else s.slice q := State.slice_setSlice s _ hr hq

theorem State.team_setTeam (s : State) (t u : Nat) (x : Team) : (s.setTeam t x).team u = if u = t then x else s.team u := by
  simp only [State.team, State.setTeam, smGet_smSet]

theorem State.team_modTeam (s : State) (t u : Nat) (f : Team → Team) :
    (s.modTeam t f).team u = if u = t then f (s.team t) else s.team u := State.team_setTeam s _ _ _

theorem gangKey_inj {t u b c : Nat} (hb : b < 64) (hc : c < 64) : gangKey t b = gangKey u c ↔ t = u ∧ b = c := by
  simp only [gangKey]; omega

theorem State.gangsOf_setGangs (s : State) {t b u c : Nat} (x : List Gang) (hb : b < 64) (hc : c < 64) :
    (s.setGangs t b x).gangsOf u c = if u = t ∧ c = b then x else s.gangsOf u c := by
  simp only [State.gangsOf, State.setGangs, smGet_smPut, gangKey_inj hc hb]

/-! ## The slices of a gang -/

theorem maskList_lt {m k i : Nat} (h : i ∈ maskList m k) : i < k := by
  induction k with
  | zero => simp [maskList] at h
  | succ k ih =>
    simp only [maskList, List.mem_append] at h
    rcases h with h | h
    · have := ih h; omega
    · split at h <;> simp_all

theorem maskList_nodup (m k : Nat) : (maskList m k).Nodup := by
  induction k with
  | zero => simp [maskList]
  | succ k ih =>
    simp only [maskList]
    rw [List.nodup_append]
    refine ⟨ih, by split <;> simp, fun a ha b hb => ?_⟩
    have := maskList_lt ha
    split at hb <;> simp_all
    omega

theorem refs_valid {g : GangRef} (hg : g.bent < 64) {r : SliceRef} (h : r ∈ g.refs) : valid r := by
  simp only [GangRef.refs, maskRefs, List.mem_map] at h
  obtain ⟨i, hi, rfl⟩ := h
  exact ⟨hg, maskList_lt hi⟩

theorem refs_nodup (g : GangRef) : g.refs.Nodup := by
  refine List.Nodup.map ?_ (maskList_nodup _ _)
  intro a b h
  simpa using h

/-! ## What stays within a gang -/

/-- Nothing changes but the gang's slices, its bent's gangs, counters, and the L1. -/
structure Within (g : GangRef) (s t : State) : Prop where
  elsewhere : Elsewhere g s t
  system : System s t
  checks : t.checks = s.checks
  mem : t.mem = { s.mem with l1 := t.mem.l1 }

theorem elsewhere_refl (g : GangRef) (s : State) : Elsewhere g s s := ⟨fun _ _ _ => rfl, fun _ _ _ _ => rfl, fun _ => rfl⟩

theorem elsewhere_trans {g : GangRef} {s t u : State} (h : Elsewhere g s t) (k : Elsewhere g t u) : Elsewhere g s u where
  slices r hv hr := (k.slices r hv hr).trans (h.slices r hv hr)
  gangs a b hb hab := (k.gangs a b hb hab).trans (h.gangs a b hb hab)
  teams a := by
    have h1 := h.teams a
    have h2 := k.teams a
    calc { u.team a with counters := (s.team a).counters }
        = { { u.team a with counters := (t.team a).counters } with counters := (s.team a).counters } := rfl
      _ = { t.team a with counters := (s.team a).counters } := by rw [h2]
      _ = s.team a := h1

theorem system_refl (s : State) : System s s := ⟨rfl, rfl, rfl, rfl, rfl, rfl, rfl, rfl, rfl, rfl, rfl⟩

theorem system_trans {s t u : State} (h : System s t) (k : System t u) : System s u :=
  ⟨k.1.trans h.1, k.2.trans h.2, k.3.trans h.3, k.4.trans h.4, k.5.trans h.5, k.6.trans h.6, k.7.trans h.7, k.8.trans h.8,
    k.9.trans h.9, k.10.trans h.10, k.11.trans h.11⟩

theorem Within.rfl' (g : GangRef) (s : State) : Within g s s := ⟨elsewhere_refl g s, system_refl s, rfl, rfl⟩

theorem Within.trans' {g : GangRef} {s t u : State} (h : Within g s t) (k : Within g t u) : Within g s u where
  elsewhere := elsewhere_trans h.elsewhere k.elsewhere
  system := system_trans h.system k.system
  checks := k.checks.trans h.checks
  mem := by rw [k.mem, h.mem]

theorem Elsewhere.of_slice {g : GangRef} (hg : g.bent < 64) (s : State) {r : SliceRef} (hr : r ∈ g.refs) (x : Slice) :
    Elsewhere g s (s.setSlice r x) where
  slices q hv hq := by
    rw [State.slice_setSlice s x (refs_valid hg hr) hv, if_neg]
    rintro rfl; exact hq hr
  gangs _ _ _ _ := rfl
  teams _ := rfl

theorem Within.of_slice {g : GangRef} (hg : g.bent < 64) (s : State) {r : SliceRef} (hr : r ∈ g.refs) (x : Slice) :
    Within g s (s.setSlice r x) := ⟨Elsewhere.of_slice hg s hr x, ⟨rfl, rfl, rfl, rfl, rfl, rfl, rfl, rfl, rfl, rfl, rfl⟩, rfl, rfl⟩

theorem Within.of_mod {g : GangRef} (hg : g.bent < 64) (s : State) {r : SliceRef} (hr : r ∈ g.refs) (f : Slice → Slice) :
    Within g s (s.modSlice r f) := Within.of_slice hg s hr _

theorem Within.of_l1 (g : GangRef) (s : State) (cl : Nat) (x : L1) : Within g s (s.setL1 cl x) :=
  ⟨⟨fun _ _ _ => rfl, fun _ _ _ _ => rfl, fun _ => rfl⟩, ⟨rfl, rfl, rfl, rfl, rfl, rfl, rfl, rfl, rfl, rfl, rfl⟩, rfl, rfl⟩

theorem Within.of_gangs {g : GangRef} (hg : g.bent < 64) (s : State) (x : List Gang) : Within g s (s.setGangs g.tid g.bent x) := by
  refine ⟨⟨fun _ _ _ => rfl, fun t b hb h => ?_, fun _ => rfl⟩, ⟨rfl, rfl, rfl, rfl, rfl, rfl, rfl, rfl, rfl, rfl, rfl⟩, rfl, rfl⟩
  rw [State.gangsOf_setGangs s x hg hb, if_neg]
  rintro ⟨rfl, rfl⟩; exact h rfl

theorem Within.of_count (g : GangRef) (s : State) (tid ev k : Nat) : Within g s (s.count tid ev k) := by
  refine ⟨⟨fun _ _ _ => rfl, fun _ _ _ _ => rfl, fun t => ?_⟩, ⟨rfl, rfl, rfl, rfl, rfl, rfl, rfl, rfl, rfl, rfl, rfl⟩, rfl, rfl⟩
  simp only [State.count, State.team_modTeam]
  split
  · subst_vars; rfl
  · rfl

theorem Within.of_iss (g : GangRef) (s : State) (x : Issue) : Within g s { s with iss := x } :=
  ⟨⟨fun _ _ _ => rfl, fun _ _ _ _ => rfl, fun _ => rfl⟩, ⟨rfl, rfl, rfl, rfl, rfl, rfl, rfl, rfl, rfl, rfl, rfl⟩, rfl, rfl⟩

/-! ## Updates of several slices -/

/-- The slices of a list are changed by `f`, and no others. -/
structure Mapped (rs : List SliceRef) (f : SliceRef → Slice → Slice) (s t : State) : Prop where
  on : ∀ r ∈ rs, t.slice r = f r (s.slice r)
  off : ∀ r, valid r → r ∉ rs → t.slice r = s.slice r

theorem Mapped.step {g : GangRef} (hg : g.bent < 64) {rs : List SliceRef} {r : SliceRef} {f : SliceRef → Slice → Slice} {s t : State}
    (hrs : ∀ q ∈ r :: rs, q ∈ g.refs) (hr : r ∉ rs) (h : Mapped rs f s t) :
    Mapped (r :: rs) f s (t.modSlice r (f r)) := by
  have hv : ∀ q ∈ r :: rs, valid q := fun q hq => refs_valid hg (hrs q hq)
  refine ⟨fun q hq => ?_, fun q hq hn => ?_⟩
  · rw [State.slice_modSlice t _ (hv r (by simp)) (hv q hq)]
    split
    · subst_vars; rw [h.off q (hv q hq) hr]
    · rename_i hne
      rcases List.mem_cons.1 hq with e | hq
      · exact absurd e hne
      · exact h.on q hq
  · rw [State.slice_modSlice t _ (hv r (by simp)) hq, if_neg (fun e => hn (by simp [e]))]
    exact h.off q hq (fun e => hn (by simp [e]))

theorem setWaits_spec {g : GangRef} (hg : g.bent < 64) (s : State) (w : Wait) (rs : List SliceRef) (hrs : ∀ r ∈ rs, r ∈ g.refs)
    (hn : rs.Nodup) : Within g s (setWaits s w rs) ∧ Mapped rs (fun _ x => { x with wait := w }) s (setWaits s w rs) := by
  induction rs with
  | nil => exact ⟨Within.rfl' g s, fun _ h => by simp at h, fun _ _ _ => rfl⟩
  | cons r rs ih =>
    obtain ⟨h1, h2⟩ := ih (fun q hq => hrs q (by simp [hq])) (List.nodup_cons.1 hn).2
    exact ⟨h1.trans' (Within.of_mod hg _ (hrs r (by simp)) _), Mapped.step hg hrs (List.nodup_cons.1 hn).1 h2⟩

/-! ## Acquires (03 R96) -/

/-- An acquire changes the L1 and what its slice has acquired. -/
theorem acquire_spec {g : GangRef} (hg : g.bent < 64) (s : State) {r : SliceRef} (hr : r ∈ g.refs) (sc : Scope) :
    Within g s (s.acquire r sc) ∧ (∃ e, (s.acquire r sc).slice r = { s.slice r with acqEpoch := e })
      ∧ ∀ q, valid q → q ≠ r → (s.acquire r sc).slice q = s.slice q := by
  unfold State.acquire
  split
  · exact ⟨Within.rfl' g s, ⟨_, rfl⟩, fun _ _ _ => rfl⟩
  · refine ⟨(Within.of_l1 g s (s.clusterOf r) _).trans' (Within.of_mod hg (s.dropL1 (s.clusterOf r)) hr _),
      ⟨((s.dropL1 (s.clusterOf r)).l1 (s.clusterOf r)).epoch, ?_⟩, fun q hq hne => ?_⟩
    · rw [State.slice_modSlice _ _ (refs_valid hg hr) (refs_valid hg hr), if_pos rfl]; rfl
    · rw [State.slice_modSlice _ _ (refs_valid hg hr) hq, if_neg hne]; rfl

/-- The acquires of a slice's tokens change its token scopes, what it has acquired, and the L1 alone. -/
theorem acquireTokens_spec {g : GangRef} (hg : g.bent < 64) (s : State) {r : SliceRef} (hr : r ∈ g.refs) (mask : BitVec 8) (k : Nat) :
    Within g s (s.acquireTokens r mask k)
      ∧ (∃ ts e, (s.acquireTokens r mask k).slice r = { s.slice r with tokenScope := ts, acqEpoch := e })
      ∧ ∀ q, valid q → q ≠ r → (s.acquireTokens r mask k).slice q = s.slice q := by
  induction k with
  | zero => exact ⟨Within.rfl' g s, ⟨_, _, rfl⟩, fun _ _ _ => rfl⟩
  | succ k ih =>
    obtain ⟨h1, ⟨ts, e, h2⟩, h3⟩ := ih
    simp only [State.acquireTokens]
    split
    · split
      · rename_i sc _
        obtain ⟨k1, ⟨e', k2⟩, k3⟩ := acquire_spec hg (s.acquireTokens r mask k) hr sc
        refine ⟨h1.trans' (k1.trans' (Within.of_mod hg _ hr _)), ⟨smDel k ts, e', ?_⟩, fun q hq hne => ?_⟩
        · rw [State.slice_modSlice _ _ (refs_valid hg hr) (refs_valid hg hr), if_pos rfl, k2, h2]
        · rw [State.slice_modSlice _ _ (refs_valid hg hr) hq, if_neg hne, k3 q hq hne, h3 q hq hne]
      · exact ⟨h1, ⟨ts, e, h2⟩, h3⟩
    · exact ⟨h1, ⟨ts, e, h2⟩, h3⟩

theorem acquireAll_spec {g : GangRef} (hg : g.bent < 64) (s : State) (mask : BitVec 8) (rs : List SliceRef) (hrs : ∀ r ∈ rs, r ∈ g.refs)
    (hn : rs.Nodup) : Within g s (acquireAll s mask rs)
      ∧ (∀ r ∈ rs, ∃ ts e, (acquireAll s mask rs).slice r = { s.slice r with tokenScope := ts, acqEpoch := e })
      ∧ ∀ r, valid r → r ∉ rs → (acquireAll s mask rs).slice r = s.slice r := by
  induction rs with
  | nil => exact ⟨Within.rfl' g s, fun _ h => by simp at h, fun _ _ _ => rfl⟩
  | cons r rs ih =>
    obtain ⟨h1, h2, h3⟩ := ih (fun q hq => hrs q (by simp [hq])) (List.nodup_cons.1 hn).2
    have hr := hrs r (by simp)
    obtain ⟨k1, ⟨ts, te, k2⟩, k3⟩ := acquireTokens_spec hg (acquireAll s mask rs) hr mask 8
    have hnr := (List.nodup_cons.1 hn).1
    refine ⟨h1.trans' k1, fun q hq => ?_, fun q hq hne => ?_⟩
    · by_cases e : q = r
      · subst e; exact ⟨ts, te, by simp only [acquireAll, k2, h3 q (refs_valid hg hr) hnr]⟩
      · rcases List.mem_cons.1 hq with e' | hq
        · exact absurd e' e
        · obtain ⟨us, ue, h⟩ := h2 q hq
          exact ⟨us, ue, by simp only [acquireAll]; rw [k3 q (refs_valid hg (hrs q (by simp [hq]))) e, h]⟩
    · simp only [acquireAll]
      rw [k3 q hq (fun e => hne (by simp [e])), h3 q hq (fun e => hne (by simp [e]))]

/-! ## The checks -/

theorem precheck_go {s : State} {g : GangRef} {i : Instr} {info : Info} (h : Issues s g i info) {r : SliceRef} (hr : r ∈ g.refs) :
    precheck i info s.popIssue r = .go := by
  have hb : info.regs.any (overBudget ((s.team r.tid).budget r.bent)) = false := by
    rw [Bool.eq_false_iff]; simp only [ne_eq, List.any_eq_true, not_exists, not_and]
    intro q hq; rw [h.budget r hr q hq]; simp
  have hp : ((s.slice r).pend.filter fun p => p.regs.any fun q => q ∈ info.regs) = [] := by
    rw [List.filter_eq_nil_iff]
    intro p hp; simp only [List.any_eq_true, decide_eq_true_eq, not_exists, not_and]
    exact fun q hq => h.pending r hr p hp q hq
  have hs : (info.bentScope && (s.slice r).tmode) = false := by
    by_cases hb : info.bentScope = true
    · simp [h.scope hb r hr]
    · simp [hb]
  have hf : (info.waitFlags && !(s.slice r).pend.isEmpty) = false := by
    by_cases hw : info.waitFlags = true
    · simp [h.flags hw r hr]
    · simp [hw]
  have e1 : s.popIssue.slice r = s.slice r := rfl
  have e2 : s.popIssue.team r.tid = s.team r.tid := rfl
  simp only [precheck, e1, e2, h.formed, hb, hs, h.tokens r hr, hp, hf]
  simp

theorem precheckAll_go {i : Instr} {info : Info} {s : State} {rs : List SliceRef} (h : ∀ r ∈ rs, precheck i info s r = .go) :
    precheckAll i info s rs = (rs, [], none) := by
  induction rs with
  | nil => rfl
  | cons r rs ih => simp only [precheckAll, ih (fun q hq => h q (by simp [hq])), h r (by simp)]

/-! ## The end of an issue -/

/-- The slice as an instruction leaves it. -/
def Slice.ended (x : Slice) (pid0 : Nat) (r : SliceRes) : Slice :=
  match r with
  | .go next => { x.passed pid0 with pc := next }
  | .park w => { x with wait := w }
  | .exit => (x.passed pid0).exit
  | .trap _ _ => x

theorem settleAll_spec {g : GangRef} (hg : g.bent < 64) (s : State) (pid0 : Nat) (res : List (SliceRef × SliceRes))
    (hrs : ∀ p ∈ res, p.1 ∈ g.refs) (hn : (res.map (·.1)).Nodup) :
    Within g s (settleAll s pid0 res)
      ∧ (∀ p ∈ res, (settleAll s pid0 res).slice p.1 = (s.slice p.1).ended pid0 p.2)
      ∧ ∀ r, valid r → r ∉ res.map (·.1) → (settleAll s pid0 res).slice r = s.slice r := by
  induction res with
  | nil => exact ⟨Within.rfl' g s, fun _ h => by simp at h, fun _ _ _ => rfl⟩
  | cons p res ih =>
    obtain ⟨r, x⟩ := p
    simp only [List.map_cons, List.nodup_cons] at hn
    obtain ⟨h1, h2, h3⟩ := ih (fun q hq => hrs q (by simp [hq])) hn.2
    have hr : r ∈ g.refs := hrs (r, x) (by simp)
    have hv := refs_valid hg hr
    have hrr := h3 r hv hn.1
    have key : ∀ u : State, Within g (settleAll s pid0 res) u → (∀ q, valid q → q ≠ r → u.slice q = (settleAll s pid0 res).slice q) →
        (u.slice r = (s.slice r).ended pid0 x) →
        Within g s u ∧ (∀ p ∈ (r, x) :: res, u.slice p.1 = (s.slice p.1).ended pid0 p.2) ∧ ∀ q, valid q → q ∉ ((r, x) :: res).map (·.1) → u.slice q = s.slice q := by
      intro u hu ho hs
      refine ⟨h1.trans' hu, fun p hp => ?_, fun q hq hne => ?_⟩
      · rcases List.mem_cons.1 hp with rfl | hp
        · exact hs
        · have hne : p.1 ≠ r := fun e => hn.1 (e ▸ List.mem_map_of_mem hp)
          rw [ho p.1 (refs_valid hg (hrs p (by simp [hp]))) hne]
          exact h2 p hp
      · simp only [List.map_cons, List.mem_cons, not_or] at hne
        rw [ho q hq hne.1, h3 q hq hne.2]
    simp only [settleAll]
    apply key
    · cases x <;> simp only [settleSlice]
      · exact Within.of_mod hg _ hr _
      · exact Within.rfl' g _
      · exact Within.of_mod hg _ hr _
      · exact Within.of_mod hg _ hr _
    · intro q hq hne
      cases x <;> simp only [settleSlice]
      · rw [State.slice_modSlice _ _ hv hq, if_neg hne]
      · rw [State.slice_modSlice _ _ hv hq, if_neg hne]
      · rw [State.slice_modSlice _ _ hv hq, if_neg hne]
    · cases x <;> simp only [settleSlice]
      · rw [State.slice_modSlice _ _ hv hv, if_pos rfl, hrr]; rfl
      · exact hrr
      · rw [State.slice_modSlice _ _ hv hv, if_pos rfl, hrr]; rfl
      · rw [State.slice_modSlice _ _ hv hv, if_pos rfl, hrr]; rfl

theorem splitGang_spec {g : GangRef} (hg : g.bent < 64) (s : State) (n : Nat) (gs : List (Quad × BitVec 8)) (as : List (BitVec 8)) :
    Within g s (s.splitGang g n gs as) ∧ ∀ r, (s.splitGang g n gs as).slice r = s.slice r :=
  ⟨(Within.of_gangs hg s _).trans' (Within.of_count g _ _ _ _), fun _ => rfl⟩

/-- No slice traps. -/
def noTraps (res : List (SliceRef × SliceRes)) : Prop := ∀ p ∈ res, ∀ f q, p.2 ≠ .trap f q

theorem filter_traps {res : List (SliceRef × SliceRes)} (h : noTraps res) : (res.filter fun p => p.2.isTrap) = [] := by
  rw [List.filter_eq_nil_iff]
  intro p hp
  have := h p hp
  cases hx : p.2 <;> simp_all [SliceRes.isTrap]

theorem finishGang_spec {g : GangRef} (hg : g.bent < 64) (s : State) (pid0 : Nat) (br : Bool) (pc : Quad) (inst : Word)
    (res : List (SliceRef × SliceRes)) (hrs : ∀ p ∈ res, p.1 ∈ g.refs) (hn : (res.map (·.1)).Nodup) (ht : noTraps res) :
    Within g s (s.finishGang g pid0 br pc inst res)
      ∧ ∀ p ∈ res, (s.finishGang g pid0 br pc inst res).slice p.1 = (s.slice p.1).ended pid0 p.2 := by
  obtain ⟨h1, h2, _⟩ := settleAll_spec hg s pid0 res hrs hn
  have hf := filter_traps ht
  unfold State.finishGang
  simp only [hf]
  obtain ⟨k1, k2⟩ := splitGang_spec hg (settleAll s pid0 res) (if br = true then State.partClock (settleAll s pid0 res) (settleAll s pid0 res).iss.part + 2 else 0)
    (newMasks pc res).1 (newMasks pc res).2
  refine ⟨?_, fun p hp => ?_⟩
  · exact h1.trans' k1
  · exact (k2 p.1).trans (h2 p hp)

/-! ## An instruction that acts on each slice -/

/-- Each slice's part changes that slice alone. -/
theorem runSlices_spec {g : GangRef} (hg : g.bent < 64) (f : State → SliceRef → SliceStep) (F : SliceRef → Slice) (N : SliceRef → SliceRes)
    (s0 : State) (rs : List SliceRef) (hrs : ∀ r ∈ rs, r ∈ g.refs) (hn : rs.Nodup)
    (hf : ∀ s r, r ∈ rs → Within g s0 s → s.iss = s0.iss → s.slice r = s0.slice r → f s r = .ok (s.setSlice r (F r)) (N r)) :
    ∀ s, Within g s0 s → s.iss = s0.iss → (∀ r ∈ rs, s.slice r = s0.slice r) →
      ∃ t, runSlices f s rs = .done t (rs.map fun r => (r, N r)) ∧ Within g s t ∧ t.iss = s.iss ∧ (∀ r ∈ rs, t.slice r = F r)
        ∧ ∀ r, valid r → r ∉ rs → t.slice r = s.slice r := by
  induction rs with
  | nil => exact fun s _ _ _ => ⟨s, rfl, Within.rfl' g s, rfl, fun _ h => by simp at h, fun _ _ _ => rfl⟩
  | cons r rs ih =>
    intro s hw hi hs
    have hr := hrs r (by simp)
    have hv := refs_valid hg hr
    have hnr := List.nodup_cons.1 hn
    have hrs' : ∀ q ∈ rs, q ∈ g.refs := fun q hq => hrs q (by simp [hq])
    have hw1 : Within g s (s.setSlice r (F r)) := Within.of_slice hg s hr _
    obtain ⟨t, h1, h2, h3, h4, h5⟩ := ih hrs' hnr.2 (fun s q hq => hf s q (by simp [hq])) (s.setSlice r (F r)) (hw.trans' hw1) hi
      (fun q hq => by
        have hne : q ≠ r := by rintro rfl; exact hnr.1 hq
        rw [State.slice_setSlice s _ hv (refs_valid hg (hrs' q hq)), if_neg hne]
        exact hs q (by simp [hq]))
    refine ⟨t, ?_, hw1.trans' h2, h3, fun q hq => ?_, fun q hq hne => ?_⟩
    · simp only [runSlices, hf s r (by simp) hw hi (hs r (by simp)), h1, List.map_cons]
    · by_cases e : q = r
      · subst e; rw [h5 q hv hnr.1]; simp
      · rcases List.mem_cons.1 hq with e' | hq
        · exact absurd e' e
        · exact h4 q hq
    · rw [h5 q hq (fun e => hne (by simp [e])), State.slice_setSlice s _ hv hq, if_neg (fun e => hne (by simp [e]))]

/-- The slice as an instruction finds it: it waits for nothing, and has acquired through its tokens. -/
def Slice.begun (x : Slice) (ts : SMap Scope × Nat) : Slice := { x with wait := .none, tokenScope := ts.1, acqEpoch := ts.2 }

/-- An instruction that acts on each slice of its gang by itself and changes that slice alone completes, and all it does is
said here. -/
theorem issueSlices_spec {s : State} {g : GangRef} {i : Instr} {info : Info} (h : Issues s g i info)
    (f : State → SliceRef → SliceStep) (F : SliceRef → Slice → Slice) (N : SliceRef → Slice → SliceRes)
    (hf : ∀ s' r ts, r ∈ g.refs → Within g s s' → popped s s' → s'.slice r = (s.slice r).begun ts →
      f s' r = .ok (s'.setSlice r (F r ((s.slice r).begun ts))) (N r ((s.slice r).begun ts)))
    (hN : ∀ r x e q, N r x ≠ .trap e q) :
    ∃ t, issueSlices i info f s = .next t ∧ RegistersOnly g s t ∧
      ∀ r ∈ g.refs, ∃ ts, t.slice r = (F r ((s.slice r).begun ts)).ended s.mem.nextOp (N r ((s.slice r).begun ts)) := by
  have hg := h.bent
  obtain ⟨w1, m1⟩ := setWaits_spec hg s.popIssue .none g.refs (fun _ h => h) (refs_nodup g)
  obtain ⟨w2, m2, _⟩ := acquireAll_spec hg (setWaits s.popIssue .none g.refs) (tokenMask info) g.refs (fun _ h => h) (refs_nodup g)
  have hp : ∀ rs s', (setWaits s' .none rs).iss = s'.iss := fun rs => by
    induction rs with
    | nil => exact fun _ => rfl
    | cons r rs ih => exact fun s' => ih s'
  have ha1 : ∀ s' r k, (State.acquireTokens s' r (tokenMask info) k).iss = s'.iss := fun s' r k => by
    induction k with
    | zero => rfl
    | succ k ih =>
      simp only [State.acquireTokens]
      split
      · split
        · have : ∀ (u : State) sc, (u.acquire r sc).iss = u.iss := fun u sc => by unfold State.acquire; split <;> rfl
          simp [this, ih]
        · exact ih
      · exact ih
  have ha : ∀ rs s', (acquireAll s' (tokenMask info) rs).iss = s'.iss := fun rs => by
    induction rs with
    | nil => exact fun _ => rfl
    | cons r rs ih => intro s'; simp only [acquireAll, ha1, ih]
  let s1 := acquireAll (setWaits s.popIssue .none g.refs) (tokenMask info) g.refs
  have hi1 : s1.iss = s.popIssue.iss := by simp only [s1, ha, hp]
  have hw0 : Within g s s.popIssue := Within.of_iss g s _
  have hw1 : Within g s s1 := hw0.trans' (w1.trans' w2)
  have hs1 : ∀ r ∈ g.refs, ∃ ts, s1.slice r = (s.slice r).begun ts := fun r hr => by
    obtain ⟨ts, te, e⟩ := m2 r hr
    exact ⟨(ts, te), by rw [e, m1.on r hr]; rfl⟩
  choose! ts hts using hs1
  obtain ⟨t, r1, r2, r3, r4, _⟩ := runSlices_spec hg f (fun r => F r ((s.slice r).begun (ts r))) (fun r => N r ((s.slice r).begun (ts r)))
    s1 g.refs (fun _ h => h) (refs_nodup g)
    (fun s' r hr hw hi hs => hf s' r (ts r) hr (hw1.trans' hw) (hi.trans hi1) (hs.trans (hts r hr)))
    s1 (Within.rfl' g s1) rfl (fun _ _ => rfl)
  have hmap : (g.refs.map fun r => (r, N r ((s.slice r).begun (ts r)))).map (·.1) = g.refs := by
    rw [List.map_map]; exact List.map_id _
  have hfin := fun u => finishGang_spec hg u s.popIssue.mem.nextOp info.branch (gangPc s.popIssue g) (instrWord i)
    (g.refs.map fun r => (r, N r ((s.slice r).begun (ts r))))
    (fun p hp => by obtain ⟨r, hr, rfl⟩ := List.mem_map.1 hp; exact hr) (by rw [hmap]; exact refs_nodup g)
    (fun p hp e q => by obtain ⟨r, hr, rfl⟩ := List.mem_map.1 hp; exact hN _ _ e q)
  obtain ⟨rest, hnow⟩ : ∃ rest, s.iss.now = g :: rest := by
    have := h.head
    cases hq : s.iss.now with
    | nil => simp [hq] at this
    | cons a l => simp [hq] at this; exact ⟨l, by rw [this]⟩
  let u := t.count g.tid 2
  have hu : Within g t u := Within.of_count g _ _ _ _
  have hus : ∀ r, u.slice r = t.slice r := fun _ => rfl
  have hui : u.iss = t.iss := rfl
  obtain ⟨f1, f2⟩ := hfin u
  have hw2 := hw1.trans' (r2.trans' (hu.trans' f1))
  have hfi : ∀ (v : State) pid br pc ins res, noTraps res → (v.finishGang g pid br pc ins res).iss = v.iss := by
    intro v pid br pc ins res hnt
    have hf := filter_traps hnt
    have hs : ∀ rs (v : State), (settleAll v pid rs).iss = v.iss := fun rs => by
      induction rs with
      | nil => exact fun _ => rfl
      | cons p rs ih =>
        intro v
        obtain ⟨r, x⟩ := p
        cases x <;> simp [settleAll, settleSlice, ih]
    unfold State.finishGang
    simp only [hf]
    exact hs res v
  refine ⟨u.finishGang g s.popIssue.mem.nextOp info.branch (gangPc s.popIssue g) (instrWord i) (g.refs.map fun r => (r, N r ((s.slice r).begun (ts r)))), ?_,
    ⟨hw2.elsewhere, hw2.system, ?_, hw2.checks, hw2.mem⟩, fun r hr => ⟨ts r, ?_⟩⟩
  · simp only [issueSlices, issueGang, hnow, issueFor]
    have hpre := precheckAll_go (i := i) (info := info) (s := s.popIssue) (rs := g.refs) (fun r hr => precheck_go h hr)
    simp only [hpre]
    have r1' : runSlices f (acquireAll (setWaits s.popIssue .none g.refs) (tokenMask info) g.refs) g.refs = _ := r1
    simp only [r1', List.append_nil]
    rfl
  · show State.iss _ = _
    rw [hfi _ _ _ _ _ _ (fun p hp e q => by obtain ⟨r, hr, rfl⟩ := List.mem_map.1 hp; exact hN _ _ e q), hui, r3, hi1]
    rfl
  · rw [f2 (r, N r ((s.slice r).begun (ts r))) (List.mem_map_of_mem hr), hus, r4 r hr]
    rfl

end Sys2Proof.Machine
end

