-- ==== Sys2Proof/Laws/Compute.lean ====
section
/-! SUPPORT. What an arithmetic instruction does (03 R80, R91, 05 R145): the one lemma over the shared issue of register
computations. -/

namespace Sys2Proof.Machine

open Sys2Proof.Safety

theorem Slice.raise_putAll (ws : List RegWrite) (x : Slice) (fl : FFlags) : (x.raise fl).putAll ws = (x.putAll ws).raise fl := by
  have put : ∀ (y : Slice) w, (y.raise fl).put w = (y.put w).raise fl := by
    intro y w
    unfold Slice.put
    split
    · rfl
    · rfl
    · unfold Slice.setP; split <;> rfl
  induction ws generalizing x with
  | nil => rfl
  | cons w ws ih => simp only [Slice.putAll, put, ih]

theorem Slice.putAll_append (us ws : List RegWrite) (x : Slice) : x.putAll (us ++ ws) = (x.putAll us).putAll ws := by
  induction us generalizing x with
  | nil => rfl
  | cons u us ih => simp only [List.cons_append, Slice.putAll, ih]

/-- Every unit reads the registers as they were. -/
theorem computeUnits_eq (x0 : Slice) (f : Slice → Nat → List RegWrite × FFlags) (us : List Nat) (x : Slice) :
    computeUnits x0 f x us =
      { x.putAll (us.flatMap fun u => (f x0 u).1) with fflags := us.foldl (fun fl u => fl ||| (f x0 u).2) x.fflags } := by
  induction us generalizing x with
  | nil => rfl
  | cons u us ih =>
    simp only [computeUnits, ih, List.flatMap_cons, List.foldl_cons, Slice.raise_putAll, Slice.putAll_append]
    have h : ((x.putAll (f x0 u).1).raise (f x0 u).2).fflags = x.fflags ||| (f x0 u).2 := by
      simp only [Slice.raise]; rw [Slice.putAll_eq]
    rw [h]
    rfl

theorem unitsOf_lt {x : Slice} {gp : BitVec 3} {gn ps : Bool} {u : Nat} (h : u ∈ unitsOf x gp gn ps) : u < 4 := by
  unfold unitsOf at h
  split at h
  · split at h <;> simp_all
  · simp only [Slice.lanesOn, List.mem_filter, List.mem_range] at h; exact h.1

@[simp] theorem Slice.begun_unitsOf (x : Slice) (ts : SMap Scope × Nat) (gp : BitVec 3) (gn ps : Bool) :
    unitsOf (x.begun ts) gp gn ps = unitsOf x gp gn ps := rfl

theorem wrote_congr {ws : List RegWrite} {x y x' y' : Slice} (h : Wrote ws x y) (hx : x'.v = x.v ∧ x'.s = x.s ∧ x'.preds = x.preds)
    (hy : y'.v = y.v ∧ y'.s = y.s ∧ y'.preds = y.preds) : Wrote ws x' y' := by
  refine ⟨fun n l hl => ?_, fun n => ?_, fun n l hn hl => ?_⟩
  · have := h.v n l hl; simpa only [Slice.getV, hx.1, hy.1] using this
  · have := h.s n; simpa only [Slice.getS, hx.2.1, hy.2.1] using this
  · have := h.p n l hn hl; simpa only [Slice.getP, hx.2.2, hy.2.2] using this

/-- A register computation does what `computes` says. -/
theorem issueRegs_computes {s : State} {g : GangRef} {i : Instr} {info : Info} (h : Issues s g i info) (gp : BitVec 3) (gn ps : Bool)
    (f : Slice → Nat → List RegWrite × FFlags) (he : exec i s = issueRegs i info (computeSlice gp gn ps f) s)
    (hb : ∀ x ts u, f (Slice.begun x ts) u = f x u) (hl : ∀ x u, u < 4 → ∀ w ∈ (f x u).1, w.lane < 4) :
    computes i g s (fun x => unitsOf x gp gn ps) f := by
  obtain ⟨t, h1, h2, h3⟩ := issueSlices_spec h (onSlice i (computeSlice gp gn ps f)) (fun _ x => computeSlice gp gn ps f x)
    (fun _ x => .go (nextPc i x.pc)) (fun s' r ts _ _ _ hs => by simp only [onSlice, hs]) (fun _ _ _ _ => by simp)
  refine ⟨t, he.trans h1, h2, fun r hr => ?_⟩
  obtain ⟨ts, ht⟩ := h3 r hr
  simp only [Slice.ended, computeSlice, computeUnits_eq, hb, Slice.begun_unitsOf] at ht
  rw [ht]
  have hw := Slice.putAll_wrote ((unitsOf (s.slice r) gp gn ps).flatMap fun u => (f (s.slice r) u).1)
    (fun w hw => by
      obtain ⟨u, hu, hw⟩ := List.mem_flatMap.1 hw
      exact hl _ u (unitsOf_lt hu) w hw) ((s.slice r).begun ts)
  refine ⟨wrote_congr hw ⟨rfl, rfl, rfl⟩ ⟨rfl, rfl, rfl⟩, rfl, ?_, rfl⟩
  have := Slice.putAll_eq ((unitsOf (s.slice r) gp gn ps).flatMap fun u => (f (s.slice r) u).1) ((s.slice r).begun ts)
  exact ⟨by simp only [Slice.passed]; rw [this]; rfl, by simp only [Slice.passed]; rw [this]; rfl, by simp only [Slice.passed]; rw [this]; rfl,
    by simp only [Slice.passed]; rw [this]; rfl, by simp only [Slice.passed]; rw [this]; rfl, by simp only [Slice.passed]; rw [this]; rfl⟩

/-! ## Writes of one register -/

theorem written_lane (f : Nat → Word) (d n j : Nat) (old : Word) (us : List Nat) (hn : us.Nodup) :
    written (us.flatMap fun u => [({ reg := .v d, lane := u, val := f u } : RegWrite)]) (.v n) j old = if n = d ∧ j ∈ us then f j else old := by
  induction us generalizing old with
  | nil => simp [written]
  | cons u us ih =>
    have h := List.nodup_cons.1 hn
    simp only [List.flatMap_cons, List.singleton_append, written, List.foldl_cons] at ih ⊢
    rw [ih _ h.2]
    by_cases hd : n = d
    · subst hd
      by_cases e : j = u
      · subst e; simp [reaches, h.1]
      · have : ¬ u = j := fun x => e x.symm
        simp [reaches, e, this]
    · have : ¬ d = n := fun x => hd x.symm
      simp [reaches, hd, this]

theorem written_none (ws : List RegWrite) (q : Reg) (j : Nat) (old : Word) (h : ∀ w ∈ ws, w.reg ≠ q) : written ws q j old = old := by
  induction ws generalizing old with
  | nil => rfl
  | cons w ws ih =>
    simp only [written, List.foldl_cons] at ih ⊢
    rw [ih _ (fun w hw => h w (by simp [hw]))]
    have := h w (by simp)
    simp [reaches, this]

theorem writtenBit_none (x : Slice) (ws : List RegWrite) (n j : Nat) (h : ∀ w ∈ ws, w.reg ≠ .p n) : writtenBit ws n j (x.getP n j) = x.getP n j := by
  unfold writtenBit
  split
  · subst_vars; simp [Slice.getP]
  · generalize x.getP n j = old
    induction ws generalizing old with
    | nil => rfl
    | cons w ws ih =>
      simp only [List.foldl_cons]
      have := h w (by simp)
      rw [ih (fun w hw => h w (by simp [hw]))]
      simp [reaches, this]

theorem foldl_zero (us : List Nat) (fl : FFlags) (f : Nat → FFlags) (h : ∀ u, f u = 0) : us.foldl (fun a u => a ||| f u) fl = fl := by
  induction us generalizing fl with
  | nil => rfl
  | cons u us ih => simp [h]

/-! ## Base forms -/

theorem base_units (x : Slice) : unitsOf x 7 false false = (List.range 4).filter fun j => x.exec.getLsbD j := by
  have h : x.laneOn 7 false = fun j => x.exec.getLsbD j := by funext j; simp [Slice.laneOn, Slice.getP]
  unfold unitsOf Slice.lanesOn
  rw [h]; rfl
theorem slice_units (x : Slice) : unitsOf x 7 false true = [0] := by simp [unitsOf, Slice.sliceOn]

theorem to_lanewise {i : Instr} {g s d} {f : Slice → Nat → List RegWrite × FFlags} {F : Slice → Nat → Word}
    (h : computes i g s (fun x => unitsOf x 7 false false) f) (hf : ∀ x u, f x u = ([{ reg := .v d, lane := u, val := F x u }], 0)) :
    lanewise i g s d F := by
  obtain ⟨t, h1, h2, h3⟩ := h
  refine ⟨t, h1, h2, fun r hr => ?_⟩
  obtain ⟨w, fl, c, pc⟩ := h3 r hr
  have e : ((unitsOf (s.slice r) 7 false false).flatMap fun u => (f (s.slice r) u).1) =
      ((List.range 4).filter fun j => (s.slice r).exec.getLsbD j).flatMap fun u => [({ reg := .v d, lane := u, val := F (s.slice r) u } : RegWrite)] := by
    simp only [base_units, hf]
  have hm : ∀ w ∈ (((List.range 4).filter fun j => (s.slice r).exec.getLsbD j).flatMap fun u => [({ reg := .v d, lane := u, val := F (s.slice r) u } : RegWrite)]), w.reg = .v d := by
    intro w hw; simp only [List.mem_flatMap, List.mem_singleton] at hw; obtain ⟨_, _, rfl⟩ := hw; rfl
  simp only [e] at w
  refine ⟨fun n j hj => ?_, fun n => ?_, fun n j hn hj => ?_, ?_, c, pc⟩
  · rw [w.v n j hj, written_lane _ _ _ _ _ _ (List.Nodup.filter _ List.nodup_range)]
    simp [hj]
  · rw [w.s n, written_none]; intro x hx; rw [hm x hx]; simp
  · rw [w.p n j hn hj, writtenBit_none]; intro x hx; rw [hm x hx]; simp
  · rw [fl, foldl_zero]; intro u; simp [hf]

theorem to_slicewise {i : Instr} {g s d} {f : Slice → Nat → List RegWrite × FFlags} {F : Slice → Word}
    (h : computes i g s (fun x => unitsOf x 7 false true) f) (hf : ∀ x u, f x u = ([{ reg := .s d, lane := 0, val := F x }], 0)) :
    slicewise i g s d F := by
  obtain ⟨t, h1, h2, h3⟩ := h
  refine ⟨t, h1, h2, fun r hr => ?_⟩
  obtain ⟨w, fl, c, pc⟩ := h3 r hr
  simp only [slice_units, List.flatMap_cons, List.flatMap_nil, List.append_nil, hf] at w
  refine ⟨fun n j hj => ?_, fun n => ?_, fun n j hn hj => ?_, ?_, c, pc⟩
  · rw [w.v n j hj, written_none]; simp
  · rw [w.s n]; simp only [written, List.foldl_cons, List.foldl_nil, reaches]
    by_cases e : n = d
    · subst e; simp
    · have : ¬ d = n := fun x => e x.symm
      simp [e, this]
  · rw [w.p n j hn hj, writtenBit_none]; simp
  · rw [fl]; simp [hf]

theorem opB_vector (o : B3) (x : Slice) (j : Nat) : B3.opB o false x j = (vectorB o x j).toNat := by
  cases h : o.lit
  · simp only [B3.opB, vectorB, h, Bool.false_eq_true, if_false]; split <;> rfl
  · simp [B3.opB, vectorB, h]
theorem opB_scalar (o : B3) (x : Slice) (j : Nat) : B3.opB o true x j = (scalarB o x).toNat := by
  cases h : o.lit
  · simp only [B3.opB, scalarB, h, if_true]; split
    · have := o.b.isLt; simp; omega
    · rfl
  · simp [B3.opB, scalarB, h]

end Sys2Proof.Machine
end

