-- ==== Sys2Proof/Laws/IntValues.lean ====
section
/-! SUPPORT. The integer operations of 05 R153 and R154 on 32-bit patterns are those of 32-bit words. -/

namespace Sys2Proof.Machine

theorem intVal_i32 (a : Word) : intVal .i32 a.toNat = a.toInt := by
  have := a.isLt
  simp only [intVal, tyWidth, tySigned, Nat.mod_eq_of_lt a.isLt, BitVec.toInt_eq_toNat_cond]
  split <;> split <;> simp_all <;> omega

theorem intVal_z32 (a : Word) : intVal .z32 a.toNat = (a.toNat : Int) := by
  simp [intVal, tyWidth, tySigned, Nat.mod_eq_of_lt a.isLt]

theorem ofNat_wrapInt (x : Int) : BitVec.ofNat 32 (wrapInt 32 x) = BitVec.ofInt 32 x := by
  apply BitVec.eq_of_toNat_eq
  simp only [wrapInt, BitVec.toNat_ofNat, BitVec.toNat_ofInt]
  omega

theorem word_add (a b : Word) : BitVec.ofNat 32 (opAdd .i32 false a.toNat b.toNat 0).1 = a + b := by
  simp only [opAdd, fit, Bool.false_eq_true, if_false, intVal_i32, tyWidth, ofNat_wrapInt, BitVec.ofInt_add, BitVec.ofInt_toInt]

theorem word_sub (a b : Word) : BitVec.ofNat 32 (opSub .i32 false a.toNat b.toNat 0).1 = a - b := by
  simp only [opSub, fit, Bool.false_eq_true, if_false, intVal_i32, tyWidth, ofNat_wrapInt, Int.sub_eq_add_neg, BitVec.ofInt_add,
    BitVec.ofInt_neg, BitVec.ofInt_toInt, ← BitVec.sub_eq_add_neg]

theorem word_mul (a b : Word) : BitVec.ofNat 32 (opMul .i32 false a.toNat b.toNat 0).1 = a * b := by
  simp only [opMul, fit, Bool.false_eq_true, if_false, intVal_i32, tyWidth, ofNat_wrapInt, BitVec.ofInt_mul, BitVec.ofInt_toInt]

theorem word_min (a b : Word) : BitVec.ofNat 32 (opMin .i32 false a.toNat b.toNat 0).1 = if b.slt a then b else a := by
  simp only [opMin, intVal_i32, BitVec.slt, decide_eq_true_eq]
  split <;> simp

theorem word_max (a b : Word) : BitVec.ofNat 32 (opMax .i32 false a.toNat b.toNat 0).1 = if a.slt b then b else a := by
  simp only [opMax, intVal_i32, BitVec.slt, decide_eq_true_eq]
  split <;> simp

theorem word_and (a b : Word) : BitVec.ofNat 32 (opAnd .i32 false a.toNat b.toNat 0).1 = a &&& b := by
  simp [opAnd, BitVec.ofNat_and]

theorem word_or (a b : Word) : BitVec.ofNat 32 (opOr .i32 false a.toNat b.toNat 0).1 = a ||| b := by
  simp [opOr, BitVec.ofNat_or]

theorem word_xor (a b : Word) : BitVec.ofNat 32 (opXor .i32 false a.toNat b.toNat 0).1 = a ^^^ b := by
  simp [opXor, BitVec.ofNat_xor]

theorem word_andn (a b : Word) : BitVec.ofNat 32 (opAndn .i32 false a.toNat b.toNat 0).1 = a &&& ~~~b := by
  apply BitVec.eq_of_toNat_eq
  have h : notBits 32 b.toNat = (~~~b).toNat := by
    simp only [notBits, BitVec.toNat_not, Nat.mod_eq_of_lt b.isLt]
  simp only [opAndn, tyWidth, h, BitVec.toNat_ofNat, BitVec.toNat_and]
  exact Nat.mod_eq_of_lt (Nat.lt_of_le_of_lt Nat.and_le_left a.isLt)

theorem opShl_i32 (a b : Nat) : opShl .i32 false a b 0 = (if b ≥ 32 then 0 else a * 2 ^ b % 2 ^ 32, 0) := rfl

theorem word_shl (a b : Word) : BitVec.ofNat 32 (opShl .i32 false a.toNat b.toNat 0).1 = a <<< b.toNat := by
  apply BitVec.eq_of_toNat_eq
  simp only [opShl_i32, BitVec.toNat_ofNat, BitVec.toNat_shiftLeft, Nat.shiftLeft_eq]
  by_cases h : b.toNat ≥ 32
  · have : (2 : Nat) ^ 32 ∣ a.toNat * 2 ^ b.toNat := Dvd.dvd.mul_left (Nat.pow_dvd_pow 2 h) _
    rw [if_pos h, Nat.mod_eq_zero_of_dvd this]
  · rw [if_neg h, Nat.mod_mod]

theorem word_shr (a b : Word) : BitVec.ofNat 32 (opShr .i32 false a.toNat b.toNat 0).1 = a >>> b.toNat := by
  apply BitVec.eq_of_toNat_eq
  simp only [opShr, tyWidth, BitVec.toNat_ofNat, BitVec.toNat_ushiftRight, Nat.shiftRight_eq_div_pow, Nat.mod_eq_of_lt a.isLt]
  split
  · rename_i h
    have : a.toNat / 2 ^ b.toNat = 0 := Nat.div_eq_of_lt (Nat.lt_of_lt_of_le a.isLt (Nat.pow_le_pow_right (by decide) h))
    simp [this]
  · exact Nat.mod_eq_of_lt (Nat.lt_of_le_of_lt (Nat.div_le_self _ _) a.isLt)

theorem signedVal_word (a : Word) : signedVal 32 a.toNat = a.toInt := by
  have := a.isLt
  simp only [signedVal, Nat.mod_eq_of_lt a.isLt, BitVec.toInt_eq_toNat_cond]
  split <;> split <;> simp_all <;> omega

theorem word_sar (a b : Word) : BitVec.ofNat 32 (opSar .i32 false a.toNat b.toNat 0).1 = a.sshiftRight b.toNat := by
  simp only [opSar, tyWidth, ofNat_wrapInt, signedVal_word]
  apply BitVec.eq_of_toInt_eq
  rw [BitVec.toInt_sshiftRight, Int.shiftRight_eq_div_pow, BitVec.toInt_ofInt]
  have h1 : a.toInt < 2 ^ 31 := BitVec.toInt_lt (x := a)
  have h2 : -2 ^ 31 ≤ a.toInt := BitVec.le_toInt (x := a)
  have e : a.toInt / ((2 ^ min b.toNat 32 : Nat) : Int) = a.toInt / ((2 ^ b.toNat : Nat) : Int) := by
    by_cases h : b.toNat ≤ 32
    · rw [Nat.min_eq_left h]
    · rw [Nat.min_eq_right (by omega)]
      have hp : ((2 ^ 32 : Nat) : Int) ≤ ((2 ^ b.toNat : Nat) : Int) := by exact_mod_cast Nat.pow_le_pow_right (by decide) (by omega)
      by_cases hn : 0 ≤ a.toInt
      · rw [Int.ediv_eq_zero_of_lt hn (by omega), Int.ediv_eq_zero_of_lt hn (by omega)]
      · rw [Int.ediv_eq_neg_one_of_neg_of_le (by omega) (by omega), Int.ediv_eq_neg_one_of_neg_of_le (by omega) (by omega)]
  rw [e]
  have hp : (0 : Int) < ((2 ^ b.toNat : Nat) : Int) := by positivity
  have hle : a.toInt / ((2 ^ b.toNat : Nat) : Int) < 2 ^ 31 := by
    apply Int.ediv_lt_of_lt_mul hp
    generalize ((2 ^ b.toNat : Nat) : Int) = k at *
    nlinarith
  have hge : -2 ^ 31 ≤ a.toInt / ((2 ^ b.toNat : Nat) : Int) := by
    apply Int.le_ediv_of_mul_le hp
    generalize ((2 ^ b.toNat : Nat) : Int) = k at *
    nlinarith
  generalize a.toInt / ((2 ^ b.toNat : Nat) : Int) = q at *
  rw [Int.bmod_eq_of_le] <;> simp at * <;> omega

theorem word_compare (a b : Word) (cc : Nat) : intCompare .i32 cc a.toNat b.toNat =
    match cc with
    | 0 => a == b
    | 1 => a != b
    | 2 => a.slt b
    | 3 => a.sle b
    | 4 => b.slt a
    | _ => b.sle a := by
  unfold intCompare
  simp only [intVal_i32, BitVec.slt, BitVec.sle, GT.gt, GE.ge, BitVec.toInt_inj, ne_eq]
  split <;> simp [bne, BEq.beq]

theorem word_compareU (a b : Word) (cc : Nat) : intCompare .z32 cc a.toNat b.toNat =
    match cc with
    | 0 => a == b
    | 1 => a != b
    | 2 => a.ult b
    | 3 => a.ule b
    | 4 => b.ult a
    | _ => b.ule a := by
  unfold intCompare
  simp only [intVal_z32, BitVec.ult, BitVec.ule, GT.gt, GE.ge, Nat.cast_inj, Nat.cast_lt, Nat.cast_le, BitVec.toNat_inj, ne_eq]
  split <;> simp [bne, BEq.beq]

end Sys2Proof.Machine
end

