-- ==== Sys2Proof/Laws/Lone.lean ====
section
/-! SUPPORT. What the issue of an instruction does for a gang of one slice: the state in which the slice acts, and all that
the end of the issue adds to what its part did. -/

namespace Sys2Proof.Machine

open Sys2Proof.Safety

theorem Lone.valid {s : State} {g : GangRef} {r : SliceRef} {i : Instr} {info : Info} (h : Lone s g r i info) : valid r :=
  refs_valid h.issues.bent (by rw [h.refs]; simp)

theorem acquireTokens_iss (s : State) (r : SliceRef) (mask : BitVec 8) (k : Nat) : (s.acquireTokens r mask k).iss = s.iss := by
  induction k with
  | zero => rfl
  | succ k ih =>
    simp only [State.acquireTokens]
    split
    · split
      · have : ∀ (u : State) sc, (u.acquire r sc).iss = u.iss := fun u sc => by unfold State.acquire; split <;> rfl
        simp [this, ih]
      · exact ih
    · exact ih

/-- The state in which the slice acts differs from the one before in the slice's wait and token scopes, and in the L1. -/
theorem acting_spec {s : State} {g : GangRef} {r : SliceRef} (hg : g.bent < 64) (hr : r ∈ g.refs) (wk : BitVec 8) :
    Within g s (acting s r wk) ∧ popped s (acting s r wk) ∧ (∃ ts, (acting s r wk).slice r = (s.slice r).begun ts)
      ∧ ∀ q, valid q → q ≠ r → (acting s r wk).slice q = s.slice q := by
  obtain ⟨w1, m1⟩ := setWaits_spec hg s.popIssue .none [r] (by simpa using hr) (by simp)
  obtain ⟨w2, ⟨ts, te, m2⟩, m3⟩ := acquireTokens_spec hg (setWaits s.popIssue .none [r]) hr wk 8
  refine ⟨(Within.of_iss g s _).trans' (w1.trans' w2), ?_, ⟨(ts, te), ?_⟩, fun q hq hne => ?_⟩
  · show State.iss _ = _
    simp only [acting, acquireTokens_iss]; rfl
  · simp only [acting, m2, m1.on r (by simp)]; rfl
  · simp only [acting]; rw [m3 q hq hne, m1.off q hq (by simpa using hne)]; rfl

/-- What the end of an issue adds to the state that the slice's part left. -/
structure Ends (g : GangRef) (r : SliceRef) (n : Nat) (res : SliceRes) (u t : State) : Prop where
  slice : t.slice r = (u.slice r).ended n res
  slices : ∀ q, valid q → q ≠ r → t.slice q = u.slice q
  within : Within g u t
  iss : t.iss = u.iss
  mem : t.mem = u.mem

theorem Within.rest {g : GangRef} {u t : State} (h : Within g u t) :
    t.agenda = u.agenda ∧ t.clk = u.clk ∧ t.sync = u.sync ∧ t.copy = u.copy ∧ t.mat = u.mat ∧ t.dist = u.dist ∧ t.fab = u.fab ∧
      t.coll = u.coll ∧ t.ccbs = u.ccbs ∧ t.dev = u.dev ∧ t.free = u.free ∧ t.checks = u.checks :=
  ⟨h.system.1, h.system.2, h.system.3, h.system.4, h.system.5, h.system.6, h.system.7, h.system.8, h.system.9, h.system.10,
    h.system.11, h.checks⟩

theorem settle_iss (pid0 : Nat) (rs : List (SliceRef × SliceRes)) (v : State) :
    (settleAll v pid0 rs).iss = v.iss ∧ (settleAll v pid0 rs).mem = v.mem := by
  induction rs with
  | nil => exact ⟨rfl, rfl⟩
  | cons p rs ih =>
    obtain ⟨r, x⟩ := p
    cases x <;> simpa [settleAll, settleSlice, State.modSlice, State.setSlice] using ih

theorem finishGang_rest (v : State) (g : GangRef) (pid : Nat) (br : Bool) (pc : Quad) (ins : Word) (res : List (SliceRef × SliceRes))
    (ht : noTraps res) : (v.finishGang g pid br pc ins res).iss = v.iss ∧ (v.finishGang g pid br pc ins res).mem = v.mem := by
  have hf := filter_traps ht
  unfold State.finishGang
  simp only [hf]
  exact settle_iss pid res v

/-- An instruction of a gang of one slice completes where its part does, with these and no other additions. -/
theorem issueOne_spec {s : State} {g : GangRef} {r : SliceRef} {i : Instr} {info : Info} (h : Issues s g i info) (hr : g.refs = [r])
    (body : State → List SliceRef → Attempt) (u : State) (res : SliceRes) (hb : body (acting s r (tokenMask info)) [r] = .done u [(r, res)])
    (hres : ∀ f q, res ≠ .trap f q) : ∃ t, issueGang i info body s = .next t ∧ Ends g r s.mem.nextOp res u t := by
  have hg := h.bent
  have hmem : r ∈ g.refs := by rw [hr]; simp
  obtain ⟨rest, hnow⟩ : ∃ rest, s.iss.now = g :: rest := by
    have := h.head
    cases hq : s.iss.now with
    | nil => simp [hq] at this
    | cons a l => simp [hq] at this; exact ⟨l, by rw [this]⟩
  have hpre := precheckAll_go (i := i) (info := info) (s := s.popIssue) (rs := g.refs) (fun r hr => precheck_go h hr)
  rw [hr] at hpre
  have hnt : noTraps [(r, res)] := fun p hp f q => by
    rw [List.mem_singleton] at hp; subst hp; exact hres f q
  let v := u.count g.tid 2
  have hv : Within g u v := Within.of_count g _ _ _ _
  have hvs : ∀ q, v.slice q = u.slice q := fun _ => rfl
  have hvi : v.iss = u.iss ∧ v.mem = u.mem := ⟨rfl, rfl⟩
  obtain ⟨f1, f2⟩ := finishGang_spec hg v s.mem.nextOp info.branch (gangPc s.popIssue g) (instrWord i) [(r, res)]
    (fun p hp => by rw [List.mem_singleton] at hp; subst hp; exact hmem) (by simp) hnt
  obtain ⟨e1, e2⟩ := finishGang_rest v g s.mem.nextOp info.branch (gangPc s.popIssue g) (instrWord i) [(r, res)] hnt
  have hw := hv.trans' f1
  refine ⟨v.finishGang g s.mem.nextOp info.branch (gangPc s.popIssue g) (instrWord i) [(r, res)], ?_, ?_, ?_, hw, ?_, ?_⟩
  · simp only [issueGang, hnow, issueFor, hr, hpre]
    have : acquireAll (setWaits s.popIssue .none [r]) (tokenMask info) [r] = acting s r (tokenMask info) := rfl
    simp only [this, hb, List.append_nil]
    rfl
  · rw [f2 (r, res) (by simp), hvs]
  · intro q hq hne
    exact hw.elsewhere.slices q hq (by rw [hr]; simpa using hne)
  · rw [e1, hvi.1]
  · rw [e2, hvi.2]

/-- The same for an instruction that acts on each slice by itself. -/
theorem issueOneSlice_spec {s : State} {g : GangRef} {r : SliceRef} {i : Instr} {info : Info} (h : Issues s g i info) (hr : g.refs = [r])
    (f : State → SliceRef → SliceStep) (u : State) (res : SliceRes) (hf : f (acting s r (tokenMask info)) r = .ok u res)
    (hres : ∀ f q, res ≠ .trap f q) : ∃ t, issueSlices i info f s = .next t ∧ Ends g r s.mem.nextOp res u t :=
  issueOne_spec h hr (fun s rs => runSlices f s rs) u res (by simp only [runSlices, hf]) hres

/-- From what the slice's part did to what the statement about a slice that goes on says. -/
theorem onward_of {s u t : State} {g : GangRef} {r : SliceRef} {n : Nat} {pc : Quad} (he : Ends g r n (.go pc) u t)
    (hk : Kept (s.slice r) (u.slice r)) (hs : ∀ q, valid q → q ≠ r → u.slice q = s.slice q)
    (hgang : ∀ tid bent, bent < 64 → (tid, bent) ≠ (g.tid, g.bent) → u.gangsOf tid bent = s.gangsOf tid bent) (hi : popped s u)
    (hrest : u.agenda = s.agenda ∧ u.clk = s.clk ∧ u.mat = s.mat ∧ u.dist = s.dist ∧ u.ccbs = s.ccbs ∧ u.free = s.free) :
    Onward g r s t pc := by
  have hw := he.within
  obtain ⟨a1, a2, a3, a4, a5, a6⟩ := hrest
  refine ⟨?_, ?_, fun q hq hne => (he.slices q hq hne).trans (hs q hq hne), fun a b hb hab => (hw.elsewhere.gangs a b hb hab).trans (hgang a b hb hab),
    ?_, ?_, ?_, ?_, ?_, ?_, ?_⟩
  · rw [he.slice]; exact ⟨hk.v, hk.s, hk.preds, hk.fflags, hk.exec, hk.trap, hk.tmode, hk.exited, hk.slot⟩
  · rw [he.slice]; rfl
  · show State.iss _ = _; rw [he.iss]; exact hi
  · rw [hw.system.agenda, a1]
  · rw [hw.system.clk, a2]
  · rw [hw.system.mat, a3]
  · rw [hw.system.dist, a4]
  · rw [hw.system.ccbs, a5]
  · rw [hw.system.free, a6]

/-- A translation in the cluster's TLB answers an access and changes nothing. -/
theorem cached_xlate {s : State} {cl hp ctx va : Nat} {acc : Access} {e : TlbEntry} (h : Cached s cl hp ctx acc va e) :
    s.xlate hp ctx va acc (some cl) = (.ok e (physical e va), s) := by
  have hd : (isWrite acc && !e.dirty) = false := by
    by_cases hw : isWrite acc = true
    · simp [h.dirty hw]
    · simp [hw]
  simp only [State.xlate, h.canonical, h.found, h.allows, hd, physical]
  simp

/-- To set a bit that is set changes nothing. -/
theorem setBits_set {n k : Nat} (h : bitOf n k = true) : setBits n k k 1 = n := by
  simp only [bitOf, beq_iff_eq] at h
  have hle : 2 ^ k ≤ n := by
    by_contra hc
    rw [Nat.div_eq_of_lt (by omega)] at h
    simp at h
  simp only [setBits, bitsOf, Nat.add_sub_cancel_left, pow_one, h]
  omega

/-- A walk that ends at a leaf that it need not mark answers an engine's access and changes nothing. -/
theorem serves_xlate {s : State} {hp ctx va : Nat} {acc : Access} {e : TlbEntry} (h : Serves s hp ctx acc va e) :
    s.xlate hp ctx va acc = (.ok e (physical e va), s) := by
  obtain ⟨level, at_, pte, hw, ha, hd, rfl⟩ := h.leaf
  have hs : (if acc == .probe then pte else setBits (if isWrite acc then setBits pte 6 6 1 else pte) 5 5 1) = pte := by
    cases hq : isWrite acc <;> simp_all [setBits_set]
  have hal := h.allows
  simp only [State.xlate, h.canonical, State.takeWalk, h.free, Bool.not_true, Bool.false_eq_true, if_false]
  simp only [hw, hal, hs, physical, Bool.not_true, Bool.false_eq_true, if_true, if_false]

end Sys2Proof.Machine
end

