-- ==== Sys2Proof/Laws/PerInstr.lean ====
section
/-! SUPPORT. One lemma for each row of the table: the format that an instruction is written in reads back as that
instruction, and its codes lie in the fields that the format gives them; a step of an engine has no format. -/

namespace Sys2Proof.Laws.Encoding

/-- The major code is one of the format's classes, and the function code fits its field (03 R73, R76 to R79, R83). -/
def inFormat : Form → Bool
  | .b3 maj fn _ => decide (maj ∈ [0, 1, 2, 3, 6, 7] ∧ fn < 32)
  | .bi maj fn _ => decide (maj ∈ [4, 5] ∧ fn < 8)
  | .bj cnd _ => decide (cnd < 16)
  | .bs fn _ => decide (fn < 64)
  | .arith maj mn _ _ => decide (maj ∈ [32, 33, 34] ∧ mn < 256)
  | .cross mn _ _ => decide (mn < 256)
  | .branch mn _ _ => decide (mn < 256)
  | .mem maj mn _ _ => decide (maj ∈ [37, 38, 39, 40, 41, 42, 43] ∧ mn < 16)
  | .remote mn _ _ => decide (mn < 16)
  | .command maj mn _ _ => decide (maj ∈ [44, 46, 47] ∧ mn < 256)

/-- The format of an instruction gives the instruction back. -/
def Statement (i : Instr) : Prop := ∀ f, i.form = some f → f.instr? = some i ∧ inFormat f = true

theorem bviAdd (o : B3) : Statement (.bviAdd o) := by rintro _ ⟨⟩; exact ⟨rfl, rfl⟩
theorem bviSub (o : B3) : Statement (.bviSub o) := by rintro _ ⟨⟩; exact ⟨rfl, rfl⟩
theorem bviMul (o : B3) : Statement (.bviMul o) := by rintro _ ⟨⟩; exact ⟨rfl, rfl⟩
theorem bviMin (o : B3) : Statement (.bviMin o) := by rintro _ ⟨⟩; exact ⟨rfl, rfl⟩
theorem bviMax (o : B3) : Statement (.bviMax o) := by rintro _ ⟨⟩; exact ⟨rfl, rfl⟩
theorem bviAnd (o : B3) : Statement (.bviAnd o) := by rintro _ ⟨⟩; exact ⟨rfl, rfl⟩
theorem bviOr (o : B3) : Statement (.bviOr o) := by rintro _ ⟨⟩; exact ⟨rfl, rfl⟩
theorem bviXor (o : B3) : Statement (.bviXor o) := by rintro _ ⟨⟩; exact ⟨rfl, rfl⟩
theorem bviAndn (o : B3) : Statement (.bviAndn o) := by rintro _ ⟨⟩; exact ⟨rfl, rfl⟩
theorem bviShl (o : B3) : Statement (.bviShl o) := by rintro _ ⟨⟩; exact ⟨rfl, rfl⟩
theorem bviShr (o : B3) : Statement (.bviShr o) := by rintro _ ⟨⟩; exact ⟨rfl, rfl⟩
theorem bviSar (o : B3) : Statement (.bviSar o) := by rintro _ ⟨⟩; exact ⟨rfl, rfl⟩
theorem bviMov (o : B3) : Statement (.bviMov o) := by rintro _ ⟨⟩; exact ⟨rfl, rfl⟩
theorem bsiAdd (o : B3) : Statement (.bsiAdd o) := by rintro _ ⟨⟩; exact ⟨rfl, rfl⟩
theorem bsiSub (o : B3) : Statement (.bsiSub o) := by rintro _ ⟨⟩; exact ⟨rfl, rfl⟩
theorem bsiMul (o : B3) : Statement (.bsiMul o) := by rintro _ ⟨⟩; exact ⟨rfl, rfl⟩
theorem bsiMin (o : B3) : Statement (.bsiMin o) := by rintro _ ⟨⟩; exact ⟨rfl, rfl⟩
theorem bsiMax (o : B3) : Statement (.bsiMax o) := by rintro _ ⟨⟩; exact ⟨rfl, rfl⟩
theorem bsiAnd (o : B3) : Statement (.bsiAnd o) := by rintro _ ⟨⟩; exact ⟨rfl, rfl⟩
theorem bsiOr (o : B3) : Statement (.bsiOr o) := by rintro _ ⟨⟩; exact ⟨rfl, rfl⟩
theorem bsiXor (o : B3) : Statement (.bsiXor o) := by rintro _ ⟨⟩; exact ⟨rfl, rfl⟩
theorem bsiAndn (o : B3) : Statement (.bsiAndn o) := by rintro _ ⟨⟩; exact ⟨rfl, rfl⟩
theorem bsiShl (o : B3) : Statement (.bsiShl o) := by rintro _ ⟨⟩; exact ⟨rfl, rfl⟩
theorem bsiShr (o : B3) : Statement (.bsiShr o) := by rintro _ ⟨⟩; exact ⟨rfl, rfl⟩
theorem bsiSar (o : B3) : Statement (.bsiSar o) := by rintro _ ⟨⟩; exact ⟨rfl, rfl⟩
theorem bsiMov (o : B3) : Statement (.bsiMov o) := by rintro _ ⟨⟩; exact ⟨rfl, rfl⟩
theorem bvfFadd (o : B3) : Statement (.bvfFadd o) := by rintro _ ⟨⟩; exact ⟨rfl, rfl⟩
theorem bvfFsub (o : B3) : Statement (.bvfFsub o) := by rintro _ ⟨⟩; exact ⟨rfl, rfl⟩
theorem bvfFmul (o : B3) : Statement (.bvfFmul o) := by rintro _ ⟨⟩; exact ⟨rfl, rfl⟩
theorem bvfFmin (o : B3) : Statement (.bvfFmin o) := by rintro _ ⟨⟩; exact ⟨rfl, rfl⟩
theorem bvfFmax (o : B3) : Statement (.bvfFmax o) := by rintro _ ⟨⟩; exact ⟨rfl, rfl⟩
theorem bvfFfma (o : B3) : Statement (.bvfFfma o) := by rintro _ ⟨⟩; exact ⟨rfl, rfl⟩
theorem bvfFrcp (o : B3) : Statement (.bvfFrcp o) := by rintro _ ⟨⟩; exact ⟨rfl, rfl⟩
theorem bvfFrsq (o : B3) : Statement (.bvfFrsq o) := by rintro _ ⟨⟩; exact ⟨rfl, rfl⟩
theorem bvfFsqrt (o : B3) : Statement (.bvfFsqrt o) := by rintro _ ⟨⟩; exact ⟨rfl, rfl⟩
theorem bvfFex2 (o : B3) : Statement (.bvfFex2 o) := by rintro _ ⟨⟩; exact ⟨rfl, rfl⟩
theorem bvfFlg2 (o : B3) : Statement (.bvfFlg2 o) := by rintro _ ⟨⟩; exact ⟨rfl, rfl⟩
theorem bvhFaddF16x2 (o : B3) : Statement (.bvhFaddF16x2 o) := by rintro _ ⟨⟩; exact ⟨rfl, rfl⟩
theorem bvhFsubF16x2 (o : B3) : Statement (.bvhFsubF16x2 o) := by rintro _ ⟨⟩; exact ⟨rfl, rfl⟩
theorem bvhFmulF16x2 (o : B3) : Statement (.bvhFmulF16x2 o) := by rintro _ ⟨⟩; exact ⟨rfl, rfl⟩
theorem bvhFminF16x2 (o : B3) : Statement (.bvhFminF16x2 o) := by rintro _ ⟨⟩; exact ⟨rfl, rfl⟩
theorem bvhFmaxF16x2 (o : B3) : Statement (.bvhFmaxF16x2 o) := by rintro _ ⟨⟩; exact ⟨rfl, rfl⟩
theorem bvhFfmaF16x2 (o : B3) : Statement (.bvhFfmaF16x2 o) := by rintro _ ⟨⟩; exact ⟨rfl, rfl⟩
theorem bvhFaddBf16x2 (o : B3) : Statement (.bvhFaddBf16x2 o) := by rintro _ ⟨⟩; exact ⟨rfl, rfl⟩
theorem bvhFsubBf16x2 (o : B3) : Statement (.bvhFsubBf16x2 o) := by rintro _ ⟨⟩; exact ⟨rfl, rfl⟩
theorem bvhFmulBf16x2 (o : B3) : Statement (.bvhFmulBf16x2 o) := by rintro _ ⟨⟩; exact ⟨rfl, rfl⟩
theorem bvhFminBf16x2 (o : B3) : Statement (.bvhFminBf16x2 o) := by rintro _ ⟨⟩; exact ⟨rfl, rfl⟩
theorem bvhFmaxBf16x2 (o : B3) : Statement (.bvhFmaxBf16x2 o) := by rintro _ ⟨⟩; exact ⟨rfl, rfl⟩
theorem bvhFfmaBf16x2 (o : B3) : Statement (.bvhFfmaBf16x2 o) := by rintro _ ⟨⟩; exact ⟨rfl, rfl⟩
theorem bviiAdd (o : BI) : Statement (.bviiAdd o) := by rintro _ ⟨⟩; exact ⟨rfl, rfl⟩
theorem bviiAnd (o : BI) : Statement (.bviiAnd o) := by rintro _ ⟨⟩; exact ⟨rfl, rfl⟩
theorem bviiOr (o : BI) : Statement (.bviiOr o) := by rintro _ ⟨⟩; exact ⟨rfl, rfl⟩
theorem bviiXor (o : BI) : Statement (.bviiXor o) := by rintro _ ⟨⟩; exact ⟨rfl, rfl⟩
theorem bviiShl (o : BI) : Statement (.bviiShl o) := by rintro _ ⟨⟩; exact ⟨rfl, rfl⟩
theorem bviiShr (o : BI) : Statement (.bviiShr o) := by rintro _ ⟨⟩; exact ⟨rfl, rfl⟩
theorem bviiSar (o : BI) : Statement (.bviiSar o) := by rintro _ ⟨⟩; exact ⟨rfl, rfl⟩
theorem bviiMov (o : BI) : Statement (.bviiMov o) := by rintro _ ⟨⟩; exact ⟨rfl, rfl⟩
theorem bsiiAdd (o : BI) : Statement (.bsiiAdd o) := by rintro _ ⟨⟩; exact ⟨rfl, rfl⟩
theorem bsiiAnd (o : BI) : Statement (.bsiiAnd o) := by rintro _ ⟨⟩; exact ⟨rfl, rfl⟩
theorem bsiiOr (o : BI) : Statement (.bsiiOr o) := by rintro _ ⟨⟩; exact ⟨rfl, rfl⟩
theorem bsiiXor (o : BI) : Statement (.bsiiXor o) := by rintro _ ⟨⟩; exact ⟨rfl, rfl⟩
theorem bsiiShl (o : BI) : Statement (.bsiiShl o) := by rintro _ ⟨⟩; exact ⟨rfl, rfl⟩
theorem bsiiShr (o : BI) : Statement (.bsiiShr o) := by rintro _ ⟨⟩; exact ⟨rfl, rfl⟩
theorem bsiiSar (o : BI) : Statement (.bsiiSar o) := by rintro _ ⟨⟩; exact ⟨rfl, rfl⟩
theorem bsiiMov (o : BI) : Statement (.bsiiMov o) := by rintro _ ⟨⟩; exact ⟨rfl, rfl⟩
theorem bvcIsetEq (o : B3) : Statement (.bvcIsetEq o) := by rintro _ ⟨⟩; exact ⟨rfl, rfl⟩
theorem bvcIsetNe (o : B3) : Statement (.bvcIsetNe o) := by rintro _ ⟨⟩; exact ⟨rfl, rfl⟩
theorem bvcIsetLt (o : B3) : Statement (.bvcIsetLt o) := by rintro _ ⟨⟩; exact ⟨rfl, rfl⟩
theorem bvcIsetLe (o : B3) : Statement (.bvcIsetLe o) := by rintro _ ⟨⟩; exact ⟨rfl, rfl⟩
theorem bvcIsetGt (o : B3) : Statement (.bvcIsetGt o) := by rintro _ ⟨⟩; exact ⟨rfl, rfl⟩
theorem bvcIsetGe (o : B3) : Statement (.bvcIsetGe o) := by rintro _ ⟨⟩; exact ⟨rfl, rfl⟩
theorem bvcIsetEqZ32 (o : B3) : Statement (.bvcIsetEqZ32 o) := by rintro _ ⟨⟩; exact ⟨rfl, rfl⟩
theorem bvcIsetNeZ32 (o : B3) : Statement (.bvcIsetNeZ32 o) := by rintro _ ⟨⟩; exact ⟨rfl, rfl⟩
theorem bvcIsetLtZ32 (o : B3) : Statement (.bvcIsetLtZ32 o) := by rintro _ ⟨⟩; exact ⟨rfl, rfl⟩
theorem bvcIsetLeZ32 (o : B3) : Statement (.bvcIsetLeZ32 o) := by rintro _ ⟨⟩; exact ⟨rfl, rfl⟩
theorem bvcIsetGtZ32 (o : B3) : Statement (.bvcIsetGtZ32 o) := by rintro _ ⟨⟩; exact ⟨rfl, rfl⟩
theorem bvcIsetGeZ32 (o : B3) : Statement (.bvcIsetGeZ32 o) := by rintro _ ⟨⟩; exact ⟨rfl, rfl⟩
theorem bvcFsetEq (o : B3) : Statement (.bvcFsetEq o) := by rintro _ ⟨⟩; exact ⟨rfl, rfl⟩
theorem bvcFsetNe (o : B3) : Statement (.bvcFsetNe o) := by rintro _ ⟨⟩; exact ⟨rfl, rfl⟩
theorem bvcFsetLt (o : B3) : Statement (.bvcFsetLt o) := by rintro _ ⟨⟩; exact ⟨rfl, rfl⟩
theorem bvcFsetLe (o : B3) : Statement (.bvcFsetLe o) := by rintro _ ⟨⟩; exact ⟨rfl, rfl⟩
theorem bvcFsetGt (o : B3) : Statement (.bvcFsetGt o) := by rintro _ ⟨⟩; exact ⟨rfl, rfl⟩
theorem bvcFsetGe (o : B3) : Statement (.bvcFsetGe o) := by rintro _ ⟨⟩; exact ⟨rfl, rfl⟩
theorem bvcFsetUnord (o : B3) : Statement (.bvcFsetUnord o) := by rintro _ ⟨⟩; exact ⟨rfl, rfl⟩
theorem bscIsetEq (o : B3) : Statement (.bscIsetEq o) := by rintro _ ⟨⟩; exact ⟨rfl, rfl⟩
theorem bscIsetNe (o : B3) : Statement (.bscIsetNe o) := by rintro _ ⟨⟩; exact ⟨rfl, rfl⟩
theorem bscIsetLt (o : B3) : Statement (.bscIsetLt o) := by rintro _ ⟨⟩; exact ⟨rfl, rfl⟩
theorem bscIsetLe (o : B3) : Statement (.bscIsetLe o) := by rintro _ ⟨⟩; exact ⟨rfl, rfl⟩
theorem bscIsetGt (o : B3) : Statement (.bscIsetGt o) := by rintro _ ⟨⟩; exact ⟨rfl, rfl⟩
theorem bscIsetGe (o : B3) : Statement (.bscIsetGe o) := by rintro _ ⟨⟩; exact ⟨rfl, rfl⟩
theorem bscIsetEqZ32 (o : B3) : Statement (.bscIsetEqZ32 o) := by rintro _ ⟨⟩; exact ⟨rfl, rfl⟩
theorem bscIsetNeZ32 (o : B3) : Statement (.bscIsetNeZ32 o) := by rintro _ ⟨⟩; exact ⟨rfl, rfl⟩
theorem bscIsetLtZ32 (o : B3) : Statement (.bscIsetLtZ32 o) := by rintro _ ⟨⟩; exact ⟨rfl, rfl⟩
theorem bscIsetLeZ32 (o : B3) : Statement (.bscIsetLeZ32 o) := by rintro _ ⟨⟩; exact ⟨rfl, rfl⟩
theorem bscIsetGtZ32 (o : B3) : Statement (.bscIsetGtZ32 o) := by rintro _ ⟨⟩; exact ⟨rfl, rfl⟩
theorem bscIsetGeZ32 (o : B3) : Statement (.bscIsetGeZ32 o) := by rintro _ ⟨⟩; exact ⟨rfl, rfl⟩
theorem bbrBra (o : BJ) : Statement (.bbrBra o) := by rintro _ ⟨⟩; exact ⟨rfl, rfl⟩
theorem bbrBrcNz (o : BJ) : Statement (.bbrBrcNz o) := by rintro _ ⟨⟩; exact ⟨rfl, rfl⟩
theorem bbrBrcZ (o : BJ) : Statement (.bbrBrcZ o) := by rintro _ ⟨⟩; exact ⟨rfl, rfl⟩
theorem bbrBrcAny (o : BJ) : Statement (.bbrBrcAny o) := by rintro _ ⟨⟩; exact ⟨rfl, rfl⟩
theorem bbrBrcAll (o : BJ) : Statement (.bbrBrcAll o) := by rintro _ ⟨⟩; exact ⟨rfl, rfl⟩
theorem bbrBrcNone (o : BJ) : Statement (.bbrBrcNone o) := by rintro _ ⟨⟩; exact ⟨rfl, rfl⟩
theorem bbrBrez (o : BJ) : Statement (.bbrBrez o) := by rintro _ ⟨⟩; exact ⟨rfl, rfl⟩
theorem bbrLoop (o : BJ) : Statement (.bbrLoop o) := by rintro _ ⟨⟩; exact ⟨rfl, rfl⟩
theorem bbrCall (o : BJ) : Statement (.bbrCall o) := by rintro _ ⟨⟩; exact ⟨rfl, rfl⟩
theorem bctNop (o : BS) : Statement (.bctNop o) := by rintro _ ⟨⟩; exact ⟨rfl, rfl⟩
theorem bctExit (o : BS) : Statement (.bctExit o) := by rintro _ ⟨⟩; exact ⟨rfl, rfl⟩
theorem bctRet (o : BS) : Statement (.bctRet o) := by rintro _ ⟨⟩; exact ⟨rfl, rfl⟩
theorem bctJmpr (o : BS) : Statement (.bctJmpr o) := by rintro _ ⟨⟩; exact ⟨rfl, rfl⟩
theorem bctCallr (o : BS) : Statement (.bctCallr o) := by rintro _ ⟨⟩; exact ⟨rfl, rfl⟩
theorem bctYield (o : BS) : Statement (.bctYield o) := by rintro _ ⟨⟩; exact ⟨rfl, rfl⟩
theorem bctRegang (o : BS) : Statement (.bctRegang o) := by rintro _ ⟨⟩; exact ⟨rfl, rfl⟩
theorem bctExsave (o : BS) : Statement (.bctExsave o) := by rintro _ ⟨⟩; exact ⟨rfl, rfl⟩
theorem bctExelse (o : BS) : Statement (.bctExelse o) := by rintro _ ⟨⟩; exact ⟨rfl, rfl⟩
theorem bctExrest (o : BS) : Statement (.bctExrest o) := by rintro _ ⟨⟩; exact ⟨rfl, rfl⟩
theorem bctExset (o : BS) : Statement (.bctExset o) := by rintro _ ⟨⟩; exact ⟨rfl, rfl⟩
theorem bctExget (o : BS) : Statement (.bctExget o) := by rintro _ ⟨⟩; exact ⟨rfl, rfl⟩
theorem bctGmask (o : BS) : Statement (.bctGmask o) := by rintro _ ⟨⟩; exact ⟨rfl, rfl⟩
theorem bctGwidth (o : BS) : Statement (.bctGwidth o) := by rintro _ ⟨⟩; exact ⟨rfl, rfl⟩
theorem bctSrd (o : BS) : Statement (.bctSrd o) := by rintro _ ⟨⟩; exact ⟨rfl, rfl⟩
theorem bctWaitk (o : BS) : Statement (.bctWaitk o) := by rintro _ ⟨⟩; exact ⟨rfl, rfl⟩
theorem bctTrap (o : BS) : Statement (.bctTrap o) := by rintro _ ⟨⟩; exact ⟨rfl, rfl⟩
theorem bctRft (o : BS) : Statement (.bctRft o) := by rintro _ ⟨⟩; exact ⟨rfl, rfl⟩
theorem bctBrkpt (o : BS) : Statement (.bctBrkpt o) := by rintro _ ⟨⟩; exact ⟨rfl, rfl⟩
theorem xiAdd (h : Head) (w : Arith) : Statement (.xiAdd h w) := by rintro _ ⟨⟩; exact ⟨rfl, rfl⟩
theorem xiSub (h : Head) (w : Arith) : Statement (.xiSub h w) := by rintro _ ⟨⟩; exact ⟨rfl, rfl⟩
theorem xiAddc (h : Head) (w : Arith) : Statement (.xiAddc h w) := by rintro _ ⟨⟩; exact ⟨rfl, rfl⟩
theorem xiSubb (h : Head) (w : Arith) : Statement (.xiSubb h w) := by rintro _ ⟨⟩; exact ⟨rfl, rfl⟩
theorem xiMul (h : Head) (w : Arith) : Statement (.xiMul h w) := by rintro _ ⟨⟩; exact ⟨rfl, rfl⟩
theorem xiMulh (h : Head) (w : Arith) : Statement (.xiMulh h w) := by rintro _ ⟨⟩; exact ⟨rfl, rfl⟩
theorem xiMad (h : Head) (w : Arith) : Statement (.xiMad h w) := by rintro _ ⟨⟩; exact ⟨rfl, rfl⟩
theorem xiMin (h : Head) (w : Arith) : Statement (.xiMin h w) := by rintro _ ⟨⟩; exact ⟨rfl, rfl⟩
theorem xiMax (h : Head) (w : Arith) : Statement (.xiMax h w) := by rintro _ ⟨⟩; exact ⟨rfl, rfl⟩
theorem xiAbs (h : Head) (w : Arith) : Statement (.xiAbs h w) := by rintro _ ⟨⟩; exact ⟨rfl, rfl⟩
theorem xiNeg (h : Head) (w : Arith) : Statement (.xiNeg h w) := by rintro _ ⟨⟩; exact ⟨rfl, rfl⟩
theorem xiAnd (h : Head) (w : Arith) : Statement (.xiAnd h w) := by rintro _ ⟨⟩; exact ⟨rfl, rfl⟩
theorem xiOr (h : Head) (w : Arith) : Statement (.xiOr h w) := by rintro _ ⟨⟩; exact ⟨rfl, rfl⟩
theorem xiXor (h : Head) (w : Arith) : Statement (.xiXor h w) := by rintro _ ⟨⟩; exact ⟨rfl, rfl⟩
theorem xiAndn (h : Head) (w : Arith) : Statement (.xiAndn h w) := by rintro _ ⟨⟩; exact ⟨rfl, rfl⟩
theorem xiOrn (h : Head) (w : Arith) : Statement (.xiOrn h w) := by rintro _ ⟨⟩; exact ⟨rfl, rfl⟩
theorem xiNot (h : Head) (w : Arith) : Statement (.xiNot h w) := by rintro _ ⟨⟩; exact ⟨rfl, rfl⟩
theorem xiShl (h : Head) (w : Arith) : Statement (.xiShl h w) := by rintro _ ⟨⟩; exact ⟨rfl, rfl⟩
theorem xiShr (h : Head) (w : Arith) : Statement (.xiShr h w) := by rintro _ ⟨⟩; exact ⟨rfl, rfl⟩
theorem xiSar (h : Head) (w : Arith) : Statement (.xiSar h w) := by rintro _ ⟨⟩; exact ⟨rfl, rfl⟩
theorem xiRol (h : Head) (w : Arith) : Statement (.xiRol h w) := by rintro _ ⟨⟩; exact ⟨rfl, rfl⟩
theorem xiShf (h : Head) (w : Arith) : Statement (.xiShf h w) := by rintro _ ⟨⟩; exact ⟨rfl, rfl⟩
theorem xiClz (h : Head) (w : Arith) : Statement (.xiClz h w) := by rintro _ ⟨⟩; exact ⟨rfl, rfl⟩
theorem xiCtz (h : Head) (w : Arith) : Statement (.xiCtz h w) := by rintro _ ⟨⟩; exact ⟨rfl, rfl⟩
theorem xiPopc (h : Head) (w : Arith) : Statement (.xiPopc h w) := by rintro _ ⟨⟩; exact ⟨rfl, rfl⟩
theorem xiBrev (h : Head) (w : Arith) : Statement (.xiBrev h w) := by rintro _ ⟨⟩; exact ⟨rfl, rfl⟩
theorem xiBfx (h : Head) (w : Arith) : Statement (.xiBfx h w) := by rintro _ ⟨⟩; exact ⟨rfl, rfl⟩
theorem xiBfi (h : Head) (w : Arith) : Statement (.xiBfi h w) := by rintro _ ⟨⟩; exact ⟨rfl, rfl⟩
theorem xiBperm (h : Head) (w : Arith) : Statement (.xiBperm h w) := by rintro _ ⟨⟩; exact ⟨rfl, rfl⟩
theorem xiSel (h : Head) (w : Arith) : Statement (.xiSel h w) := by rintro _ ⟨⟩; exact ⟨rfl, rfl⟩
theorem xiMov (h : Head) (w : Arith) : Statement (.xiMov h w) := by rintro _ ⟨⟩; exact ⟨rfl, rfl⟩
theorem xiIset (h : Head) (w : Arith) : Statement (.xiIset h w) := by rintro _ ⟨⟩; exact ⟨rfl, rfl⟩
theorem xiLea (h : Head) (w : Arith) : Statement (.xiLea h w) := by rintro _ ⟨⟩; exact ⟨rfl, rfl⟩
theorem xfFadd (h : Head) (w : Arith) : Statement (.xfFadd h w) := by rintro _ ⟨⟩; exact ⟨rfl, rfl⟩
theorem xfFsub (h : Head) (w : Arith) : Statement (.xfFsub h w) := by rintro _ ⟨⟩; exact ⟨rfl, rfl⟩
theorem xfFmul (h : Head) (w : Arith) : Statement (.xfFmul h w) := by rintro _ ⟨⟩; exact ⟨rfl, rfl⟩
theorem xfFfma (h : Head) (w : Arith) : Statement (.xfFfma h w) := by rintro _ ⟨⟩; exact ⟨rfl, rfl⟩
theorem xfFmin (h : Head) (w : Arith) : Statement (.xfFmin h w) := by rintro _ ⟨⟩; exact ⟨rfl, rfl⟩
theorem xfFmax (h : Head) (w : Arith) : Statement (.xfFmax h w) := by rintro _ ⟨⟩; exact ⟨rfl, rfl⟩
theorem xfFset (h : Head) (w : Arith) : Statement (.xfFset h w) := by rintro _ ⟨⟩; exact ⟨rfl, rfl⟩
theorem xfFclass (h : Head) (w : Arith) : Statement (.xfFclass h w) := by rintro _ ⟨⟩; exact ⟨rfl, rfl⟩
theorem xfFrnd (h : Head) (w : Arith) : Statement (.xfFrnd h w) := by rintro _ ⟨⟩; exact ⟨rfl, rfl⟩
theorem xfFrcp (h : Head) (w : Arith) : Statement (.xfFrcp h w) := by rintro _ ⟨⟩; exact ⟨rfl, rfl⟩
theorem xfFrsq (h : Head) (w : Arith) : Statement (.xfFrsq h w) := by rintro _ ⟨⟩; exact ⟨rfl, rfl⟩
theorem xfFsqrt (h : Head) (w : Arith) : Statement (.xfFsqrt h w) := by rintro _ ⟨⟩; exact ⟨rfl, rfl⟩
theorem xfFex2 (h : Head) (w : Arith) : Statement (.xfFex2 h w) := by rintro _ ⟨⟩; exact ⟨rfl, rfl⟩
theorem xfFlg2 (h : Head) (w : Arith) : Statement (.xfFlg2 h w) := by rintro _ ⟨⟩; exact ⟨rfl, rfl⟩
theorem xfFsin (h : Head) (w : Arith) : Statement (.xfFsin h w) := by rintro _ ⟨⟩; exact ⟨rfl, rfl⟩
theorem xfFcos (h : Head) (w : Arith) : Statement (.xfFcos h w) := by rintro _ ⟨⟩; exact ⟨rfl, rfl⟩
theorem xfFtanh (h : Head) (w : Arith) : Statement (.xfFtanh h w) := by rintro _ ⟨⟩; exact ⟨rfl, rfl⟩
theorem xqCvt (h : Head) (w : Arith) : Statement (.xqCvt h w) := by rintro _ ⟨⟩; exact ⟨rfl, rfl⟩
theorem xqQntz (h : Head) (w : Arith) : Statement (.xqQntz h w) := by rintro _ ⟨⟩; exact ⟨rfl, rfl⟩
theorem xqDqnt (h : Head) (w : Arith) : Statement (.xqDqnt h w) := by rintro _ ⟨⟩; exact ⟨rfl, rfl⟩
theorem xqDot4 (h : Head) (w : Arith) : Statement (.xqDot4 h w) := by rintro _ ⟨⟩; exact ⟨rfl, rfl⟩
theorem xqDot8 (h : Head) (w : Arith) : Statement (.xqDot8 h w) := by rintro _ ⟨⟩; exact ⟨rfl, rfl⟩
theorem xlShfl (h : Head) (w : Cross) : Statement (.xlShfl h w) := by rintro _ ⟨⟩; exact ⟨rfl, rfl⟩
theorem xlVote (h : Head) (w : Cross) : Statement (.xlVote h w) := by rintro _ ⟨⟩; exact ⟨rfl, rfl⟩
theorem xlGred (h : Head) (w : Cross) : Statement (.xlGred h w) := by rintro _ ⟨⟩; exact ⟨rfl, rfl⟩
theorem xlGscan (h : Head) (w : Cross) : Statement (.xlGscan h w) := by rintro _ ⟨⟩; exact ⟨rfl, rfl⟩
theorem xlMatch (h : Head) (w : Cross) : Statement (.xlMatch h w) := by rintro _ ⟨⟩; exact ⟨rfl, rfl⟩
theorem xcBra (h : Head) (w : Branch) : Statement (.xcBra h w) := by rintro _ ⟨⟩; exact ⟨rfl, rfl⟩
theorem xcBrc (h : Head) (w : Branch) : Statement (.xcBrc h w) := by rintro _ ⟨⟩; exact ⟨rfl, rfl⟩
theorem xcCall (h : Head) (w : Branch) : Statement (.xcCall h w) := by rintro _ ⟨⟩; exact ⟨rfl, rfl⟩
theorem xmLd (h : Head) (w : Mem) : Statement (.xmLd h w) := by rintro _ ⟨⟩; exact ⟨rfl, rfl⟩
theorem xmSt (h : Head) (w : Mem) : Statement (.xmSt h w) := by rintro _ ⟨⟩; exact ⟨rfl, rfl⟩
theorem xmLdc (h : Head) (w : Mem) : Statement (.xmLdc h w) := by rintro _ ⟨⟩; exact ⟨rfl, rfl⟩
theorem xmPrf (h : Head) (w : Mem) : Statement (.xmPrf h w) := by rintro _ ⟨⟩; exact ⟨rfl, rfl⟩
theorem xmLdg (h : Head) (w : Mem) : Statement (.xmLdg h w) := by rintro _ ⟨⟩; exact ⟨rfl, rfl⟩
theorem xmSct (h : Head) (w : Mem) : Statement (.xmSct h w) := by rintro _ ⟨⟩; exact ⟨rfl, rfl⟩
theorem xmIcinv (h : Head) (w : Mem) : Statement (.xmIcinv h w) := by rintro _ ⟨⟩; exact ⟨rfl, rfl⟩
theorem xsLds (h : Head) (w : Mem) : Statement (.xsLds h w) := by rintro _ ⟨⟩; exact ⟨rfl, rfl⟩
theorem xsSts (h : Head) (w : Mem) : Statement (.xsSts h w) := by rintro _ ⟨⟩; exact ⟨rfl, rfl⟩
theorem xsAtoms (h : Head) (w : Mem) : Statement (.xsAtoms h w) := by rintro _ ⟨⟩; exact ⟨rfl, rfl⟩
theorem xaAtom (h : Head) (w : Mem) : Statement (.xaAtom h w) := by rintro _ ⟨⟩; exact ⟨rfl, rfl⟩
theorem xoFence (h : Head) (w : Mem) : Statement (.xoFence h w) := by rintro _ ⟨⟩; exact ⟨rfl, rfl⟩
theorem xoSeal (h : Head) (w : Mem) : Statement (.xoSeal h w) := by rintro _ ⟨⟩; exact ⟨rfl, rfl⟩
theorem xoChkr (h : Head) (w : Mem) : Statement (.xoChkr h w) := by rintro _ ⟨⟩; exact ⟨rfl, rfl⟩
theorem xyBari (h : Head) (w : Mem) : Statement (.xyBari h w) := by rintro _ ⟨⟩; exact ⟨rfl, rfl⟩
theorem xyBara (h : Head) (w : Mem) : Statement (.xyBara h w) := by rintro _ ⟨⟩; exact ⟨rfl, rfl⟩
theorem xyBarad (h : Head) (w : Mem) : Statement (.xyBarad h w) := by rintro _ ⟨⟩; exact ⟨rfl, rfl⟩
theorem xyBarw (h : Head) (w : Mem) : Statement (.xyBarw h w) := by rintro _ ⟨⟩; exact ⟨rfl, rfl⟩
theorem xyBart (h : Head) (w : Mem) : Statement (.xyBart h w) := by rintro _ ⟨⟩; exact ⟨rfl, rfl⟩
theorem xyBarx (h : Head) (w : Mem) : Statement (.xyBarx h w) := by rintro _ ⟨⟩; exact ⟨rfl, rfl⟩
theorem xyGbara (h : Head) (w : Mem) : Statement (.xyGbara h w) := by rintro _ ⟨⟩; exact ⟨rfl, rfl⟩
theorem xyGbard (h : Head) (w : Mem) : Statement (.xyGbard h w) := by rintro _ ⟨⟩; exact ⟨rfl, rfl⟩
theorem xyGbarw (h : Head) (w : Mem) : Statement (.xyGbarw h w) := by rintro _ ⟨⟩; exact ⟨rfl, rfl⟩
theorem xuQpsh (h : Head) (w : Mem) : Statement (.xuQpsh h w) := by rintro _ ⟨⟩; exact ⟨rfl, rfl⟩
theorem xuQpop (h : Head) (w : Mem) : Statement (.xuQpop h w) := by rintro _ ⟨⟩; exact ⟨rfl, rfl⟩
theorem xuQst (h : Head) (w : Mem) : Statement (.xuQst h w) := by rintro _ ⟨⟩; exact ⟨rfl, rfl⟩
theorem xuPhsw (h : Head) (w : Mem) : Statement (.xuPhsw h w) := by rintro _ ⟨⟩; exact ⟨rfl, rfl⟩
theorem xuQuiet (h : Head) (w : Mem) : Statement (.xuQuiet h w) := by rintro _ ⟨⟩; exact ⟨rfl, rfl⟩
theorem xpCpy (h : Head) (w : Mem) : Statement (.xpCpy h w) := by rintro _ ⟨⟩; exact ⟨rfl, rfl⟩
theorem xpCpyt (h : Head) (w : Mem) : Statement (.xpCpyt h w) := by rintro _ ⟨⟩; exact ⟨rfl, rfl⟩
theorem xpCpyr (h : Head) (w : Mem) : Statement (.xpCpyr h w) := by rintro _ ⟨⟩; exact ⟨rfl, rfl⟩
theorem xpCpym (h : Head) (w : Mem) : Statement (.xpCpym h w) := by rintro _ ⟨⟩; exact ⟨rfl, rfl⟩
theorem xpTlwt (h : Head) (w : Mem) : Statement (.xpTlwt h w) := by rintro _ ⟨⟩; exact ⟨rfl, rfl⟩
theorem xpTlrd (h : Head) (w : Mem) : Statement (.xpTlrd h w) := by rintro _ ⟨⟩; exact ⟨rfl, rfl⟩
theorem xxMma (h : Head) (w : Command) : Statement (.xxMma h w) := by rintro _ ⟨⟩; exact ⟨rfl, rfl⟩
theorem xxTmma (h : Head) (w : Command) : Statement (.xxTmma h w) := by rintro _ ⟨⟩; exact ⟨rfl, rfl⟩
theorem xxTzro (h : Head) (w : Command) : Statement (.xxTzro h w) := by rintro _ ⟨⟩; exact ⟨rfl, rfl⟩
theorem xxTrd (h : Head) (w : Command) : Statement (.xxTrd h w) := by rintro _ ⟨⟩; exact ⟨rfl, rfl⟩
theorem xxTwr (h : Head) (w : Command) : Statement (.xxTwr h w) := by rintro _ ⟨⟩; exact ⟨rfl, rfl⟩
theorem xxTsto (h : Head) (w : Command) : Statement (.xxTsto h w) := by rintro _ ⟨⟩; exact ⟨rfl, rfl⟩
theorem xrRld (h : Head) (w : Remote) : Statement (.xrRld h w) := by rintro _ ⟨⟩; exact ⟨rfl, rfl⟩
theorem xrRst (h : Head) (w : Remote) : Statement (.xrRst h w) := by rintro _ ⟨⟩; exact ⟨rfl, rfl⟩
theorem xrRatm (h : Head) (w : Remote) : Statement (.xrRatm h w) := by rintro _ ⟨⟩; exact ⟨rfl, rfl⟩
theorem xrRfnc (h : Head) (w : Remote) : Statement (.xrRfnc h w) := by rintro _ ⟨⟩; exact ⟨rfl, rfl⟩
theorem xvDvt (h : Head) (w : Command) : Statement (.xvDvt h w) := by rintro _ ⟨⟩; exact ⟨rfl, rfl⟩
theorem xvColl (h : Head) (w : Command) : Statement (.xvColl h w) := by rintro _ ⟨⟩; exact ⟨rfl, rfl⟩
theorem xvNodego (h : Head) (w : Command) : Statement (.xvNodego h w) := by rintro _ ⟨⟩; exact ⟨rfl, rfl⟩
theorem xzCsrr (h : Head) (w : Command) : Statement (.xzCsrr h w) := by rintro _ ⟨⟩; exact ⟨rfl, rfl⟩
theorem xzCsrw (h : Head) (w : Command) : Statement (.xzCsrw h w) := by rintro _ ⟨⟩; exact ⟨rfl, rfl⟩
theorem xzGett (h : Head) (w : Command) : Statement (.xzGett h w) := by rintro _ ⟨⟩; exact ⟨rfl, rfl⟩
theorem xzPmrd (h : Head) (w : Command) : Statement (.xzPmrd h w) := by rintro _ ⟨⟩; exact ⟨rfl, rfl⟩
theorem evIssueClock (cl pt : Nat) : Statement (.evIssueClock cl pt) := by rintro _ ⟨⟩
theorem evRegangRelease (tid bent : Nat) : Statement (.evRegangRelease tid bent) := by rintro _ ⟨⟩
theorem evYieldHoldExpiry (r : SliceRef) : Statement (.evYieldHoldExpiry r) := by rintro _ ⟨⟩
theorem evSlotMigrationStart (r : SliceRef) (slot : Nat) : Statement (.evSlotMigrationStart r slot) := by rintro _ ⟨⟩
theorem evSlotMigrationEnd (r : SliceRef) : Statement (.evSlotMigrationEnd r) := by rintro _ ⟨⟩
theorem evClassLResultWrite (r : SliceRef) (pid : Nat) : Statement (.evClassLResultWrite r pid) := by rintro _ ⟨⟩
theorem evTokenWaitRelease (r : SliceRef) : Statement (.evTokenWaitRelease r) := by rintro _ ⟨⟩
theorem evTrapEntry (r : SliceRef) : Statement (.evTrapEntry r) := by rintro _ ⟨⟩
theorem evSliceRetire (r : SliceRef) : Statement (.evSliceRetire r) := by rintro _ ⟨⟩
theorem evTeamStart (launch : Nat) : Statement (.evTeamStart launch) := by rintro _ ⟨⟩
theorem evTeamEnd (tid : Nat) : Statement (.evTeamEnd tid) := by rintro _ ⟨⟩
theorem evTableWalk (hp ctx : Nat) (va : Quad) (w : WalkReq) : Statement (.evTableWalk hp ctx va w) := by rintro _ ⟨⟩
theorem evFaultRecordPost (fid : Nat) : Statement (.evFaultRecordPost fid) := by rintro _ ⟨⟩
theorem evRetryRetry (hp ctx tag : Nat) : Statement (.evRetryRetry hp ctx tag) := by rintro _ ⟨⟩
theorem evRetryFail (hp ctx tag : Nat) : Statement (.evRetryFail hp ctx tag) := by rintro _ ⟨⟩
theorem evL1WriteBufferDrain (cl : Nat) : Statement (.evL1WriteBufferDrain cl) := by rintro _ ⟨⟩
theorem evGatherSubpacket (op die : Nat) : Statement (.evGatherSubpacket op die) := by rintro _ ⟨⟩
theorem evGatherExpanderRead (op stack : Nat) : Statement (.evGatherExpanderRead op stack) := by rintro _ ⟨⟩
theorem evScatterElement (op k : Nat) : Statement (.evScatterElement op k) := by rintro _ ⟨⟩
theorem evL2Atomic (op : Nat) : Statement (.evL2Atomic op) := by rintro _ ⟨⟩
theorem evMsaAccess (op : Nat) : Statement (.evMsaAccess op) := by rintro _ ⟨⟩
theorem evSillWayToVault (die way : Nat) : Statement (.evSillWayToVault die way) := by rintro _ ⟨⟩
theorem evSillWayToCache (die way : Nat) : Statement (.evSillWayToCache die way) := by rintro _ ⟨⟩
theorem evSillWayConvertDone (die way : Nat) : Statement (.evSillWayConvertDone die way) := by rintro _ ⟨⟩
theorem evMigratePageLock (mid : Nat) : Statement (.evMigratePageLock mid) := by rintro _ ⟨⟩
theorem evMigratePageCopy (mid : Nat) : Statement (.evMigratePageCopy mid) := by rintro _ ⟨⟩
theorem evMigratePageSwitch (mid : Nat) : Statement (.evMigratePageSwitch mid) := by rintro _ ⟨⟩
theorem evMigratePageShoot (mid : Nat) : Statement (.evMigratePageShoot mid) := by rintro _ ⟨⟩
theorem evMigratePageRelease (mid : Nat) : Statement (.evMigratePageRelease mid) := by rintro _ ⟨⟩
theorem evMigratePageDrainDone (mid : Nat) : Statement (.evMigratePageDrainDone mid) := by rintro _ ⟨⟩
theorem evMigratePageFree (mid : Nat) : Statement (.evMigratePageFree mid) := by rintro _ ⟨⟩
theorem evMigrateHeldAccess (mid : Nat) (a : HeldAccess) : Statement (.evMigrateHeldAccess mid a) := by rintro _ ⟨⟩
theorem evReleaseArrival (op : Nat) : Statement (.evReleaseArrival op) := by rintro _ ⟨⟩
theorem evSquareSeal (op : Nat) : Statement (.evSquareSeal op) := by rintro _ ⟨⟩
theorem evPerformAck (op : Nat) (a : PerformAck) : Statement (.evPerformAck op a) := by rintro _ ⟨⟩
theorem evScribeTransferCheck (t : Transfer) : Statement (.evScribeTransferCheck t) := by rintro _ ⟨⟩
theorem evScribeWindowClose (home peer : ScribeId) : Statement (.evScribeWindowClose home peer) := by rintro _ ⟨⟩
theorem evScribeRecordExchange (home peer : ScribeId) : Statement (.evScribeRecordExchange home peer) := by rintro _ ⟨⟩
theorem evForcedPublish (cl : Nat) : Statement (.evForcedPublish cl) := by rintro _ ⟨⟩
theorem evSeqGapTimeout (src dst : Nat) : Statement (.evSeqGapTimeout src dst) := by rintro _ ⟨⟩
theorem evFenceScComplete (op : Nat) : Statement (.evFenceScComplete op) := by rintro _ ⟨⟩
theorem evSealComplete (op : Nat) : Statement (.evSealComplete op) := by rintro _ ⟨⟩
theorem evChkrComplete (op : Nat) : Statement (.evChkrComplete op) := by rintro _ ⟨⟩
theorem evIcinvComplete (op : Nat) : Statement (.evIcinvComplete op) := by rintro _ ⟨⟩
theorem evChkmodeWrite (hp : Nat) (v : Quad) : Statement (.evChkmodeWrite hp v) := by rintro _ ⟨⟩
theorem evOrdinjWrite (hp : Nat) (v : Quad) : Statement (.evOrdinjWrite hp v) := by rintro _ ⟨⟩
theorem evShootdownGo (hp : Nat) (v : Quad) : Statement (.evShootdownGo hp v) := by rintro _ ⟨⟩
theorem evShootdownDone (hp : Nat) : Statement (.evShootdownDone hp) := by rintro _ ⟨⟩
theorem evBarrierArrivalCount (op : Nat) : Statement (.evBarrierArrivalCount op) := by rintro _ ⟨⟩
theorem evBarrierWake (r : SliceRef) : Statement (.evBarrierWake r) := by rintro _ ⟨⟩
theorem evHalfdone (tid half off : Nat) : Statement (.evHalfdone tid half off) := by rintro _ ⟨⟩
theorem evGroupTableLoad (launch : Nat) : Statement (.evGroupTableLoad launch) := by rintro _ ⟨⟩
theorem evGroupArrival (op : Nat) : Statement (.evGroupArrival op) := by rintro _ ⟨⟩
theorem evQueuePushArrival (op : Nat) : Statement (.evQueuePushArrival op) := by rintro _ ⟨⟩
theorem evQueuePopArrival (op : Nat) : Statement (.evQueuePopArrival op) := by rintro _ ⟨⟩
theorem evQueueStatArrival (op : Nat) : Statement (.evQueueStatArrival op) := by rintro _ ⟨⟩
theorem evSpillMove (q : Nat) : Statement (.evSpillMove q) := by rintro _ ⟨⟩
theorem evQcrWrite (q off : Nat) (v : Quad) : Statement (.evQcrWrite q off v) := by rintro _ ⟨⟩
theorem evQuietReturn (r : SliceRef) : Statement (.evQuietReturn r) := by rintro _ ⟨⟩
theorem evRedirectedArrival (op : Nat) : Statement (.evRedirectedArrival op) := by rintro _ ⟨⟩
theorem evQueueSlotRead (hp ctx q : Nat) : Statement (.evQueueSlotRead hp ctx q) := by rintro _ ⟨⟩
theorem evPoolDispatch (hp : Nat) : Statement (.evPoolDispatch hp) := by rintro _ ⟨⟩
theorem evEntryReady (eid : Nat) : Statement (.evEntryReady eid) := by rintro _ ⟨⟩
theorem evLevelAging (eid : Nat) : Statement (.evLevelAging eid) := by rintro _ ⟨⟩
theorem evPrefetchWaitEnd (eid : Nat) : Statement (.evPrefetchWaitEnd eid) := by rintro _ ⟨⟩
theorem evNopPacket (eid : Nat) : Statement (.evNopPacket eid) := by rintro _ ⟨⟩
theorem evKernelPacket (eid : Nat) : Statement (.evKernelPacket eid) := by rintro _ ⟨⟩
theorem evCopyPacket (eid : Nat) : Statement (.evCopyPacket eid) := by rintro _ ⟨⟩
theorem evScrubPacket (eid : Nat) : Statement (.evScrubPacket eid) := by rintro _ ⟨⟩
theorem evMigratePacket (eid : Nat) : Statement (.evMigratePacket eid) := by rintro _ ⟨⟩
theorem evGraphPacket (eid : Nat) : Statement (.evGraphPacket eid) := by rintro _ ⟨⟩
theorem evSignalPacket (eid : Nat) : Statement (.evSignalPacket eid) := by rintro _ ⟨⟩
theorem evWaitPacket (eid : Nat) : Statement (.evWaitPacket eid) := by rintro _ ⟨⟩
theorem evWaitSatisfied (eid : Nat) : Statement (.evWaitSatisfied eid) := by rintro _ ⟨⟩
theorem evWaitTimeout (eid : Nat) : Statement (.evWaitTimeout eid) := by rintro _ ⟨⟩
theorem evDovetailPacket (eid : Nat) : Statement (.evDovetailPacket eid) := by rintro _ ⟨⟩
theorem evCollectivePacket (eid : Nat) : Statement (.evCollectivePacket eid) := by rintro _ ⟨⟩
theorem evNodeComplete (gid node : Nat) : Statement (.evNodeComplete gid node) := by rintro _ ⟨⟩
theorem evNodegoArrival (op : Nat) : Statement (.evNodegoArrival op) := by rintro _ ⟨⟩
theorem evLaunchComplete (launch : Nat) : Statement (.evLaunchComplete launch) := by rintro _ ⟨⟩
theorem evCopyChunkSend (engine : Nat) : Statement (.evCopyChunkSend engine) := by rintro _ ⟨⟩
theorem evCopyComplete (cid : Nat) : Statement (.evCopyComplete cid) := by rintro _ ⟨⟩
theorem evCopyAbandon (cid : Nat) : Statement (.evCopyAbandon cid) := by rintro _ ⟨⟩
theorem evCopyReplay (cid : Nat) : Statement (.evCopyReplay cid) := by rintro _ ⟨⟩
theorem evScrubSector (sid : Nat) (found : ScrubFinding) : Statement (.evScrubSector sid found) := by rintro _ ⟨⟩
theorem evTlwtReturn (r : SliceRef) : Statement (.evTlwtReturn r) := by rintro _ ⟨⟩
theorem evFollowonEnter (cid : Nat) : Statement (.evFollowonEnter cid) := by rintro _ ⟨⟩
theorem evTileRotation (cl : Nat) : Statement (.evTileRotation cl) := by rintro _ ⟨⟩
theorem evTmmaSlabLoad (tid : Nat) : Statement (.evTmmaSlabLoad tid) := by rintro _ ⟨⟩
theorem evTmmaStream (tid : Nat) : Statement (.evTmmaStream tid) := by rintro _ ⟨⟩
theorem evTmmaWriteback (tid : Nat) : Statement (.evTmmaWriteback tid) := by rintro _ ⟨⟩
theorem evTmmaDone (tid : Nat) : Statement (.evTmmaDone tid) := by rintro _ ⟨⟩
theorem evTstoComplete (id : Nat) : Statement (.evTstoComplete id) := by rintro _ ⟨⟩
theorem evCtxEnWrite (hp ctx : Nat) (v : Quad) : Statement (.evCtxEnWrite hp ctx v) := by rintro _ ⟨⟩
theorem evCtxSave (hp ctx : Nat) : Statement (.evCtxSave hp ctx) := by rintro _ ⟨⟩
theorem evCtxRestore (hp ctx : Nat) : Statement (.evCtxRestore hp ctx) := by rintro _ ⟨⟩
theorem evCtxKill (hp ctx : Nat) : Statement (.evCtxKill hp ctx) := by rintro _ ⟨⟩
theorem evFqrdWrite (hp ctx : Nat) (v : Word) : Statement (.evFqrdWrite hp ctx v) := by rintro _ ⟨⟩
theorem evSaveDrainDone (hp ctx : Nat) : Statement (.evSaveDrainDone hp ctx) := by rintro _ ⟨⟩
theorem evForcedSave (hp ctx : Nat) : Statement (.evForcedSave hp ctx) := by rintro _ ⟨⟩
theorem evSaveComplete (hp ctx : Nat) : Statement (.evSaveComplete hp ctx) := by rintro _ ⟨⟩
theorem evTeamKill (tid cause : Nat) : Statement (.evTeamKill tid cause) := by rintro _ ⟨⟩
theorem evBandwidthChange (die port : Nat) : Statement (.evBandwidthChange die port) := by rintro _ ⟨⟩
theorem evFabricEnWrite (hp : Nat) (v : Quad) : Statement (.evFabricEnWrite hp v) := by rintro _ ⟨⟩
theorem evRtload (hp : Nat) : Statement (.evRtload hp) := by rintro _ ⟨⟩
theorem evFabricInvalidate (hp ctx : Nat) (v : Quad) : Statement (.evFabricInvalidate hp ctx v) := by rintro _ ⟨⟩
theorem evRdreq (m : Msg) : Statement (.evRdreq m) := by rintro _ ⟨⟩
theorem evWrreq (m : Msg) : Statement (.evWrreq m) := by rintro _ ⟨⟩
theorem evAtreq (m : Msg) : Statement (.evAtreq m) := by rintro _ ⟨⟩
theorem evFnreq (m : Msg) : Statement (.evFnreq m) := by rintro _ ⟨⟩
theorem evSkip (m : Msg) : Statement (.evSkip m) := by rintro _ ⟨⟩
theorem evRdrsp (m : Msg) : Statement (.evRdrsp m) := by rintro _ ⟨⟩
theorem evWrack (m : Msg) : Statement (.evWrack m) := by rintro _ ⟨⟩
theorem evAtrsp (m : Msg) : Statement (.evAtrsp m) := by rintro _ ⟨⟩
theorem evFnack (m : Msg) : Statement (.evFnack m) := by rintro _ ⟨⟩
theorem evErrrsp (m : Msg) : Statement (.evErrrsp m) := by rintro _ ⟨⟩
theorem evFlitReceive (port : Nat) (f : Flit) : Statement (.evFlitReceive port f) := by rintro _ ⟨⟩
theorem evNakReceive (port fack : Nat) : Statement (.evNakReceive port fack) := by rintro _ ⟨⟩
theorem evNakRepeat (port : Nat) : Statement (.evNakRepeat port) := by rintro _ ⟨⟩
theorem evNakHoldExpiry (port : Nat) : Statement (.evNakHoldExpiry port) := by rintro _ ⟨⟩
theorem evFlitFlush (port : Nat) : Statement (.evFlitFlush port) := by rintro _ ⟨⟩
theorem evNullFlit (port : Nat) : Statement (.evNullFlit port) := by rintro _ ⟨⟩
theorem evLossOfLight (port wave : Nat) (cause : LinkCause) : Statement (.evLossOfLight port wave cause) := by rintro _ ⟨⟩
theorem evActmapReceive (port fack : Nat) (map : Half) : Statement (.evActmapReceive port fack map) := by rintro _ ⟨⟩
theorem evWavelengthRecovery (port wave : Nat) : Statement (.evWavelengthRecovery port wave) := by rintro _ ⟨⟩
theorem evPortDown (port : Nat) (cause : LinkCause) : Statement (.evPortDown port cause) := by rintro _ ⟨⟩
theorem evPortUp (port : Nat) : Statement (.evPortUp port) := by rintro _ ⟨⟩
theorem evRequestTableAdmit (die : Nat) : Statement (.evRequestTableAdmit die) := by rintro _ ⟨⟩
theorem evRequestTimeout (die tag : Nat) : Statement (.evRequestTimeout die tag) := by rintro _ ⟨⟩
theorem evResponseCacheExpiry (die speer sinc tag : Nat) : Statement (.evResponseCacheExpiry die speer sinc tag) := by rintro _ ⟨⟩
theorem evSendWindowHole (port fseq : Nat) : Statement (.evSendWindowHole port fseq) := by rintro _ ⟨⟩
theorem evLimopSeqGapTimeout (hp speer sinc : Nat) : Statement (.evLimopSeqGapTimeout hp speer sinc) := by rintro _ ⟨⟩
theorem evTxenWrite (port : Nat) (v : Quad) : Statement (.evTxenWrite port v) := by rintro _ ⟨⟩
theorem evCollectivePost (oid : Nat) : Statement (.evCollectivePost oid) := by rintro _ ⟨⟩
theorem evCset (m : Msg) : Statement (.evCset m) := by rintro _ ⟨⟩
theorem evCdat (m : Msg) : Statement (.evCdat m) := by rintro _ ⟨⟩
theorem evCctlDone (m : Msg) : Statement (.evCctlDone m) := by rintro _ ⟨⟩
theorem evCctlAbort (m : Msg) : Statement (.evCctlAbort m) := by rintro _ ⟨⟩
theorem evCctlCommit (m : Msg) : Statement (.evCctlCommit m) := by rintro _ ⟨⟩
theorem evCctlNosw (m : Msg) : Statement (.evCctlNosw m) := by rintro _ ⟨⟩
theorem evCollectiveComplete (oid : Nat) : Statement (.evCollectiveComplete oid) := by rintro _ ⟨⟩
theorem evCollectiveTimeout (oid : Nat) : Statement (.evCollectiveTimeout oid) := by rintro _ ⟨⟩
theorem evHeldMessageDiscard (half : Nat) : Statement (.evHeldMessageDiscard half) := by rintro _ ⟨⟩
theorem evPstepWrite (v : Quad) : Statement (.evPstepWrite v) := by rintro _ ⟨⟩
theorem evStepRelockDone (die : Nat) : Statement (.evStepRelockDone die) := by rintro _ ⟨⟩
theorem evThermalTrip (die : Nat) (temp : Half) : Statement (.evThermalTrip die temp) := by rintro _ ⟨⟩
theorem evHostReset : Statement (.evHostReset) := by rintro _ ⟨⟩
theorem evPowerOnReset : Statement (.evPowerOnReset) := by rintro _ ⟨⟩
theorem evPartcfgWrite (v : Quad) : Statement (.evPartcfgWrite v) := by rintro _ ⟨⟩
theorem evPlanChangeDone : Statement (.evPlanChangeDone) := by rintro _ ⟨⟩
theorem evKeyGenerate (v : Quad) : Statement (.evKeyGenerate v) := by rintro _ ⟨⟩
theorem evKeyImport (v : Quad) : Statement (.evKeyImport v) := by rintro _ ⟨⟩
theorem evKeyDestroy (v : Quad) : Statement (.evKeyDestroy v) := by rintro _ ⟨⟩
theorem evKeyClear (v : Quad) : Statement (.evKeyClear v) := by rintro _ ⟨⟩
theorem evKeyDestroyDone : Statement (.evKeyDestroyDone) := by rintro _ ⟨⟩
theorem evLockInterface (port vf : Nat) (slots : List Nat) : Statement (.evLockInterface port vf slots) := by rintro _ ⟨⟩
theorem evStopInterface (port vf : Nat) : Statement (.evStopInterface port vf) := by rintro _ ⟨⟩
theorem evIdeIntegrityFailure (port vf : Nat) : Statement (.evIdeIntegrityFailure port vf) := by rintro _ ⟨⟩
theorem evFunctionLevelReset (port vf : Nat) : Statement (.evFunctionLevelReset port vf) := by rintro _ ⟨⟩
theorem evGlomelBoot (images : List BootImage) : Statement (.evGlomelBoot images) := by rintro _ ⟨⟩
theorem evGlomelFailover : Statement (.evGlomelFailover) := by rintro _ ⟨⟩
theorem evSpdmRequest : Statement (.evSpdmRequest) := by rintro _ ⟨⟩
theorem evSecurityAlarm (a : Alarm) : Statement (.evSecurityAlarm a) := by rintro _ ⟨⟩
theorem evGlpolWrite (v : Quad) : Statement (.evGlpolWrite v) := by rintro _ ⟨⟩
theorem evSrpolWrite (chan : Nat) (v : Quad) : Statement (.evSrpolWrite chan v) := by rintro _ ⟨⟩
theorem evSelfRefreshEntry (chan : Nat) : Statement (.evSelfRefreshEntry chan) := by rintro _ ⟨⟩
theorem evSelfRefreshExit (chan : Nat) : Statement (.evSelfRefreshExit chan) := by rintro _ ⟨⟩
theorem evResyncGo (v : Quad) : Statement (.evResyncGo v) := by rintro _ ⟨⟩
theorem evResyncDone : Statement (.evResyncDone) := by rintro _ ⟨⟩
theorem evRegisterWrite (pa : Nat) (v : Quad) : Statement (.evRegisterWrite pa v) := by rintro _ ⟨⟩
theorem evHostPortWrite (a : HostWrite) : Statement (.evHostPortWrite a) := by rintro _ ⟨⟩
theorem evStartInterface (port vf : Nat) : Statement (.evStartInterface port vf) := by rintro _ ⟨⟩

end Sys2Proof.Laws.Encoding
end

