-- ==== Sys2Proof/Tests/Slice0.lean ====
section
/-! SUPPORT. The model's own tests: terms that the encoding rules refuse, words written out from the encodings, and for each
statement with hypotheses a state and operands that meet them. -/

namespace Sys2Proof.Tests

open Sys2Proof.Machine Sys2Proof.Safety

-- One theorem after another: evaluations side by side would need a stack each.
set_option Elab.async false

/-! ## Well-formedness (03 R70 to R97) -/

def refusesAll (l : List Instr) : Bool := l.all fun i => !i.wellFormed
def admitsAll (l : List Instr) : Bool := l.all fun i => i.wellFormed

/-- A base form, a head and the word-2 layouts with everything zero but what a test names. -/
def b3 (d a b : BitVec 6) (bk : Bool) (lit : Option Quad) : B3 := { d := d, a := a, b := b, bk := bk, lit := lit }
def bs (d a b : BitVec 6) (lit : Option Quad) : BS := { d := d, a := a, b := b, lit := lit }
def cross (ty : Ty) (ls : BitVec 2) (sub : BitVec 4) (ps : BitVec 3) : Cross :=
  { ty := ty, rnd := .rn, ls := ls, sub := sub, fl := false, bi := false, ps := ps, imm := 0 }
def remote (min4 : BitVec 4) (off : BitVec 20) (ord : Ord) (ty : Ty) : Remote :=
  { min4 := min4, se := false, sp := 0, off := off, scope := .sys, ord := ord, ty := ty }
def command (ta tb tc : Ty) (flg : BitVec 4) (imm : BitVec 16) : Command := { ta := ta, tb := tb, tc := tc, flg := flg, imm := imm }

/-- R75, R76, R97, R149, R72: fields that a literal replaces, the A of MOV, the B of a one-operand form, the D of BVC, the word 0. -/
theorem test_base_refused : refusesAll [
    .bviAdd (b3 0 0 0 false none), .bviAdd (b3 3 4 9 false (some 5)), .bviAdd (b3 3 4 0 true (some 5)), .bviMov (b3 3 1 9 false none),
    .bsiMov (b3 3 1 9 true none), .bvfFrcp (b3 3 4 1 false none), .bvfFsqrt (b3 3 4 0 true none), .bvfFlg2 (b3 3 4 0 false (some 1)),
    .bviiAdd { d := 1, a := 2, imm := 1, lit := some 7 }, .bviiMov { d := 1, a := 2, imm := 1, lit := none },
    .bsiiMov { d := 1, a := 1, imm := 0, lit := some 7 }, .bvcIsetEq (b3 8 1 2 false none), .bvcFsetUnord (b3 63 1 2 false none),
    .bvhFaddF16x2 (b3 1 2 3 false (some 0)), .bscIsetLt (b3 1 2 3 false (some 0))] = true := by decide +kernel

/-- R75, R76, R77: branch targets, condition registers and the fields of BCT. -/
theorem test_base_control_refused : refusesAll [
    .bbrBra { s := 1, off := 4, lit := none }, .bbrBra { s := 0, off := 4, lit := some 8 }, .bbrBra { s := 0, off := 0, lit := some 6 },
    .bbrBrcAny { s := 8, off := 4, lit := none }, .bbrBrcNz { s := 3, off := 0, lit := some 2 }, .bbrBrez { s := 2, off := 4, lit := none },
    .bctNop (bs 0 0 1 none), .bctNop (bs 0 0 0 (some 0)), .bctExit (bs 1 0 0 none), .bctJmpr (bs 0 3 0 none), .bctJmpr (bs 0 2 1 none),
    .bctExsave (bs 3 0 8 none), .bctExsave (bs 3 1 1 none), .bctExelse (bs 1 3 0 none), .bctExget (bs 1 1 0 none),
    .bctWaitk (bs 0 4 0 none), .bctWaitk (bs 1 0 0 none), .bctTrap (bs 0 1 5 none), .bctRft (bs 0 0 1 none),
    .bctSrd (bs 3 0 0x15 none), .bctSrd (bs 3 0 5 (some 5)), .bctSrd (bs 3 0 0 (some 0x1003)), .bctSrd (bs 3 0 0 (some 0xF005))] = true := by decide +kernel

/-- R78, R92, R152: the guard, LA, the type, RND, FTZ and SAT, unread operands, register groups, the kinds of D and its sources,
codes, and the carry register. -/
theorem test_integer_refused : refusesAll [
    .xiAdd { plainHead 4 4 6 0 with gn := true } (plainArith .i32), .xiAdd { plainHead 4 4 6 0 with la := 1 } (plainArith .i32),
    .xiAdd (plainHead 4 4 6 0) (plainArith .f32), .xiAdd (plainHead 4 4 6 0) { plainArith .i32 with rnd := .rz },
    .xiAdd (plainHead 4 4 6 0) { plainArith .i32 with ftz := true }, .xiMulh (plainHead 4 4 6 0) { plainArith .i32 with sat := true },
    .xiAdd (plainHead 4 4 6 1) (plainArith .i32), .xiAdd (plainHead 4 4 6 0) { plainArith .i32 with kc := true },
    .xiAdd (plainHead 4 4 6 0) { plainArith .i32 with imm := 1 }, .xiAdd (plainHead 4 4 6 0) { plainArith .i32 with bi := true },
    .xiAdd { plainHead 4 4 0 0 with lit := some 3 } { plainArith .i32 with bi := true, imm := 1 }, .xiAdd (plainHead 5 4 6 0) (plainArith .i64),
    .xiAdd (plainHead 4 5 6 0) (plainArith .i64), .xiAdd (plainHead 4 64 6 0) { plainArith .i32 with ka := true },
    .xiAdd (plainHead 64 4 6 0) { plainArith .i32 with ka := true, kb := true, imm := 0x80000 },
    .xiAdd (plainHead 4 4 6 0) { plainArith .i32 with imm := 0x80000 }, .xiNeg (plainHead 4 4 6 0) (plainArith .i32),
    .xiNeg (plainHead 4 4 0 0) { plainArith .i32 with bi := true }, .xiAbs (plainHead 4 4 0 0) (plainArith .z32),
    .xiMov (plainHead 4 1 6 0) (plainArith .i32), .xiMov (plainHead 4 0 0 0) { plainArith .b128 with bi := true }, .xiMov (plainHead 4 0 6 0) (plainArith .b128),
    .xiAddc (plainHead 4 4 6 4) (plainArith .i32), .xiAddc (plainHead 4 4 6 5) (plainArith .i64), .xiAddc (plainHead 4 4 6 8) { plainArith .i32 with kc := true },
    .xiSel (plainHead 4 4 6 8) (plainArith .i32), .xiSel (plainHead 4 4 6 1) { plainArith .i32 with ka := true, kb := true, imm := 0x80000 },
    .xiIset (plainHead 8 4 6 0) (plainArith .i32), .xiIset (plainHead 3 4 6 6) (plainArith .i32), .xiLea (plainHead 4 4 6 8) (plainArith .i32),
    .xiLea (plainHead 5 4 6 0) (plainArith .i32), .xiLea (plainHead 4 4 6 0) (plainArith .z64), .xiBperm (plainHead 4 4 6 8) (plainArith .i64)] = true := by
  decide +kernel

/-- R157, R161 to R165: the floating and conversion forms. -/
theorem test_float_refused : refusesAll [
    .xfFadd (plainHead 4 4 6 0) (plainArith .i32), .xfFmin (plainHead 4 4 6 0) { plainArith .f32 with rnd := .rz },
    .xfFmin (plainHead 4 4 6 0) { plainArith .f32 with sat := true }, .xfFclass (plainHead 4 4 0 0) { plainArith .f32 with ftz := true },
    .xfFset (plainHead 4 4 6 8) (plainArith .f32), .xfFrcp (plainHead 4 4 0 0) (plainArith .f16), .xfFex2 (plainHead 4 4 0 0) (plainArith .f64),
    .xfFfma (plainHead 4 4 6 3) (plainArith .f64), .xfFrnd (plainHead 4 4 0 0) { plainArith .f32 with sat := true },
    .xfFex2 { plainHead 4 4 0 0 with la := 2 } (plainArith .f32), .xqCvt (plainHead 4 4 0 15) (plainArith .f32), .xqCvt (plainHead 4 4 0 0) (plainArith .b128),
    .xqCvt (plainHead 4 5 0 11) (plainArith .f32), .xqQntz (plainHead 4 8 0 10) { plainArith .f32 with bi := true },
    .xqQntz (plainHead 4 4 0 10) { plainArith .e2m1 with bi := true }, .xqQntz (plainHead 4 8 0 11) { plainArith .e2m1 with bi := true },
    .xqQntz (plainHead 4 8 3 10) (plainArith .e2m1), .xqDqnt (plainHead 8 2 0 0) (plainArith .f32), .xqDqnt (plainHead 8 2 0 4) (plainArith .f32),
    .xqDqnt (plainHead 4 2 0 1) (plainArith .f32), .xqDot4 (plainHead 4 4 6 8) (plainArith .i16), .xqDot4 (plainHead 4 4 6 8) { plainArith .i8 with rnd := .rz },
    .xqDot4 (plainHead 4 4 0 8) { plainArith .i8 with bi := true }, .xqDot8 (plainHead 4 4 6 8) (plainArith .e4m3)] = true := by decide +kernel

/-- R132, R85, R127: the cross-lane forms and the extended branches. -/
theorem test_cross_refused : refusesAll [
    .xlShfl (plainHead 8 9 0 0) (cross .i32 3 0 0), .xlShfl (plainHead 8 9 0 0) (cross .i32 0 4 0), .xlShfl (plainHead 8 9 0 0) (cross .i32 0 0 1),
    .xlShfl (plainHead 8 9 0 0) (cross .i8 0 0 0), .xlShfl (plainHead 8 9 0 1) (cross .i32 0 0 0), .xlShfl (plainHead 8 9 1 0) { cross .i32 0 0 0 with bi := true },
    .xlShfl (plainHead 8 9 1 0) { cross .i32 0 0 0 with imm := 1 }, .xlShfl (plainHead 8 9 1 3) { cross .i64 0 0 0 with fl := true },
    .xlVote (plainHead 8 0 0 0) (cross .i8 0 0 1), .xlVote (plainHead 64 0 0 0) (cross .i8 0 3 1), .xlVote (plainHead 1 1 0 0) (cross .i8 0 0 1),
    .xlVote (plainHead 1 0 0 0) (cross .i32 0 0 1), .xlGred (plainHead 5 6 0 0) (cross .f32 0 3 0), .xlGred (plainHead 5 6 0 0) (cross .i32 0 6 0),
    .xlGred (plainHead 5 6 0 0) { cross .f32 0 1 0 with rnd := .rz }, .xlGred (plainHead 5 6 0 0) { cross .i32 0 0 0 with fl := true },
    .xlGscan (plainHead 5 6 1 0) (cross .i32 0 8 0), .xlGscan (plainHead 5 6 0 0) (cross .f32 0 11 0), .xlMatch (plainHead 5 6 0 0) (cross .i32 0 0 1),
    .xlMatch (plainHead 5 6 0 0) (cross .i32 0 2 0), .xcBra (plainHead 0 1 0 0) { off := 4, cnd := 0, rsv := 0 },
    .xcBra (plainHead 0 0 0 0) { off := 4, cnd := 1, rsv := 0 }, .xcBra (plainHead 0 0 0 0) { off := 4, cnd := 0, rsv := 1 },
    .xcBra { plainHead 0 0 0 0 with lit := some 6 } { off := 0, cnd := 0, rsv := 0 }, .xcBra { plainHead 0 0 0 0 with lit := some 8 } { off := 1, cnd := 0, rsv := 0 },
    .xcBrc (plainHead 0 3 0 0) { off := 4, cnd := 0, rsv := 0 }, .xcBrc (plainHead 0 64 0 0) { off := 4, cnd := 1, rsv := 0 },
    .xcBrc (plainHead 0 8 0 0) { off := 4, cnd := 3, rsv := 0 }, .xcBrc (plainHead 0 1 0 0) { off := 4, cnd := 6, rsv := 0 },
    .xcBrc (plainHead 0 1 0 0) { off := 4, cnd := 7, rsv := 0 }, .xcCall (plainHead 1 0 0 0) { off := 4, cnd := 0, rsv := 0 }] = true := by decide +kernel

/-- R81 to R84, R192, R199, R247: the memory forms. -/
theorem test_memory_refused : refusesAll [
    .xmLd (plainHead 8 4 0 0) (plainMem 8 0 .dev .rlx .i32), .xmLd (plainHead 8 4 1 0) (plainMem 0 0 .dev .rlx .i32), .xmLd (plainHead 8 4 0 1) (plainMem 0 0 .dev .rlx .i32),
    .xmLd (plainHead 8 4 0 0) (plainMem 0 0 .dev .rel .i32), .xmLd (plainHead 8 4 0 0) (plainMem 0 0 .dev .rlx .e2m1), .xmLd (plainHead 8 4 0 0) (plainMem 4 0 .dev .rlx .i64),
    .xmLd (plainHead 9 4 0 0) (plainMem 0 0 .dev .rlx .i64), .xmLd (plainHead 8 160 0 0) (plainMem 0 0 .dev .rlx .i32),
    .xmLd { plainHead 8 4 0 0 with lit := some 64 } (plainMem 0 0 .dev .rlx .i32), .xmSt { plainHead 0 4 8 0 with la := 1 } (plainMem 0 0 .dev .rlx .i32),
    .xmSt (plainHead 1 4 8 0) (plainMem 0 0 .dev .rlx .i32), .xmSt (plainHead 0 4 8 0) (plainMem 2 0 .dev .rlx .i32), .xmSt (plainHead 0 4 8 0) (plainMem 4 0 .dev .rlx .i32),
    .xmSt (plainHead 0 4 8 0) (plainMem 0 0 .dev .acq .i32), .xmSt (plainHead 0 4 9 0) (plainMem 0 0 .dev .rlx .i64), .xmLdc (plainHead 4 4 0 0) (plainMem 0 0 .dev .rlx .i32),
    .xmLdc (plainHead 4 0x84 0 0) (plainMem 1 0 .dev .rlx .i32), .xmLdc (plainHead 64 0x84 0 0) (plainMem 0 0 .dev .rlx .i32), .xmLdc (plainHead 4 0x84 0 0) (plainMem 0 0 .dev .rlx .i8),
    .xmPrf (plainHead 0 4 0 0) (plainMem 0 0 .dev .rlx .i8), .xmPrf (plainHead 0 4 0 0) (plainMem 0 0 .team .rlx .i16), .xmLdg (plainHead 8 0x84 9 0) (plainMem 0 0 .team .rlx .i32),
    .xmLdg (plainHead 8 4 9 0) (plainMem 0 0 .dev .rlx .i32), .xmLdg (plainHead 8 0x84 9 0) (plainMem 1 0 .dev .rlx .i32), .xmSct (plainHead 0 0x84 9 10) (plainMem 0 0 .dev .rlx .b128),
    .xmSct (plainHead 1 0x84 9 10) (plainMem 0 0 .dev .rlx .i32), .xmIcinv (plainHead 0 4 0 0) (plainMem 0 0 .dev .rlx .i8),
    .xsLds (plainHead 8 4 0 0) (plainMem 0 0 .dev .rlx .i32), .xsLds (plainHead 8 192 0 0) (plainMem 0 0 .team .rlx .i32), .xsLds (plainHead 8 4 0 0) (plainMem 1 0 .team .rlx .i32),
    .xsLds { plainHead 8 0 0 0 with lit := some 0 } (plainMem 0 0 .team .rlx .i32), .xsSts (plainHead 0 4 8 0) (plainMem 0 0 .team .acq .i32), .xsSts (plainHead 1 4 8 0) (plainMem 0 0 .team .rlx .i32),
    .xsAtoms (plainHead 8 4 9 0) (plainMem 10 0 .team .rlx .i32), .xsAtoms (plainHead 8 4 9 10) (plainMem 0 0 .team .rlx .i32), .xsAtoms (plainHead 8 4 9 0) (plainMem 0 0 .dev .rlx .i32),
    .xaAtom (plainHead 8 4 9 0) (plainMem 3 0 .dev .rlx .f32), .xaAtom (plainHead 8 4 9 0) (plainMem 0 0 .dev .rlx .i8), .xaAtom (plainHead 8 4 10 13) (plainMem 7 0 .dev .rlx .i64),
    .xoFence (plainHead 0 1 0 0) (plainMem 0 0 .dev .rlx .i8), .xoFence (plainHead 0 0 0 0) (plainMem 0 8 .dev .rlx .i8), .xoFence { plainHead 0 0 0 0 with lit := some 0 } (plainMem 0 0 .dev .rlx .i8),
    .xoSeal (plainHead 0 0 0 0) (plainMem 0 0 .dev .acq .i8), .xoChkr (plainHead 0 0x84 0 0) (plainMem 0 0 .sys .rlx .i8), .xoChkr (plainHead 0 4 0 0) (plainMem 0 0 .dev .rlx .i8)] = true := by
  decide +kernel

/-- R261, R278, R284, R285, R300, R308, R309: barriers, queues, phases, waits, copies and timelines. -/
theorem test_sync_refused : refusesAll [
    .xyBari (plainHead 0 0 0x8B 0) (plainMem 0 0 .team .rlx .i8), .xyBari (plainHead 0 4 0x8A 0) (plainMem 0 0 .team .rlx .i8), .xyBari (plainHead 0 0 0x8A 0) (plainMem 0 0 .team .rlx .i16),
    .xyBari (plainHead 0 0 0x8A 0) (plainMem 0 0 .dev .rlx .i8), .xyBara (plainHead 0 0 0 0) (plainMem 0 0 .team .rlx .z8), .xyBarad (plainHead 0 0 1 0) (plainMem 0 0 .team .rlx .i8),
    .xyBarw (plainHead 0 0 0 2) (plainMem 0 0 .team .rlx .i8), .xyBarw (plainHead 0 0xC0 0 0) (plainMem 0 0 .team .rlx .i8), .xyBart (plainHead 64 0 0 0) (plainMem 0 0 .team .rlx .i8),
    .xyBarx (plainHead 0 0 0 1) (plainMem 0 0 .team .rlx .i8), .xyGbara (plainHead 0 0 4 0) (plainMem 0 0 .team .rlx .i8), .xyGbard (plainHead 0 0 0 0) (plainMem 0 8 .team .rlx .i8),
    .xyGbarw (plainHead 0 0 0 2) (plainMem 0 0 .team .rlx .i8), .xuQpsh (plainHead 8 0 12 0) (plainMem 0 0 .team .rlx .i8), .xuQpsh (plainHead 1 0 13 0) (plainMem 0 0 .team .rlx .i8),
    .xuQpop (plainHead 13 0 0 1) (plainMem 0 0 .team .rlx .i8), .xuQpop (plainHead 12 0 0 8) (plainMem 0 0 .team .rlx .i8), .xuQst (plainHead 11 0 0 0) (plainMem 0 0 .team .rlx .i8),
    .xuPhsw (plainHead 0 1 0 0) (plainMem 0 0 .team .rlx .i8), .xuPhsw { plainHead 0 0 0 0 with la := 1 } (plainMem 0 0 .team .rlx .i8), .xuQuiet (plainHead 0 0 0 0) (plainMem 0 0 .team .rlx .i8),
    .xuQuiet (plainHead 0 0 0 2) (plainMem 0 0 .dev .rlx .i8), .xpCpy (plainHead 8 0x90 0 0) (plainMem 0 0 .dev .rlx .i8), .xpCpy (plainHead 1 0x91 0 0) (plainMem 0 0 .dev .rlx .i8),
    .xpCpy (plainHead 1 0x90 0 0) (plainMem 0 0 .die .rlx .i8), .xpCpy (plainHead 1 0x90 0 0) (plainMem 0 8 .dev .rlx .i8), .xpCpy (plainHead 1 0x90 0 0) (plainMem 0 8 .dev .rel .i8),
    .xpCpyt (plainHead 1 0x90 0x81 0) (plainMem 0 0 .dev .rlx .i8), .xpCpyt (plainHead 1 0x90 0 0) (plainMem 0 0 .dev .rlx .i8), .xpCpyr (plainHead 1 0x90 0 0) (plainMem 0 0 .dev .rlx .f16),
    .xpCpym (plainHead 1 0x88 0 0xB0) (plainMem 0 0 .sys .rlx .i8), .xpCpym (plainHead 1 0x88 0 0xB1) (plainMem 0 0 .dev .rlx .i8), .xpTlwt (plainHead 0 0x83 0x8B 0) (plainMem 0 0 .team .rlx .i8),
    .xpTlwt (plainHead 0 3 0x8A 0) (plainMem 0 0 .team .rlx .i8), .xpTlrd (plainHead 13 0x83 0 0) (plainMem 0 0 .team .rlx .i8), .xpTlrd (plainHead 12 0x83 0 0) (plainMem 0 0 .team .rlx .z16)] = true := by
  decide +kernel

/-- R325, R334, R335, R338, R373, R422, R357, R137: tiles, remote accesses, copies of nodes and special registers. -/
theorem test_units_refused : refusesAll [
    .xxMma (plainHead 16 8 12 0) (command .e4m3 .f16 .f32 0 0), .xxMma (plainHead 16 8 12 0) (command .f16 .f16 .f16 0 0), .xxMma (plainHead 8 8 16 0) (command .f16 .f16 .f32 0 0),
    .xxMma (plainHead 12 8 4 0) (command .f16 .f16 .f32 0 0), .xxMma (plainHead 16 10 12 0) (command .f16 .f16 .f32 0 0), .xxTmma (plainHead 3 0xB1 0 0) (command .i8 .i8 .i8 0 0),
    .xxTmma (plainHead 8 0xB0 0 0) (command .i8 .i8 .i8 0 0), .xxTmma (plainHead 3 0xB0 0 0) (command .i8 .i8 .i8 1 0), .xxTzro (plainHead 0 0 0 0) (command .i8 .i8 .i8 0 16),
    .xxTrd (plainHead 16 0 0 0) (command .i8 .i8 .i8 0 1024), .xxTrd (plainHead 12 0 0 0) (command .i8 .i8 .i8 0 0), .xxTwr (plainHead 0 12 0 0) (command .i8 .i8 .i8 0 0),
    .xxTsto (plainHead 4 0xB8 0 0) (command .f16 .i8 .f16 0 0), .xxTsto (plainHead 4 0xB8 0 0) (command .f64 .i8 .f16 0 0), .xxTsto (plainHead 4 0xB8 0 0) (command .f32 .i8 .f32 8 0),
    .xxTsto (plainHead 4 0xB9 0 0) (command .f32 .i8 .f32 0 0), .xrRld (plainHead 8 4 0 9) { remote 0 0 .rlx .i32 with scope := .dev },
    .xrRld (plainHead 8 4 0 9) { remote 0 0 .rlx .i32 with se := true, sp := 7 }, .xrRld (plainHead 8 4 0 9) { remote 0 0 .rlx .i32 with sp := 1 }, .xrRld (plainHead 8 4 0 192) (remote 0 0 .rlx .i32),
    .xrRld (plainHead 8 4 0 9) (remote 0 0 .rel .i32), .xrRst (plainHead 1 4 8 9) (remote 0 0 .rlx .i32), .xrRst (plainHead 0 4 8 9) (remote 0 0 .acq .i32),
    .xrRst { plainHead 0 4 8 9 with la := 1 } (remote 0 0 .rlx .i32), .xrRatm (plainHead 8 4 9 9) (remote 7 0 .rlx .i32), .xrRatm (plainHead 8 4 10 9) (remote 7 0 .rlx .i64),
    .xrRatm (plainHead 8 4 9 9) (remote 10 0 .rlx .i32), .xrRfnc (plainHead 0 1 0 9) (remote 0 0 .rlx .i8), .xrRfnc (plainHead 0 0 0 9) (remote 0 8 .rlx .i8),
    .xvDvt (plainHead 8 0x90 0 0) (command .i8 .i8 .i8 0 0), .xvDvt (plainHead 1 0x91 0 0) (command .i8 .i8 .i8 0 0), .xvColl (plainHead 1 0x90 0 0) (command .i8 .i8 .i8 2 0),
    .xvNodego (plainHead 1 0x90 0 0) (command .i8 .i8 .i8 0 0), .xzCsrr (plainHead 64 0 0 0) (command .i8 .i8 .i8 0 0), .xzCsrr (plainHead 4 0 0 0) (command .i8 .i8 .i8 0 0x15),
    .xzCsrw (plainHead 0 4 0 0) (command .i8 .i8 .i8 0 1), .xzCsrw (plainHead 0 64 0 0) (command .i8 .i8 .i8 0 0), .xzGett (plainHead 5 0 0 0) (command .i8 .i8 .i8 0 0),
    .xzGett (plainHead 4 0 0 0) (command .i8 .i8 .i8 2 0), .xzPmrd (plainHead 4 0 0 0) (command .i8 .i8 .i8 0 16), .xzPmrd (plainHead 5 0 0 0) (command .i8 .i8 .i8 0 0)] = true := by decide +kernel

/-- The limits themselves are allowed: the last guard, window, register, code, number. -/
theorem test_limits_admitted : admitsAll [
    .bviAdd (b3 0 0 0 false (some 0)), .bvcIsetEq (b3 7 63 63 true none), .bctSrd (bs 63 0 0 (some 0x10F)), .bctWaitk (bs 0 3 63 none), .xiAdd { plainHead 254 254 254 0 with gp := 6, gn := true } (plainArith .i64),
    .xiAdd (plainHead 62 62 62 0) { plainArith .i64 with ka := true, kb := true, imm := 0x80000 }, .xiMov (plainHead 252 0 252 0) (plainArith .b128), .xfFsin { plainHead 255 255 0 0 with la := 15 } (plainArith .f32),
    .xmLd { plainHead 252 0x9F 0 0 with la := 15 } (plainMem 3 0x800000 .sys .acq .b128), .xsAtoms (plainHead 255 0xBF 255 255) (plainMem 7 0 .team .acqrel .f32),
    .xyBart (plainHead 63 0xBF 0 0xBF) (plainMem 0 0 .team .rlx .i8), .xxTzro (plainHead 0 0 0 0) (command .i8 .i8 .i8 0 15), .xzCsrw (plainHead 0 63 0 0) (command .i8 .i8 .i8 0 0x10F),
    .xrRld (plainHead 8 4 0 0xBF) { remote 0 0 .rlx .i32 with se := true, sp := 6 }] = true := by decide +kernel

/-! ## Decoding, one word for every instruction of the opcode table (03 R70 to R92) -/

def readsOne (ws : List Nat) (i : Instr) : Bool :=
  match decodeWords ws with
  | .ok j => decide (j = i) && encode i == some ws
  | .error _ => false

/-- The decoder reads each of these words as the instruction beside it, and the encoder writes it so. -/
def readsAll (l : List (List Nat × Instr)) : Bool := l.all fun p => readsOne p.1 p.2

theorem test_decode_bvi : readsAll [
    ([0x00006213], .bviAdd { d := 3, a := 4, b := 9, bk := true, lit := none }),
    ([0x00086213], .bviSub { d := 3, a := 4, b := 9, bk := true, lit := none }),
    ([0x00106213], .bviMul { d := 3, a := 4, b := 9, bk := true, lit := none }),
    ([0x00186213], .bviMin { d := 3, a := 4, b := 9, bk := true, lit := none }),
    ([0x00206213], .bviMax { d := 3, a := 4, b := 9, bk := true, lit := none }),
    ([0x00286213], .bviAnd { d := 3, a := 4, b := 9, bk := true, lit := none }),
    ([0x00306213], .bviOr { d := 3, a := 4, b := 9, bk := true, lit := none }),
    ([0x00386213], .bviXor { d := 3, a := 4, b := 9, bk := true, lit := none }),
    ([0x00406213], .bviAndn { d := 3, a := 4, b := 9, bk := true, lit := none }),
    ([0x00486213], .bviShl { d := 3, a := 4, b := 9, bk := true, lit := none }),
    ([0x00506213], .bviShr { d := 3, a := 4, b := 9, bk := true, lit := none }),
    ([0x00586213], .bviSar { d := 3, a := 4, b := 9, bk := true, lit := none }),
    ([0x00606013], .bviMov { d := 3, a := 0, b := 9, bk := true, lit := none })] = true := by decide +kernel

theorem test_decode_bsi : readsAll [
    ([0x03006213], .bsiAdd { d := 3, a := 4, b := 9, bk := true, lit := none }),
    ([0x03086213], .bsiSub { d := 3, a := 4, b := 9, bk := true, lit := none }),
    ([0x03106213], .bsiMul { d := 3, a := 4, b := 9, bk := true, lit := none }),
    ([0x03186213], .bsiMin { d := 3, a := 4, b := 9, bk := true, lit := none }),
    ([0x03206213], .bsiMax { d := 3, a := 4, b := 9, bk := true, lit := none }),
    ([0x03286213], .bsiAnd { d := 3, a := 4, b := 9, bk := true, lit := none }),
    ([0x03306213], .bsiOr { d := 3, a := 4, b := 9, bk := true, lit := none }),
    ([0x03386213], .bsiXor { d := 3, a := 4, b := 9, bk := true, lit := none }),
    ([0x03406213], .bsiAndn { d := 3, a := 4, b := 9, bk := true, lit := none }),
    ([0x03486213], .bsiShl { d := 3, a := 4, b := 9, bk := true, lit := none }),
    ([0x03506213], .bsiShr { d := 3, a := 4, b := 9, bk := true, lit := none }),
    ([0x03586213], .bsiSar { d := 3, a := 4, b := 9, bk := true, lit := none }),
    ([0x03606013], .bsiMov { d := 3, a := 0, b := 9, bk := true, lit := none })] = true := by decide +kernel

theorem test_decode_bvf : readsAll [
    ([0x01006213], .bvfFadd { d := 3, a := 4, b := 9, bk := true, lit := none }),
    ([0x01086213], .bvfFsub { d := 3, a := 4, b := 9, bk := true, lit := none }),
    ([0x01106213], .bvfFmul { d := 3, a := 4, b := 9, bk := true, lit := none }),
    ([0x01186213], .bvfFmin { d := 3, a := 4, b := 9, bk := true, lit := none }),
    ([0x01206213], .bvfFmax { d := 3, a := 4, b := 9, bk := true, lit := none }),
    ([0x01286213], .bvfFfma { d := 3, a := 4, b := 9, bk := true, lit := none }),
    ([0x01306200], .bvfFrcp { d := 3, a := 4, b := 0, bk := false, lit := none }),
    ([0x01386200], .bvfFrsq { d := 3, a := 4, b := 0, bk := false, lit := none }),
    ([0x01406200], .bvfFsqrt { d := 3, a := 4, b := 0, bk := false, lit := none }),
    ([0x01486200], .bvfFex2 { d := 3, a := 4, b := 0, bk := false, lit := none }),
    ([0x01506200], .bvfFlg2 { d := 3, a := 4, b := 0, bk := false, lit := none })] = true := by decide +kernel

theorem test_decode_bvh : readsAll [
    ([0x02006213], .bvhFaddF16x2 { d := 3, a := 4, b := 9, bk := true, lit := none }),
    ([0x02086213], .bvhFsubF16x2 { d := 3, a := 4, b := 9, bk := true, lit := none }),
    ([0x02106213], .bvhFmulF16x2 { d := 3, a := 4, b := 9, bk := true, lit := none }),
    ([0x02186213], .bvhFminF16x2 { d := 3, a := 4, b := 9, bk := true, lit := none }),
    ([0x02206213], .bvhFmaxF16x2 { d := 3, a := 4, b := 9, bk := true, lit := none }),
    ([0x02286213], .bvhFfmaF16x2 { d := 3, a := 4, b := 9, bk := true, lit := none }),
    ([0x02806213], .bvhFaddBf16x2 { d := 3, a := 4, b := 9, bk := true, lit := none }),
    ([0x02886213], .bvhFsubBf16x2 { d := 3, a := 4, b := 9, bk := true, lit := none }),
    ([0x02906213], .bvhFmulBf16x2 { d := 3, a := 4, b := 9, bk := true, lit := none }),
    ([0x02986213], .bvhFminBf16x2 { d := 3, a := 4, b := 9, bk := true, lit := none }),
    ([0x02A06213], .bvhFmaxBf16x2 { d := 3, a := 4, b := 9, bk := true, lit := none }),
    ([0x02A86213], .bvhFfmaBf16x2 { d := 3, a := 4, b := 9, bk := true, lit := none })] = true := by decide +kernel

theorem test_decode_bvii : readsAll [
    ([0x04109DF5], .bviiAdd { d := 33, a := 14, imm := 0x1F5, lit := none }),
    ([0x04309DF5], .bviiAnd { d := 33, a := 14, imm := 0x1F5, lit := none }),
    ([0x04509DF5], .bviiOr { d := 33, a := 14, imm := 0x1F5, lit := none }),
    ([0x04709DF5], .bviiXor { d := 33, a := 14, imm := 0x1F5, lit := none }),
    ([0x04909DF5], .bviiShl { d := 33, a := 14, imm := 0x1F5, lit := none }),
    ([0x04B09DF5], .bviiShr { d := 33, a := 14, imm := 0x1F5, lit := none }),
    ([0x04D09DF5], .bviiSar { d := 33, a := 14, imm := 0x1F5, lit := none }),
    ([0x04F081F5], .bviiMov { d := 33, a := 0, imm := 0x1F5, lit := none })] = true := by decide +kernel

theorem test_decode_bsii : readsAll [
    ([0x05109DF5], .bsiiAdd { d := 33, a := 14, imm := 0x1F5, lit := none }),
    ([0x05309DF5], .bsiiAnd { d := 33, a := 14, imm := 0x1F5, lit := none }),
    ([0x05509DF5], .bsiiOr { d := 33, a := 14, imm := 0x1F5, lit := none }),
    ([0x05709DF5], .bsiiXor { d := 33, a := 14, imm := 0x1F5, lit := none }),
    ([0x05909DF5], .bsiiShl { d := 33, a := 14, imm := 0x1F5, lit := none }),
    ([0x05B09DF5], .bsiiShr { d := 33, a := 14, imm := 0x1F5, lit := none }),
    ([0x05D09DF5], .bsiiSar { d := 33, a := 14, imm := 0x1F5, lit := none }),
    ([0x05F081F5], .bsiiMov { d := 33, a := 0, imm := 0x1F5, lit := none })] = true := by decide +kernel

theorem test_decode_bvc : readsAll [
    ([0x0600D4AC], .bvcIsetEq { d := 6, a := 41, b := 22, bk := false, lit := none }),
    ([0x0608D4AC], .bvcIsetNe { d := 6, a := 41, b := 22, bk := false, lit := none }),
    ([0x0610D4AC], .bvcIsetLt { d := 6, a := 41, b := 22, bk := false, lit := none }),
    ([0x0618D4AC], .bvcIsetLe { d := 6, a := 41, b := 22, bk := false, lit := none }),
    ([0x0620D4AC], .bvcIsetGt { d := 6, a := 41, b := 22, bk := false, lit := none }),
    ([0x0628D4AC], .bvcIsetGe { d := 6, a := 41, b := 22, bk := false, lit := none }),
    ([0x0640D4AC], .bvcIsetEqZ32 { d := 6, a := 41, b := 22, bk := false, lit := none }),
    ([0x0648D4AC], .bvcIsetNeZ32 { d := 6, a := 41, b := 22, bk := false, lit := none }),
    ([0x0650D4AC], .bvcIsetLtZ32 { d := 6, a := 41, b := 22, bk := false, lit := none }),
    ([0x0658D4AC], .bvcIsetLeZ32 { d := 6, a := 41, b := 22, bk := false, lit := none }),
    ([0x0660D4AC], .bvcIsetGtZ32 { d := 6, a := 41, b := 22, bk := false, lit := none }),
    ([0x0668D4AC], .bvcIsetGeZ32 { d := 6, a := 41, b := 22, bk := false, lit := none }),
    ([0x0680D4AC], .bvcFsetEq { d := 6, a := 41, b := 22, bk := false, lit := none }),
    ([0x0688D4AC], .bvcFsetNe { d := 6, a := 41, b := 22, bk := false, lit := none }),
    ([0x0690D4AC], .bvcFsetLt { d := 6, a := 41, b := 22, bk := false, lit := none }),
    ([0x0698D4AC], .bvcFsetLe { d := 6, a := 41, b := 22, bk := false, lit := none }),
    ([0x06A0D4AC], .bvcFsetGt { d := 6, a := 41, b := 22, bk := false, lit := none }),
    ([0x06A8D4AC], .bvcFsetGe { d := 6, a := 41, b := 22, bk := false, lit := none }),
    ([0x06B0D4AC], .bvcFsetUnord { d := 6, a := 41, b := 22, bk := false, lit := none })] = true := by decide +kernel

theorem test_decode_bsc : readsAll [
    ([0x07006213], .bscIsetEq { d := 3, a := 4, b := 9, bk := true, lit := none }),
    ([0x07086213], .bscIsetNe { d := 3, a := 4, b := 9, bk := true, lit := none }),
    ([0x07106213], .bscIsetLt { d := 3, a := 4, b := 9, bk := true, lit := none }),
    ([0x07186213], .bscIsetLe { d := 3, a := 4, b := 9, bk := true, lit := none }),
    ([0x07206213], .bscIsetGt { d := 3, a := 4, b := 9, bk := true, lit := none }),
    ([0x07286213], .bscIsetGe { d := 3, a := 4, b := 9, bk := true, lit := none }),
    ([0x07406213], .bscIsetEqZ32 { d := 3, a := 4, b := 9, bk := true, lit := none }),
    ([0x07486213], .bscIsetNeZ32 { d := 3, a := 4, b := 9, bk := true, lit := none }),
    ([0x07506213], .bscIsetLtZ32 { d := 3, a := 4, b := 9, bk := true, lit := none }),
    ([0x07586213], .bscIsetLeZ32 { d := 3, a := 4, b := 9, bk := true, lit := none }),
    ([0x07606213], .bscIsetGtZ32 { d := 3, a := 4, b := 9, bk := true, lit := none }),
    ([0x07686213], .bscIsetGeZ32 { d := 3, a := 4, b := 9, bk := true, lit := none })] = true := by decide +kernel

theorem test_decode_bbr : readsAll [
    ([0x08003FF0], .bbrBra { s := 0, off := -16, lit := none }),
    ([0x08117FF0], .bbrBrcNz { s := 5, off := -16, lit := none }),
    ([0x08217FF0], .bbrBrcZ { s := 5, off := -16, lit := none }),
    ([0x08317FF0], .bbrBrcAny { s := 5, off := -16, lit := none }),
    ([0x08417FF0], .bbrBrcAll { s := 5, off := -16, lit := none }),
    ([0x08517FF0], .bbrBrcNone { s := 5, off := -16, lit := none }),
    ([0x08603FF0], .bbrBrez { s := 0, off := -16, lit := none }),
    ([0x08717FF0], .bbrLoop { s := 5, off := -16, lit := none }),
    ([0x08803FF0], .bbrCall { s := 0, off := -16, lit := none })] = true := by decide +kernel

theorem test_decode_bct : readsAll [
    ([0x09000000], .bctNop { d := 0, a := 0, b := 0, lit := none }),
    ([0x09000001], .bctExit { d := 0, a := 0, b := 0, lit := none }),
    ([0x09000002], .bctRet { d := 0, a := 0, b := 0, lit := none }),
    ([0x09002003], .bctJmpr { d := 0, a := 2, b := 0, lit := none }),
    ([0x09002004], .bctCallr { d := 0, a := 2, b := 0, lit := none }),
    ([0x09000005], .bctYield { d := 0, a := 0, b := 0, lit := none }),
    ([0x09000006], .bctRegang { d := 0, a := 0, b := 0, lit := none }),
    ([0x09280047], .bctExsave { d := 10, a := 0, b := 1, lit := none }),
    ([0x09002008], .bctExelse { d := 0, a := 2, b := 0, lit := none }),
    ([0x09002009], .bctExrest { d := 0, a := 2, b := 0, lit := none }),
    ([0x0900200A], .bctExset { d := 0, a := 2, b := 0, lit := none }),
    ([0x0928000B], .bctExget { d := 10, a := 0, b := 0, lit := none }),
    ([0x0928000C], .bctGmask { d := 10, a := 0, b := 0, lit := none }),
    ([0x0928000D], .bctGwidth { d := 10, a := 0, b := 0, lit := none }),
    ([0x092804CE], .bctSrd { d := 10, a := 0, b := 19, lit := none }),
    ([0x0900204F], .bctWaitk { d := 0, a := 2, b := 1, lit := none }),
    ([0x09000050], .bctTrap { d := 0, a := 0, b := 1, lit := none }),
    ([0x09000011], .bctRft { d := 0, a := 0, b := 0, lit := none }),
    ([0x09000052], .bctBrkpt { d := 0, a := 0, b := 1, lit := none })] = true := by decide +kernel

theorem test_decode_xi : readsAll [
    ([0x60000A04, 0x06000E00, 0x60000000], .xiAdd (plainHead 10 4 6 0) (plainArith .i64)),
    ([0x60010A04, 0x06000E00, 0x60000000], .xiSub (plainHead 10 4 6 0) (plainArith .i64)),
    ([0x60020A04, 0x06140E00, 0x60000000], .xiAddc (plainHead 10 4 6 20) (plainArith .i64)),
    ([0x60030A04, 0x06140E00, 0x60000000], .xiSubb (plainHead 10 4 6 20) (plainArith .i64)),
    ([0x60040A04, 0x06000E00, 0x60000000], .xiMul (plainHead 10 4 6 0) (plainArith .i64)),
    ([0x60050A04, 0x06000E00, 0x60000000], .xiMulh (plainHead 10 4 6 0) (plainArith .i64)),
    ([0x60060A04, 0x06140E00, 0x60000000], .xiMad (plainHead 10 4 6 20) (plainArith .i64)),
    ([0x60070A04, 0x06000E00, 0x60000000], .xiMin (plainHead 10 4 6 0) (plainArith .i64)),
    ([0x60080A04, 0x06000E00, 0x60000000], .xiMax (plainHead 10 4 6 0) (plainArith .i64)),
    ([0x60090A04, 0x00000E00, 0x60000000], .xiAbs (plainHead 10 4 0 0) (plainArith .i64)),
    ([0x600A0A04, 0x00000E00, 0x60000000], .xiNeg (plainHead 10 4 0 0) (plainArith .i64)),
    ([0x600B0A04, 0x06000E00, 0x60000000], .xiAnd (plainHead 10 4 6 0) (plainArith .i64)),
    ([0x600C0A04, 0x06000E00, 0x60000000], .xiOr (plainHead 10 4 6 0) (plainArith .i64)),
    ([0x600D0A04, 0x06000E00, 0x60000000], .xiXor (plainHead 10 4 6 0) (plainArith .i64)),
    ([0x600E0A04, 0x06000E00, 0x60000000], .xiAndn (plainHead 10 4 6 0) (plainArith .i64)),
    ([0x600F0A04, 0x06000E00, 0x60000000], .xiOrn (plainHead 10 4 6 0) (plainArith .i64)),
    ([0x60100A04, 0x00000E00, 0x60000000], .xiNot (plainHead 10 4 0 0) (plainArith .i64)),
    ([0x60110A04, 0x06000E00, 0x60000000], .xiShl (plainHead 10 4 6 0) (plainArith .i64)),
    ([0x60120A04, 0x06000E00, 0x60000000], .xiShr (plainHead 10 4 6 0) (plainArith .i64)),
    ([0x60130A04, 0x06000E00, 0x60000000], .xiSar (plainHead 10 4 6 0) (plainArith .i64)),
    ([0x60140A04, 0x06000E00, 0x60000000], .xiRol (plainHead 10 4 6 0) (plainArith .i64)),
    ([0x60150A04, 0x06140E00, 0x60000000], .xiShf (plainHead 10 4 6 20) (plainArith .i64)),
    ([0x60160A04, 0x00000E00, 0x60000000], .xiClz (plainHead 10 4 0 0) (plainArith .i64)),
    ([0x60170A04, 0x00000E00, 0x60000000], .xiCtz (plainHead 10 4 0 0) (plainArith .i64)),
    ([0x60180A04, 0x00000E00, 0x60000000], .xiPopc (plainHead 10 4 0 0) (plainArith .i64)),
    ([0x60190A04, 0x00000E00, 0x60000000], .xiBrev (plainHead 10 4 0 0) (plainArith .i64)),
    ([0x601A0A04, 0x06000E00, 0x60000000], .xiBfx (plainHead 10 4 6 0) (plainArith .i64)),
    ([0x601B0A04, 0x06140E00, 0x60000000], .xiBfi (plainHead 10 4 6 20) (plainArith .i64)),
    ([0x601C0A04, 0x06140E00, 0x40000000], .xiBperm (plainHead 10 4 6 20) (plainArith .i32)),
    ([0x601D0A04, 0x06030E00, 0x60000000], .xiSel (plainHead 10 4 6 3) (plainArith .i64)),
    ([0x601E0A00, 0x06000E00, 0x60000000], .xiMov (plainHead 10 0 6 0) (plainArith .i64)),
    ([0x601F0604, 0x06040E00, 0x40000000], .xiIset (plainHead 6 4 6 4) (plainArith .i32)),
    ([0x60200A04, 0x06020E00, 0x40000000], .xiLea (plainHead 10 4 6 2) (plainArith .i32))] = true := by decide +kernel

theorem test_decode_xf : readsAll [
    ([0x61000B04, 0x06000E00, 0xA1000000], .xfFadd (plainHead 11 4 6 0) { plainArith .f32 with ftz := true }),
    ([0x61010B04, 0x06000E00, 0xA1000000], .xfFsub (plainHead 11 4 6 0) { plainArith .f32 with ftz := true }),
    ([0x61020B04, 0x06000E00, 0xA1000000], .xfFmul (plainHead 11 4 6 0) { plainArith .f32 with ftz := true }),
    ([0x61030B04, 0x06140E00, 0xA1000000], .xfFfma (plainHead 11 4 6 20) { plainArith .f32 with ftz := true }),
    ([0x61040B04, 0x06000E00, 0xA1000000], .xfFmin (plainHead 11 4 6 0) { plainArith .f32 with ftz := true }),
    ([0x61050B04, 0x06000E00, 0xA1000000], .xfFmax (plainHead 11 4 6 0) { plainArith .f32 with ftz := true }),
    ([0x61060604, 0x06070E00, 0xA1000000], .xfFset (plainHead 6 4 6 7) { plainArith .f32 with ftz := true }),
    ([0x61070B04, 0x00000E00, 0xA0000000], .xfFclass (plainHead 11 4 0 0) (plainArith .f32)),
    ([0x61080B04, 0x00000E00, 0xA1000000], .xfFrnd (plainHead 11 4 0 0) { plainArith .f32 with ftz := true }),
    ([0x61090B04, 0x00000E00, 0xA1000000], .xfFrcp (plainHead 11 4 0 0) { plainArith .f32 with ftz := true }),
    ([0x610A0B04, 0x00000E00, 0xA1000000], .xfFrsq (plainHead 11 4 0 0) { plainArith .f32 with ftz := true }),
    ([0x610B0B04, 0x00000E00, 0xA1000000], .xfFsqrt (plainHead 11 4 0 0) { plainArith .f32 with ftz := true }),
    ([0x610C0B04, 0x00000E00, 0xA1000000], .xfFex2 (plainHead 11 4 0 0) { plainArith .f32 with ftz := true }),
    ([0x610D0B04, 0x00000E00, 0xA1000000], .xfFlg2 (plainHead 11 4 0 0) { plainArith .f32 with ftz := true }),
    ([0x610E0B04, 0x00000E00, 0xA1000000], .xfFsin (plainHead 11 4 0 0) { plainArith .f32 with ftz := true }),
    ([0x610F0B04, 0x00000E00, 0xA1000000], .xfFcos (plainHead 11 4 0 0) { plainArith .f32 with ftz := true }),
    ([0x61100B04, 0x00000E00, 0xA1000000], .xfFtanh (plainHead 11 4 0 0) { plainArith .f32 with ftz := true })] = true := by decide +kernel

theorem test_decode_xq : readsAll [
    ([0x62000304, 0x000A0E00, 0x84000000], .xqCvt (plainHead 3 4 0 10) { plainArith .f16 with rnd := .rz }),
    ([0x62012808, 0x000A0E00, 0xE0100003], .xqQntz (plainHead 40 8 0 10) { plainArith .e2m1 with bi := true, imm := 3 }),
    ([0x62020828, 0x00020E00, 0xA0000000], .xqDqnt (plainHead 8 40 0 2) (plainArith .f32)),
    ([0x62030A0B, 0x0C0D0E00, 0x00000000], .xqDot4 (plainHead 10 11 12 13) (plainArith .i8)),
    ([0x62040A0B, 0x0C0D0E00, 0xE0000000], .xqDot8 (plainHead 10 11 12 13) (plainArith .e2m1))] = true := by decide +kernel

theorem test_decode_xl : readsAll [
    ([0x63000809, 0x00000E00, 0x40340001], .xlShfl (plainHead 8 9 0 0) { ty := .i32, rnd := .rn, ls := 0, sub := 3, fl := false, bi := true, ps := 0, imm := 1 }),
    ([0x63010600, 0x00000E00, 0x00218000], .xlVote (plainHead 6 0 0 0) { ty := .i8, rnd := .rn, ls := 0, sub := 2, fl := false, bi := false, ps := 3, imm := 0 }),
    ([0x63020506, 0x00000E00, 0xA1000000], .xlGred (plainHead 5 6 0 0) { ty := .f32, rnd := .rn, ls := 1, sub := 0, fl := false, bi := false, ps := 0, imm := 0 }),
    ([0x63030506, 0x00000E00, 0x42D00000], .xlGscan (plainHead 5 6 0 0) { ty := .i32, rnd := .rn, ls := 2, sub := 13, fl := false, bi := false, ps := 0, imm := 0 }),
    ([0x63040506, 0x00000E00, 0x50118000], .xlMatch (plainHead 5 6 0 0) { ty := .z32, rnd := .rn, ls := 0, sub := 1, fl := false, bi := false, ps := 3, imm := 0 })] = true := by decide +kernel

theorem test_decode_xc : readsAll [
    ([0x64000000, 0x00000E00, 0xFFFFF800], .xcBra (plainHead 0 0 0 0) { off := -8, cnd := 0, rsv := 0 }),
    ([0x64010003, 0x00000E00, 0x00001040], .xcBrc (plainHead 0 3 0 0) { off := 16, cnd := 4, rsv := 0 }),
    ([0x64020000, 0x00000E00, 0x00002000], .xcCall (plainHead 0 0 0 0) { off := 32, cnd := 0, rsv := 0 })] = true := by decide +kernel

theorem test_decode_xm : readsAll [
    ([0x65102882, 0x00003E00, 0x0000409A], .xmLd { plainHead 40 0x82 0 0 with la := 3 } (plainMem 1 64 .dev .acq .f32)),
    ([0x65010086, 0x03000E00, 0x000000A4], .xmSt (plainHead 0 0x86 3 0) (plainMem 0 0 .dev .rel .i32)),
    ([0x65220483, 0x00000E00, 0xFFFFF84F], .xmLdc (plainHead 4 0x83 0 0) (plainMem 2 (-8) .die .rlx .b128)),
    ([0x6533000C, 0x00000E00, 0x00010000], .xmPrf (plainHead 0 12 0 0) (plainMem 3 256 .team .rlx .i8)),
    ([0x65041483, 0x09001E00, 0x0000008A], .xmLdg { plainHead 20 0x83 9 0 with la := 1 } (plainMem 0 0 .dev .rlx .f32)),
    ([0x65050083, 0x090A0E00, 0x000000C4], .xmSct (plainHead 0 0x83 9 10) (plainMem 0 0 .sys .rlx .i32)),
    ([0x65060084, 0x00000E00, 0x00000080], .xmIcinv (plainHead 0 0x84 0 0) (plainMem 0 0 .dev .rlx .i8))] = true := by decide +kernel

theorem test_decode_xs : readsAll [
    ([0x66000307, 0x00000E00, 0x00001004], .xsLds (plainHead 3 7 0 0) (plainMem 0 16 .team .rlx .i32)),
    ([0x66010087, 0x0C000E00, 0x0000002F], .xsSts (plainHead 0 0x87 12 0) (plainMem 0 0 .team .rel .b128)),
    ([0x66720A07, 0x0B0C0E00, 0x00000835], .xsAtoms (plainHead 10 7 11 12) (plainMem 7 8 .team .acqrel .z32))] = true := by decide +kernel

theorem test_decode_xa : readsAll [
    ([0x67700A02, 0x0B0C0E00, 0x000008B5], .xaAtom (plainHead 10 2 11 12) (plainMem 7 8 .dev .acqrel .z32))] = true := by decide +kernel

theorem test_decode_xo : readsAll [
    ([0x68000000, 0x00000E00, 0x00000060], .xoFence (plainHead 0 0 0 0) (plainMem 0 0 .die .rel .i8)),
    ([0x68010000, 0x00000E00, 0x00000080], .xoSeal (plainHead 0 0 0 0) (plainMem 0 0 .dev .rlx .i8)),
    ([0x68020082, 0x00000E00, 0x00008080], .xoChkr (plainHead 0 0x82 0 0) (plainMem 0 128 .dev .rlx .i8))] = true := by decide +kernel

theorem test_decode_xy : readsAll [
    ([0x69000083, 0x8A000E00, 0x00004001], .xyBari (plainHead 0 0x83 0x8a 0) (plainMem 0 64 .team .rlx .z8)),
    ([0x69010000, 0x00000E00, 0x00000002], .xyBara (plainHead 0 0 0 0) (plainMem 0 0 .team .rlx .i16)),
    ([0x69020000, 0x00000E00, 0x00000002], .xyBarad (plainHead 0 0 0 0) (plainMem 0 0 .team .rlx .i16)),
    ([0x69030000, 0x00010E00, 0x00000000], .xyBarw (plainHead 0 0 0 1) (plainMem 0 0 .team .rlx .i8)),
    ([0x69040A83, 0x00840E00, 0x00000800], .xyBart (plainHead 10 0x83 0 0x84) (plainMem 0 8 .team .rlx .i8)),
    ([0x69050083, 0x00000E00, 0x00000800], .xyBarx (plainHead 0 0x83 0 0) (plainMem 0 8 .team .rlx .i8)),
    ([0x69060000, 0x02000E00, 0x00000000], .xyGbara (plainHead 0 0 2 0) (plainMem 0 0 .team .rlx .i8)),
    ([0x69070000, 0x03000E00, 0x00000000], .xyGbard (plainHead 0 0 3 0) (plainMem 0 0 .team .rlx .i8)),
    ([0x69080000, 0x01010E00, 0x00000000], .xyGbarw (plainHead 0 0 1 1) (plainMem 0 0 .team .rlx .i8))] = true := by decide +kernel

theorem test_decode_xu : readsAll [
    ([0x6A000286, 0x0C000E00, 0x00000000], .xuQpsh (plainHead 2 0x86 12 0) (plainMem 0 0 .team .rlx .i8)),
    ([0x6A010C86, 0x00050E00, 0x00000500], .xuQpop (plainHead 12 0x86 0 5) (plainMem 0 5 .team .rlx .i8)),
    ([0x6A020A00, 0x00000E00, 0x00000500], .xuQst (plainHead 10 0 0 0) (plainMem 0 5 .team .rlx .i8)),
    ([0x6A030000, 0x00000E00, 0x00000000], .xuPhsw (plainHead 0 0 0 0) (plainMem 0 0 .team .rlx .i8)),
    ([0x6A040000, 0x00010E00, 0x000000C0], .xuQuiet (plainHead 0 0 0 1) (plainMem 0 0 .sys .rlx .i8))] = true := by decide +kernel

theorem test_decode_xp : readsAll [
    ([0x6B000190, 0x00000E00, 0x00000080], .xpCpy (plainHead 1 0x90 0 0) (plainMem 0 0 .dev .rlx .i8)),
    ([0x6B010390, 0xA8000E00, 0x00000080], .xpCpyt (plainHead 3 0x90 0xa8 0) (plainMem 0 0 .dev .rlx .i8)),
    ([0x6B020298, 0x00000E00, 0x0001009A], .xpCpyr (plainHead 2 0x98 0 0) (plainMem 0 256 .dev .acq .f32)),
    ([0x6B030088, 0xA8B00E00, 0x00000000], .xpCpym (plainHead 0 0x88 0xa8 0xb0) (plainMem 0 0 .team .rlx .i8)),
    ([0x6B040083, 0x8A000E00, 0x00000000], .xpTlwt (plainHead 0 0x83 0x8a 0) (plainMem 0 0 .team .rlx .i8)),
    ([0x6B050C83, 0x00002E00, 0x00000000], .xpTlrd { plainHead 12 0x83 0 0 with la := 2 } (plainMem 0 0 .team .rlx .i8))] = true := by decide +kernel

theorem test_decode_xx : readsAll [
    ([0x6C001008, 0x0C004E00, 0xCCA00000], .xxMma { plainHead 16 8 12 0 with la := 4 } { ta := .e4m3, tb := .e4m3, tc := .f32, flg := 0, imm := 0 }),
    ([0x6C0103B0, 0x00000E00, 0x00000000], .xxTmma (plainHead 3 0xb0 0 0) { ta := .i8, tb := .i8, tc := .i8, flg := 0, imm := 0 }),
    ([0x6C020000, 0x00000E00, 0x00000003], .xxTzro (plainHead 0 0 0 0) { ta := .i8, tb := .i8, tc := .i8, flg := 0, imm := 3 }),
    ([0x6C031000, 0x00002E00, 0x000002A0], .xxTrd { plainHead 16 0 0 0 with la := 2 } { ta := .i8, tb := .i8, tc := .i8, flg := 0, imm := 672 }),
    ([0x6C040018, 0x00000E00, 0x00000381], .xxTwr (plainHead 0 24 0 0) { ta := .i8, tb := .i8, tc := .i8, flg := 0, imm := 897 }),
    ([0x6C0504B8, 0x00000E00, 0xA0900000], .xxTsto (plainHead 4 0xb8 0 0) { ta := .f32, tb := .i8, tc := .bf16, flg := 0, imm := 0 })] = true := by decide +kernel

theorem test_decode_xr : readsAll [
    ([0x6D001482, 0x00092E00, 0xB00010CA], .xrRld { plainHead 20 0x82 0 9 with la := 2 } { min4 := 0, se := true, sp := 3, off := 16, scope := .sys, ord := .rlx, ty := .f32 }),
    ([0x6D010001, 0x0C8A0E00, 0x000000CF], .xrRst (plainHead 0 1 12 0x8A) { min4 := 0, se := false, sp := 0, off := 0, scope := .sys, ord := .rlx, ty := .b128 }),
    ([0x6D020A02, 0x0C8A0E00, 0x000000F6], .xrRatm (plainHead 10 2 12 0x8a) { min4 := 0, se := false, sp := 0, off := 0, scope := .sys, ord := .acqrel, ty := .i64 }),
    ([0x6D030000, 0x008A0E00, 0x000000C0], .xrRfnc (plainHead 0 0 0 0x8a) { min4 := 0, se := false, sp := 0, off := 0, scope := .sys, ord := .rlx, ty := .i8 })] = true := by decide +kernel

theorem test_decode_xv : readsAll [
    ([0x6E000190, 0x00000E00, 0x00000000], .xvDvt (plainHead 1 0x90 0 0) { ta := .i8, tb := .i8, tc := .i8, flg := 0, imm := 0 }),
    ([0x6E010294, 0x00000E00, 0x00010000], .xvColl (plainHead 2 0x94 0 0) { ta := .i8, tb := .i8, tc := .i8, flg := 1, imm := 0 }),
    ([0x6E020084, 0x00000E00, 0x00000000], .xvNodego (plainHead 0 0x84 0 0) { ta := .i8, tb := .i8, tc := .i8, flg := 0, imm := 0 })] = true := by decide +kernel

theorem test_decode_xz : readsAll [
    ([0x6F000400, 0x00000E00, 0x00000020], .xzCsrr (plainHead 4 0 0 0) { ta := .i8, tb := .i8, tc := .i8, flg := 0, imm := 32 }),
    ([0x6F010009, 0x00000E00, 0x0000002A], .xzCsrw (plainHead 0 9 0 0) { ta := .i8, tb := .i8, tc := .i8, flg := 0, imm := 42 }),
    ([0x6F020600, 0x00000E00, 0x00010000], .xzGett (plainHead 6 0 0 0) { ta := .i8, tb := .i8, tc := .i8, flg := 1, imm := 0 }),
    ([0x6F030600, 0x00001E00, 0x0000000F], .xzPmrd { plainHead 6 0 0 0 with la := 1 } { ta := .i8, tb := .i8, tc := .i8, flg := 0, imm := 15 })] = true := by decide +kernel


/-- Words that are no instruction: the word 0, an unassigned code, a nonzero field that the form does not read, a length that the class does not take. -/
theorem test_decode_refuses : ([[0], [0x09000013], [0x00680000], [0x00600200], [0x06010000], [0x07800000], [0x08900000], [0x60210A04, 0x06000E00, 0],
    [0x60000A04, 0x06000E00], [0x69000083], [0xE8000000, 0xE00, 0, 0, 0], [0x65000880, 0xE00, 0xE]] : List (List Nat)).all
    (fun ws => match decodeWords ws with | .ok _ => false | .error _ => true) = true := by decide +kernel

/-- The words of an instruction, low word first, as one number. -/
theorem test_table_word : decodeTableWord 32 0x00006213 = some (.bviAdd (b3 3 4 9 true none)) ∧ decodeTableWord 32 0 = none ∧
    decodeTableWord 96 0x0000008000000F0068010000 = none ∧ decodeTableWord 96 0x0000008000000E0068010000 = some (.xoSeal (plainHead 0 0 0 0) (plainMem 0 0 .dev .rlx .i8)) := by
  decide +kernel

/-! ## Decisions of the premises, for the proofs below -/

theorem issues_iff {s : State} {g : GangRef} {i : Instr} {info : Info} : Issues s g i info ↔
    s.iss.now.head? = some g ∧ g.bent < 64 ∧ i.wellFormed = true ∧
    (∀ r ∈ g.refs, ∀ q ∈ info.regs, overBudget ((s.team r.tid).budget r.bent) q = false) ∧
    (info.bentScope = true → ∀ r ∈ g.refs, (s.slice r).tmode = false) ∧ (∀ r ∈ g.refs, (s.slice r).tokens &&& tokenMask info = 0) ∧
    (∀ r ∈ g.refs, ∀ p ∈ (s.slice r).pend, ∀ q ∈ p.regs, q ∉ info.regs) ∧ (info.waitFlags = true → ∀ r ∈ g.refs, (s.slice r).pend = []) :=
  ⟨fun ⟨a, b, c, d, e, f, k, l⟩ => ⟨a, b, c, d, e, f, k, l⟩, fun ⟨a, b, c, d, e, f, k, l⟩ => ⟨a, b, c, d, e, f, k, l⟩⟩

theorem lone_iff {s : State} {g : GangRef} {r : SliceRef} {i : Instr} {info : Info} : Lone s g r i info ↔
    Issues s g i info ∧ g.refs = [r] ∧ s.mem.ops = [] ∧ s.mem.migs = [] ∧ s.mem.ranges = [] :=
  ⟨fun ⟨a, b, c, d, e⟩ => ⟨a, b, c, d, e⟩, fun ⟨a, b, c, d, e⟩ => ⟨a, b, c, d, e⟩⟩

theorem alone_iff {s : State} {g : GangRef} {r : SliceRef} : Alone s g r ↔
    g.refs = [r] ∧ (s.slice r).pend = [] ∧ (s.slice r).tmode = false ∧ (s.team r.tid).desc.handler ≠ 0xFFFFFFFF ∧
    (s.ccb (s.team r.tid).hp (s.team r.tid).ctx).tlogon = false ∧ (s.slice r).moveTo = none ∧ s.iss.fused = false ∧ s.mem.blocked = false :=
  ⟨fun ⟨a, b, c, d, e, f, k, l⟩ => ⟨a, b, c, d, e, f, k, l⟩, fun ⟨a, b, c, d, e, f, k, l⟩ => ⟨a, b, c, d, e, f, k, l⟩⟩

theorem cached_iff {s : State} {cl hp ctx va : Nat} {acc : Access} {e : TlbEntry} : Cached s cl hp ctx acc va e ↔
    canonical va = true ∧ tlbFind hp ctx va (s.l1Tlb cl) = some e ∧ e.allows acc = true ∧ (isWrite acc = true → e.dirty = true) ∧
    s.reachable hp e.keyid (e.pa + va % 2 ^ e.size) = true :=
  ⟨fun ⟨a, b, c, d, e⟩ => ⟨a, b, c, d, e⟩, fun ⟨a, b, c, d, e⟩ => ⟨a, b, c, d, e⟩⟩

theorem sole_iff {s : State} {o : Op} {e : Elem} : Sole s o e ↔
    (o.ref.bent < 64 ∧ o.ref.sl < 8) ∧ s.mem.ops = [o] ∧ o.elems = [e] ∧ s.mem.migs = [] ∧ e.pa < scratchBase ∧
    s.reachable (s.team o.ref.tid).hp e.key e.pa = true ∧ s.poisoned e.pa e.size = false ∧ o.performed = false ∧ o.got = [] ∧ o.poisoned = 0 :=
  ⟨fun ⟨a, b, c, d, e, f, k, l⟩ => ⟨a, b, c, d, e, f, k, l⟩, fun ⟨a, b, c, d, e, f, k, l⟩ => ⟨a, b, c, d, e, f, k, l⟩⟩

/-- The translation that the page tables give an engine. -/
def served (s : State) (hp ctx : Nat) (acc : Access) (va : Nat) : Option TlbEntry :=
  match s.walk hp ctx va with
  | .leaf _ _ pte => if bitOf pte 5 = true ∧ (isWrite acc = true → bitOf pte 6 = true) then some (tlbOf hp ctx va pte (isWrite acc || bitOf pte 6)) else none
  | _ => none

theorem served_iff {s : State} {hp ctx va : Nat} {acc : Access} {e : TlbEntry} : (∃ level at_ pte, s.walk hp ctx va = .leaf level at_ pte ∧
    bitOf pte 5 = true ∧ (isWrite acc = true → bitOf pte 6 = true) ∧ e = tlbOf hp ctx va pte (isWrite acc || bitOf pte 6)) ↔ served s hp ctx acc va = some e := by
  unfold served
  constructor
  · rintro ⟨level, at_, pte, hw, ha, hd, rfl⟩
    simp only [hw]
    rw [if_pos ⟨ha, hd⟩]
  · intro h
    split at h
    · next level at_ pte hw =>
        split at h
        · next hc => exact ⟨level, at_, pte, hw, hc.1, hc.2, (Option.some.inj h).symm⟩
        · cases h
    · cases h

theorem serves_iff {s : State} {hp ctx : Nat} {acc : Access} {va : Nat} {e : TlbEntry} : Serves s hp ctx acc va e ↔
    canonical va = true ∧ served s hp ctx acc va = some e ∧ s.walkHeld hp va 5 (s.ccb hp ctx).ptroot = false ∧ e.allows acc = true ∧
    s.reachable hp e.keyid (physical e va) = true ∧ s.engineAt (isWrite acc) (physical e va) = physical e va ∧
    s.mustHold (isWrite acc) (physical e va) (4096 - va % 4096) = false :=
  ⟨fun ⟨a, b, c, d, e, f, k⟩ => ⟨a, served_iff.mp b, c, d, e, f, k⟩, fun ⟨a, b, c, d, e, f, k⟩ => ⟨a, served_iff.mpr b, c, d, e, f, k⟩⟩

@[reducible] def issuesDec {s : State} {g : GangRef} {i : Instr} {info : Info} : Decidable (Issues s g i info) := decidable_of_iff _ issues_iff.symm
@[reducible] def loneDec {s : State} {g : GangRef} {r : SliceRef} {i : Instr} {info : Info} : Decidable (Lone s g r i info) :=
  have := @issuesDec
  decidable_of_iff _ lone_iff.symm
@[reducible] def aloneDec {s : State} {g : GangRef} {r : SliceRef} : Decidable (Alone s g r) := decidable_of_iff _ alone_iff.symm
@[reducible] def hitDec {s : State} {cl hp ctx va : Nat} {acc : Access} {e : TlbEntry} : Decidable (Cached s cl hp ctx acc va e) := decidable_of_iff _ cached_iff.symm
@[reducible] def soleDec {s : State} {o : Op} {e : Elem} : Decidable (Sole s o e) := decidable_of_iff _ sole_iff.symm
@[reducible] def servesDec {s : State} {hp ctx : Nat} {acc : Access} {va : Nat} {e : TlbEntry} : Decidable (Serves s hp ctx acc va e) :=
  decidable_of_iff _ serves_iff.symm
@[reducible] def holdsDec {s : State} {hp ctx va : Nat} {bs : List Byte} : Decidable (Holds s hp ctx va bs) :=
  have := @servesDec
  decidable_of_iff (∃ e ∈ served s hp ctx .read va, Serves s hp ctx .read va e ∧ va % 4096 + bs.length ≤ 4096 ∧
      s.poisoned (physical e va) bs.length = false ∧ memReadN s.mem.bytes (physical e va) bs.length = bs)
    ⟨fun ⟨e, _, h⟩ => ⟨e, h⟩, fun ⟨e, h⟩ => ⟨e, (serves_iff.mp h.1).2.1, h⟩⟩
@[reducible] def startsDec {s : State} {e : Entry} {k : Nat} : Decidable (Starts s e k) :=
  inferInstanceAs (Decidable (s.entry? e.eid = some e ∧ e.stage = 3 ∧ e.kind = k ∧ (s.ccb e.hp e.ctx).state ≠ 3))
@[reducible] def plainDec {e : Entry} : Decidable (Plain e) := inferInstanceAs (Decidable (e.tlid = 0 ∧ e.irq = false ∧ e.node = none))
@[reducible] def soundDec {e : Entry} : Decidable (Sound e) :=
  inferInstanceAs (Decidable (e.kind ≤ 8 ∧ (e.kind = 2 → e.field 305 304 ≠ 3) ∧ e.field 15 10 = 0 ∧ e.field 23 18 = 0 ∧ e.tlid = 0 ∧ bodyFault e = 0))
@[reducible] def validDec {r : SliceRef} : Decidable (valid r) := inferInstanceAs (Decidable (r.bent < 64 ∧ r.sl < 8))

@[reducible] def okDec {α : Type} [DecidableEq α] {x : Except FaultInfo α} {a : α} : Decidable (x = .ok a) :=
  decidable_of_iff (x.toOption = some a) (by cases x <;> simp [Except.toOption])

@[reducible] def someDec {α : Type} {o : Option α} {P : α → Prop} [∀ a, Decidable (P a)] : Decidable (∃ k, o = some k ∧ P k) :=
  decidable_of_iff (∃ k ∈ o, P k) Iff.rfl
@[reducible] def allSomeDec {α : Type} {o : Option α} {P : α → Prop} [∀ a, Decidable (P a)] : Decidable (∀ k, o = some k → P k) :=
  decidable_of_iff (∀ k ∈ o, P k) Iff.rfl
@[reducible] def quietDec {w : Wait} : Decidable (∃ sc tag left, w = .quiet sc tag left) :=
  decidable_of_iff ((match w with | .quiet _ _ _ => true | _ => false) = true) (by cases w <;> simp)
@[reducible] def absentDec {w : Walk} : Decidable (∃ level mig, w = .absent level mig) :=
  decidable_of_iff ((match w with | .absent _ _ => true | _ => false) = true) (by cases w <;> simp)
@[reducible] def clientDec {c : Client} {P : Nat → Prop} [∀ id, Decidable (P id)] : Decidable (∀ id, c ≠ .op id ∧ (c = .copy id → P id)) :=
  match c with
  | .op n => .isFalse fun h => (h n).1 rfl
  | .copy n => decidable_of_iff (P n) ⟨fun h id => ⟨by simp, fun e => by injection e with e; exact e ▸ h⟩, fun h => (h n).2 rfl⟩
  | .none => .isTrue fun _ => ⟨by simp, fun h => by cases h⟩
  | .mig _ => .isTrue fun _ => ⟨by simp, fun h => by cases h⟩

/-- A property of the 2^k numbers from `a` on. -/
def allFrom (p : Nat → Bool) : Nat → Nat → Bool
  | 0, a => p a
  | k + 1, a => allFrom p k a && allFrom p k (a + 2 ^ k)

theorem all_from {p : Nat → Bool} : ∀ {k a : Nat}, allFrom p k a = true → ∀ b, a ≤ b → b < a + 2 ^ k → p b = true
  | 0, a, h, b, h1, h2 => by rwa [show b = a by omega]
  | k + 1, a, h, b, h1, h2 => by
    obtain ⟨h3, h4⟩ := Bool.and_eq_true_iff.mp h
    by_cases hb : b < a + 2 ^ k
    · exact all_from h3 b h1 hb
    · exact all_from h4 b (by omega) (by omega)

theorem decided {p : Prop} (d : Decidable p) (h : @decide p d = true) : p := @of_decide_eq_true p d h

/-! ## States that meet the hypotheses of the statements -/

/-- A team of one bent whose gang of eight slices issues next; a gang of one slice; and these with a change to every slice or to the team. -/
def eight : State := State.reset.withGang
def only : GangRef := { tid := 0, bent := 0, mask := 1 }
def first : SliceRef := { tid := 0, bent := 0, sl := 0 }
def second : SliceRef := { tid := 0, bent := 0, sl := 1 }
def one : State := { eight with iss := { Issue.reset with now := [only] }, gangs := [(0, [{ mask := 1, waiting := 0, readyAt := 0 }])] }
def slicesOf (f : Slice → Slice) (s : State) : State := { s with slices := s.slices.map fun p => (p.1, f p.2) }
def sliceAt (k : Nat) (f : Slice → Slice) (s : State) : State := { s with slices := s.slices.map fun p => if p.1 = k then (p.1, f p.2) else p }
def teamOf (f : Team → Team) (s : State) : State := { s with teams := s.teams.map fun p => (p.1, f p.2) }
def memOf (f : MemSys → MemSys) (s : State) : State := { s with mem := f s.mem }
def released (s : State) : State := slicesOf (fun x => { x with wait := .released }) s
def scalars (n : Nat) (ws : List Nat) (x : Slice) : Slice := ws.zipIdx.foldl (fun x p => x.setS (n + p.2) (BitVec.ofNat 32 p.1)) x
def lanesAt (n : Nat) (f : Nat → Nat) (x : Slice) : Slice := [0, 1, 2, 3].foldl (fun x j => x.setV n j (BitVec.ofNat 32 (f j))) x
def trapping : State := slicesOf (fun x => { x with tmode := true, trap := { x.trap with tpc := 0x10080, texec := 5 } }) one
def noHandler : State := teamOf (fun t => { t with desc := { t.desc with handler := 0xFFFFFFFF } }) one

/-- A slice with this pending; the windows and the tokens that keep an instruction from issuing. -/
def pendingAt (pid window : Nat) (result : Option (List RegWrite)) : Pending :=
  { pid := pid, regs := [.v 4], window := window, pc := 0x10000, inst := 5, result := result, flags := 3, fault := none, queued := false }
def waiting (window : Nat) (s : State) : State := slicesOf (fun x => { x with pend := [pendingAt 9 window none] }) s

/-- Bytes of memory, and page tables that map the page at 0x10000 and the one at 0x20000, this with further attributes; A and D are set. -/
def store (a n v : Nat) (s : State) : State := memOf (fun m => { m with bytes := memWriteN m.bytes a (bytesOfNat n v) }) s
def ccbOf (f : Ccb → Ccb) (s : State) : State := { s with ccbs := smSet 0 (f (s.ccb 0 0)) s.ccbs }
def mapped (attr : Nat) (s : State) : State :=
  let s := store 0x80000 16 0x82001 (store 0x82000 16 0x84001 (store 0x84000 16 0x86001 (store 0x86000 16 0x88001 s)))
  ccbOf (fun c => { c with ptroot := 0x80000 }) (store 0x88100 16 0x1006F (store 0x88200 16 (0x2006F + attr) s))

/-- An operation, a copy packet and a pool entry as the tests need them, all else plain. -/
def opOf (kind : OpKind) (elems : List Elem) : Op :=
  { id := 5, ref := first, cls := .l, scope := .dev, kind := kind, elems := elems, msa := false, host := false, acks := [], acked := none,
    performed := false, arrived := false, lacking := [], injected := false, failed := false, pid := none, pc := 0x10000, inst := 5, ints := [],
    epoch := none, need := 0, tag := false, got := [], poisoned := 0, stat := [], clear := true, grp := 5 }
def copyOf (dst src len : Nat) : Copy :=
  { cid := 3, engine := 0, hp := 0, ctx := 0, cls := 0, eid := none, ref := first, token := 1, op := 0, scope := .dev, dsp := 0, ssp := 0, dst := dst,
    src := src, len := len, ety := .i32, rop := 0, thresh := 0, desc := none, tlid := 0, tlval := 0, bar := none, marked := false, follow := none,
    block := [], pc := 0x10000, inst := 5, tag := false, started := true, next := 0, applied := [], segbase := 0, status := 0, failva := 0, bad := none,
    halted := false, pos := { idx := 0, src := 0, seg := 0, dst := 0, mark := 0 }, waits := [], abandoned := false, placing := false, arrived := false, lost := none }
def opsOf (ops : List Op) (s : State) : State := memOf (fun m => { m with ops := ops, nextOp := 20 }) s
def copiesOf (cs : List Copy) (s : State) : State := { s with copy := { s.copy with copies := cs } }
/-- A pool entry at a stage, of a packet of this kind with these words after the header (01 R34). -/
def entryOf (eid kind stage : Nat) (body : List (Nat × Nat)) : Entry :=
  { eid := eid, hp := 0, ctx := 0, node := none, q := 0, idx := 0,
    pkt := bytesOfNat 64 (kind + (body.map fun p => p.2 * 2 ^ p.1).sum), admitted := 0, ready := 0, level := 0, stage := stage, die := 0, engine := 0, until_ := 0, tag := false }
def entriesOf (es : List Entry) (s : State) : State := { s with dist := { s.dist with entries := es } }
def launchOf (gx : Nat) : Launch :=
  { lid := 7, eid := 9, hp := 0, ctx := 0, descVa := 0x20000, desc := fetchTeam.desc, gtab := 0, slots := [[0]], words := [2 + 2 ^ 16], loaded := true, gx := gx,
    gy := 1, gz := 1, args := 0x123456789, die := 0, next := 0, live := 0, killed := false, imageOff := 0 }
def launchesOf (ls : List Launch) (s : State) : State := { s with dist := { s.dist with launches := ls } }

def b3Ends : List B3 := [b3 0 63 0 false none, b3 63 0 63 true none, b3 1 2 0 false (some 7)]
def bjEnds : List BJ := [{ s := 0, off := 0x1FFF, lit := none }, { s := 0, off := 0x2000, lit := none }, { s := 0, off := 0, lit := some 0x10040 }]

theorem witness_BaseInteger :
    (∀ c ∈ [Instr.bviAdd, .bviSub, .bviMul, .bviMin, .bviMax, .bviAnd, .bviOr, .bviXor, .bviAndn, .bviShl, .bviShr, .bviSar], ∀ o ∈ b3Ends,
      Issues eight fetchGang (c o) { regs := [.v o.d.toNat, .v o.a.toNat] ++ B3.bRegs o false }) ∧
    (∀ c ∈ [Instr.bsiAdd, .bsiSub, .bsiMul, .bsiMin, .bsiMax, .bsiAnd, .bsiOr, .bsiXor, .bsiAndn, .bsiShl, .bsiShr, .bsiSar], ∀ o ∈ b3Ends,
      Issues eight fetchGang (c o) { regs := [.s o.d.toNat, .s o.a.toNat] ++ B3.bRegs o true }) ∧
    (∀ o ∈ [b3 63 0 63 true none, b3 0 0 0 false (some 7)], Issues eight fetchGang (.bviMov o) { regs := [.v o.d.toNat] ++ B3.bRegs o false } ∧
      Issues eight fetchGang (.bsiMov o) { regs := [.s o.d.toNat] ++ B3.bRegs o true }) ∧
    (∀ o ∈ [({ d := 63, a := 0, imm := 0x1FF, lit := none } : BI), { d := 0, a := 0, imm := 0, lit := some 7 }],
      (∀ c ∈ [Instr.bviiAdd, .bviiAnd, .bviiOr, .bviiXor, .bviiShl, .bviiShr, .bviiSar], Issues eight fetchGang (c o) { regs := [.v o.d.toNat, .v o.a.toNat] }) ∧
      (∀ c ∈ [Instr.bsiiAdd, .bsiiAnd, .bsiiOr, .bsiiXor, .bsiiShl, .bsiiShr, .bsiiSar], Issues eight fetchGang (c o) { regs := [.s o.d.toNat, .s o.a.toNat] }) ∧
      Issues eight fetchGang (.bviiMov o) { regs := [.v o.d.toNat] } ∧ Issues eight fetchGang (.bsiiMov o) { regs := [.s o.d.toNat] }) := by
  exact decided (by have := @issuesDec; infer_instance) (by decide +kernel)

theorem witness_BaseFloat : ∀ o ∈ [b3 63 0 63 true none, b3 0 63 0 false none],
    (∀ c ∈ [Instr.bvfFadd, .bvfFsub, .bvfFmul, .bvfFmin, .bvfFmax, .bvfFfma, .bvhFaddF16x2, .bvhFsubF16x2, .bvhFmulF16x2, .bvhFminF16x2, .bvhFmaxF16x2,
        .bvhFfmaF16x2, .bvhFaddBf16x2, .bvhFsubBf16x2, .bvhFmulBf16x2, .bvhFminBf16x2, .bvhFmaxBf16x2, .bvhFfmaBf16x2],
      Issues eight fetchGang (c o) { regs := [.v o.d.toNat, .v o.a.toNat] ++ B3.bRegs o false }) ∧
    ∀ c ∈ [Instr.bvfFrcp, .bvfFrsq, .bvfFsqrt, .bvfFex2, .bvfFlg2], Issues eight fetchGang (c (b3 63 63 0 false none)) { regs := [.v 63, .v 63] } := by
  exact decided (by have := @issuesDec; infer_instance) (by decide +kernel)

/-- Extended forms at their last registers: an unguarded vector form of a 64-bit type, a guarded scalar form with an immediate. -/
def headV : Head := plainHead 254 252 250 248
def headS : Head := { plainHead 62 60 0 0 with gp := 1, gn := true, wk := 0x80 }
def arithS (t : Ty) : Arith := { plainArith t with ka := true, bi := true, imm := 0xFFFFF }

theorem witness_ExtInteger :
    (∀ p ∈ [(Instr.xiAdd, xi2 true), (.xiSub, xi2 true), (.xiMul, xi2 true), (.xiMulh, xiWide), (.xiMin, xi2 false), (.xiMax, xi2 false), (.xiAnd, xiWide), (.xiOr, xiWide),
        (.xiXor, xiWide), (.xiAndn, xiWide), (.xiOrn, xiWide), (.xiShl, xi2 false), (.xiShr, xi2 false), (.xiSar, xi2 false), (.xiRol, xi2 false), (.xiBfx, xiWide)],
      Issues eight fetchGang (p.1 { headV with c := 0 } (plainArith .z64)) (Head.info { headV with c := 0 } (arithRegs p.2 { headV with c := 0 } (plainArith .z64) ++ guardRegs headV)) ∧
      Issues eight fetchGang (p.1 headS (arithS .i64)) (Head.info headS (arithRegs p.2 headS (arithS .i64) ++ guardRegs headS))) ∧
    (∀ p ∈ [(Instr.xiMad, xi3 Ty.isInt true .i64), (.xiShf, xi3 Ty.isWideInt false .i64), (.xiBfi, xi3 Ty.isWideInt false .i64)],
      Issues eight fetchGang (p.1 headV (plainArith .i64)) (Head.info headV (arithRegs p.2 headV (plainArith .i64) ++ guardRegs headV))) ∧
    (∀ p ∈ [(Instr.xiAbs, xi1 Ty.isInt true), (.xiNeg, xi1 Ty.isInt true), (.xiNot, xi1 Ty.isWideInt), (.xiClz, xi1 Ty.isInt), (.xiCtz, xi1 Ty.isInt), (.xiPopc, xi1 Ty.isInt), (.xiBrev, xi1 Ty.isInt)],
      Issues eight fetchGang (p.1 (plainHead 254 0 0 0) (plainArith .i64)) (Head.info (plainHead 254 0 0 0) (arithRegs p.2 (plainHead 254 0 0 0) (plainArith .i64) ++ guardRegs headV))) ∧
    Issues eight fetchGang (.xiBperm headV (plainArith .i32)) (Head.info headV (arithRegs (xi3 Ty.isWideInt false .i32) headV (plainArith .i32) ++ guardRegs headV)) ∧
    Issues eight fetchGang (.xiMov (plainHead 252 0 0 0) (plainArith .b128)) (Head.info (plainHead 252 0 0 0) (arithRegs movRule (plainHead 252 0 0 0) (plainArith .b128) ++ guardRegs headV)) ∧
    (∀ c ∈ [Instr.xiAddc, .xiSubb], Issues eight fetchGang (c headV (plainArith .i64)) (Head.info headV (arithRegs carryRule headV (plainArith .i64) ++ guardRegs headV))) ∧
    Issues eight fetchGang (.xiSel (plainHead 255 0 0 7) (plainArith .i8)) (Head.info (plainHead 255 0 0 7) (arithRegs selRule (plainHead 255 0 0 7) (plainArith .i8) ++ guardRegs headV)) ∧
    Issues eight fetchGang (.xiIset (plainHead 7 0 0 5) (plainArith .i8)) (Head.info (plainHead 7 0 0 5) (arithRegs isetRule (plainHead 7 0 0 5) (plainArith .i8) ++ guardRegs headV)) ∧
    Issues eight fetchGang (.xiLea (plainHead 254 0 0 7) (plainArith .i32)) (Head.info (plainHead 254 0 0 7) (arithRegs leaRule (plainHead 254 0 0 7) (plainArith .i32) ++ guardRegs headV)) := by
  exact decided (by have := @issuesDec; infer_instance) (by decide +kernel)

/-- R46, R154: the operands that the clauses about values name: a NaN that signals, infinities of both signs, finite values. -/
theorem witness_ArithmeticValues : ((fmtF32.decode 0x7F800001).isSig = true ∧ (fmtF32.decode 0x7FC00000).isNan = true) ∧
    fmtF32.decode 0x7F800000 = .inf false ∧ fmtF32.decode 0xFF800000 = .inf true ∧ (∃ p q, fmtF32.decode 0x3F800000 = .fin p ∧ fmtF32.decode 0x80000000 = .fin q) := by
  refine ⟨by decide +kernel, by decide +kernel, by decide +kernel, _, _, rfl, rfl⟩

theorem witness_ExtFloat :
    (∀ p ∈ [(Instr.xfFadd, xf2 true true), (.xfFsub, xf2 true true), (.xfFmul, xf2 true true), (.xfFmin, xf2 false false), (.xfFmax, xf2 false false)],
      Issues eight fetchGang (p.1 headS (arithS .f64)) (Head.info headS (arithRegs p.2 headS (arithS .f64) ++ guardRegs headS))) ∧
    Issues eight fetchGang (.xfFfma headV (plainArith .f64)) (Head.info headV (arithRegs (ffmaRule .f64) headV (plainArith .f64) ++ guardRegs headV)) ∧
    (∀ p ∈ [(Instr.xfFrnd, xf1 Ty.isFloat true false), (.xfFrcp, xf1 isF3264 true true), (.xfFrsq, xf1 isF3264 false false), (.xfFsqrt, xf1 isF3264 true true),
        (.xfFex2, xf1 isF32 false false), (.xfFlg2, xf1 isF32 false false)],
      Issues eight fetchGang (p.1 (plainHead 255 255 0 0) (plainArith .f32)) (Head.info (plainHead 255 255 0 0) (arithRegs p.2 (plainHead 255 255 0 0) (plainArith .f32) ++ guardRegs headV))) ∧
    Issues eight fetchGang (.xfFset (plainHead 7 0 0 7) (plainArith .f16)) (Head.info (plainHead 7 0 0 7) (arithRegs fsetRule (plainHead 7 0 0 7) (plainArith .f16) ++ guardRegs headV)) ∧
    Issues eight fetchGang (.xfFclass (plainHead 255 0 0 0) (plainArith .bf16)) (Head.info (plainHead 255 0 0 0) (arithRegs fclassRule (plainHead 255 0 0 0) (plainArith .bf16) ++ guardRegs headV)) := by
  exact decided (by have := @issuesDec; infer_instance) (by decide +kernel)

theorem witness_ConvertAndDot :
    Issues eight fetchGang (.xqCvt (plainHead 255 254 0 11) (plainArith .e4m3)) (Head.info (plainHead 255 254 0 11) (arithRegs (cvtRule (plainHead 255 254 0 11)) (plainHead 255 254 0 11) (plainArith .e4m3) ++ guardRegs headV)) ∧
    Issues eight fetchGang (.xqDot4 (plainHead 255 0 1 2) (plainArith .e5m2)) (Head.info (plainHead 255 0 1 2) (arithRegs dotRule (plainHead 255 0 1 2) (plainArith .e5m2) ++ guardRegs headV)) ∧
    Issues eight fetchGang (.xqDot8 (plainHead 255 0 1 2) (plainArith .e2m1)) (Head.info (plainHead 255 0 1 2) (arithRegs dotRule (plainHead 255 0 1 2) (plainArith .e2m1) ++ guardRegs headV)) := by
  exact decided (by have := @issuesDec; infer_instance) (by decide +kernel)

theorem witness_Branches :
    (∀ o ∈ bjEnds, (∀ r ∈ fetchGang.refs, (baseTarget o (eight.slice r)).toNat % 4 = 0) ∧
      (∀ p ∈ ([(.bbrBra o, []), (.bbrBrcNz o, [.s 0]), (.bbrBrcZ o, [.s 0]), (.bbrBrcAny o, [.p 0]), (.bbrBrcAll o, [.p 0]), (.bbrBrcNone o, [.p 0]),
          (.bbrBrez o, []), (.bbrLoop o, [.s 0]), (.bbrCall o, [.s 62, .s 63])] : List (Instr × List Reg)),
        Issues eight fetchGang p.1 { regs := p.2, branch := true })) ∧
    (∀ r ∈ fetchGang.refs, (extTarget (plainHead 0 0 0 0) { off := 0x800000, cnd := 0, rsv := 0 } (eight.slice r)).toNat % 4 = 0 ∧ (eight.slice r).sliceOn 7 false = true) ∧
    Issues eight fetchGang (.xcBra (plainHead 0 0 0 0) { off := 0x800000, cnd := 0, rsv := 0 }) { Head.info (plainHead 0 0 0 0) (guardRegs headV) with branch := true } ∧
    Issues eight fetchGang (.xcBrc (plainHead 0 63 0 0) { off := 0x800000, cnd := 1, rsv := 0 }) { Head.info (plainHead 0 63 0 0) (condRegs (plainHead 0 63 0 0) { off := 0x800000, cnd := 1, rsv := 0 } ++ guardRegs headV) with branch := true } ∧
    Issues eight fetchGang (.xcCall (plainHead 0 0 0 0) { off := 0x800000, cnd := 0, rsv := 0 }) { Head.info (plainHead 0 0 0 0) ([.s 62, .s 63] ++ guardRegs headV) with branch := true } ∧
    (∀ r ∈ fetchGang.refs, (pairAt 62 (eight.slice r)).toNat % 4 = 0) ∧
    Issues eight fetchGang (.bctRet (bs 0 0 0 none)) { regs := [.s 62, .s 63], branch := true } ∧
    Issues eight fetchGang (.bctJmpr (bs 0 62 0 none)) { regs := [.s 62, .s 63], branch := true } ∧
    Issues eight fetchGang (.bctCallr (bs 0 62 0 none)) { regs := [.s 62, .s 63, .s 62, .s 63], branch := true } := by
  exact decided (by have := @issuesDec; infer_instance) (by decide +kernel)

theorem witness_ExecMask : ∀ p ∈ ([(.bctNop (bs 0 0 0 none), {}), (.bctWaitk (bs 0 3 63 none), { wk := 0xFF }), (.bctExsave (bs 63 0 7 none), { regs := [.s 63, .p 7] }),
    (.bctExelse (bs 0 63 0 none), { regs := [.s 63] }), (.bctExrest (bs 0 0 0 none), { regs := [.s 0] }), (.bctExset (bs 0 0 0 none), { regs := [.s 0] }),
    (.bctExget (bs 63 0 0 none), { regs := [.s 63] })] : List (Instr × Info)), Issues eight fetchGang p.1 p.2 := by
  exact decided (by have := @issuesDec; infer_instance) (by decide +kernel)

theorem witness_SpecialReads : (∀ r ∈ fetchGang.refs, flagsDue eight r = false) ∧
    ∀ p ∈ ([(.bctGmask (bs 63 0 0 none), { regs := [.s 63] }), (.bctGwidth (bs 0 0 0 none), { regs := [.s 0] }), (.bctSrd (bs 63 0 0 none), { regs := [.s 63], waitFlags := true }),
      (.bctSrd (bs 0 4 15 none), { regs := [.s 0], waitFlags := false }),
      (.xzCsrr (plainHead 63 0 0 0) (command .i8 .i8 .i8 0 0), { Head.info (plainHead 63 0 0 0) [.s 63] with waitFlags := true }),
      (.xzCsrr headS (command .i8 .i8 .i8 0 0x1002), { Head.info headS ([.s 62] ++ guardRegs headS) with waitFlags := false })] : List (Instr × Info)),
      p.1.wellFormed = true → Issues eight fetchGang p.1 p.2 := by
  exact decided (by have := @issuesDec; infer_instance) (by decide +kernel)

theorem witness_SpecialWrites : ∀ p ∈ ([0, 0x10F].map fun n =>
    (.xzCsrw (plainHead 0 63 0 0) (command .i8 .i8 .i8 0 n), Head.info (plainHead 0 63 0 0) [.s 63]) : List (Instr × Info)), Issues one only p.1 p.2 := by
  exact decided (by have := @issuesDec; infer_instance) (by decide +kernel)

theorem witness_TimeAndCounters : ∀ p ∈ ([(.xzGett (plainHead 62 0 0 0) (command .i8 .i8 .i8 0 0), Head.info (plainHead 62 0 0 0) (regGroup true 2 62)),
    (.xzGett (plainHead 62 0 0 0) (command .i8 .i8 .i8 1 0), Head.info (plainHead 62 0 0 0) (regGroup true 2 62)),
    (.xzPmrd { plainHead 62 0 0 0 with la := 15 } (command .i8 .i8 .i8 0 15), Head.info { plainHead 62 0 0 0 with la := 15 } (regGroup true 2 62))] : List (Instr × Info)),
    Issues eight fetchGang p.1 p.2 := by
  exact decided (by have := @issuesDec; infer_instance) (by decide +kernel)

theorem witness_LongFloat : ∀ c ∈ [Instr.xfFsin, .xfFcos, .xfFtanh], ∀ la ∈ [0, 15],
    Issues eight fetchGang (c { plainHead 255 0 0 0 with la := la } (plainArith .f32))
      (Head.info { plainHead 255 0 0 0 with la := la } (arithRegs (xf1 isF32 false false) (plainHead 255 0 0 0) (plainArith .f32) ++ guardRegs headV)) := by
  exact decided (by have := @issuesDec; infer_instance) (by decide +kernel)

theorem witness_ExitRegangYield : ∀ p ∈ ([(.bctExit (bs 0 0 0 none), {}), (.bctRegang (bs 0 0 0 none), { bentScope := true }), (.bctYield (bs 0 0 0 none), {})] : List (Instr × Info)),
    Issues eight fetchGang p.1 p.2 := by
  exact decided (by have := @issuesDec; infer_instance) (by decide +kernel)

theorem witness_TrapsAndReturn :
    (∀ i ∈ [Instr.bctTrap (bs 0 0 63 none), .bctBrkpt (bs 0 0 0 none), .bctRft (bs 0 0 0 none)], Issues one only i {} ∧ Alone one only first) ∧
    (Issues trapping only (.bctRft (bs 0 0 0 none)) {} ∧ only.refs = [first] ∧ (trapping.slice first).tmode = true ∧ (trapping.slice first).trap.tpc.toNat % 4 = 0) ∧
    (∀ s ∈ [trapping, noHandler], Issues s only (.bctTrap (bs 0 0 1 none)) {} ∧ only.refs = [first] ∧ (s.slice first).pend = [] ∧
      (s.ccb (s.team 0).hp (s.team 0).ctx).tlogon = false ∧ (s.team 0).stopped = false ∧ (s.slice first).moveTo = none ∧ s.iss.fused = false ∧
      s.mem.blocked = false ∧ ((s.slice first).tmode = true ∨ (s.team 0).desc.handler = 0xFFFFFFFF)) ∧
    (∀ k ∈ [1, 2, 3], let s := slicesOf (scalars 62 [0x10040 + k]) one
      Alone s only first ∧ (pairAt 62 (s.slice first)).toNat % 4 ≠ 0 ∧ ∀ p ∈ ([(.bctRet (bs 0 0 0 none), [.s 62, .s 63]), (.bctJmpr (bs 0 62 0 none), [.s 62, .s 63]),
        (.bctCallr (bs 0 62 0 none), [.s 62, .s 63, .s 62, .s 63])] : List (Instr × List Reg)), Issues s only p.1 { regs := p.2, branch := true }) := by
  exact decided (by have := @issuesDec; have := @aloneDec; infer_instance) (by decide +kernel)

def addIssue : Instr := .bviAdd (b3 4 8 12 false none)

theorem witness_IssueChecks :
    (Instr.bviMov (b3 4 1 0 false none)).wellFormed = false ∧ addIssue.wellFormed = true ∧
    ((teamOf (fun t => { t with desc := { t.desc with vregs := 8 } }) one).team 0).budget 0 ≤ 8 ∧
    (∀ q ∈ [Reg.v 4, .v 8, .v 12], overBudget ((one.team 0).budget 0) q = false) ∧ (trapping.slice first).tmode = true ∧
    ((slicesOf (fun x => { x with tokens := 0x80 }) one).slice first).tokens &&& tokenMask { wk := 0x80 } ≠ 0 ∧
    (∃ p ∈ ((waiting 1 one).slice first).pend, .v 4 ∈ p.regs ∧ 0 < p.window) ∧ (∃ p ∈ ((waiting 0 one).slice first).pend, .v 4 ∈ p.regs ∧ p.window = 0) ∧
    one.iss.now.head? = some only ∧ only.refs = [first] ∧
    precheck addIssue { regs := [.v 4, .v 8, .v 12] } (waiting 0 one).popIssue first = .stall .pending ∧ precheck addIssue { regs := [.v 4, .v 8, .v 12] } one first = .go := by
  refine ⟨?_, ?_, ?_, ?_, ?_, ?_, ?_, ?_, ?_, ?_, rfl, rfl⟩ <;> decide +kernel

/-- R133: operands of every scope and of both widths; for a scope of the bent the slices have been released together. -/
theorem witness_CrossLane : ∀ ls ∈ [(0 : BitVec 2), 1, 2],
    (∀ r ∈ fetchGang.refs, ((released eight).slice r).wait = .released) ∧
    (let w := { cross .f64 ls 3 0 with fl := true }
     Issues (released eight) fetchGang (.xlShfl (plainHead 254 252 1 250) w)
       { Head.info (plainHead 254 252 1 250) (regGroup false 2 254 ++ regGroup false 2 252 ++ [.v 1] ++ regGroup false 2 250 ++ guardRegs headV) with bentScope := ls == 2 }) ∧
    Issues (released eight) fetchGang (.xlVote (plainHead 63 0 0 0) (cross .i8 ls 3 7)) { Head.info (plainHead 63 0 0 0) ([.s 63, .p 7] ++ guardRegs headV) with bentScope := ls == 2 } ∧
    Issues (released eight) fetchGang (.xlVote (plainHead 7 0 0 0) (cross .i8 ls 0 0)) { Head.info (plainHead 7 0 0 0) ([.p 7, .p 0] ++ guardRegs headV) with bentScope := ls == 2 } ∧
    (∀ c ∈ [Instr.xlGred, .xlGscan], Issues (released eight) fetchGang (c (plainHead 254 252 0 0) (cross .i64 ls 5 0))
      { Head.info (plainHead 254 252 0 0) (crossRegs (plainHead 254 252 0 0) (cross .i64 ls 5 0) ++ guardRegs headV) with bentScope := ls == 2 }) ∧
    ∀ p ∈ ([(0, []), (1, [.p 7])] : List (Nat × List Reg)),
      let w := cross .z64 ls (BitVec.ofNat 4 p.1) (BitVec.ofNat 3 (7 * p.1))
      Issues (released eight) fetchGang (.xlMatch (plainHead 254 252 0 0) w)
        { Head.info (plainHead 254 252 0 0) (crossRegs (plainHead 254 252 0 0) w ++ p.2 ++ guardRegs headV) with bentScope := ls == 2 } := by
  exact decided (by have := @issuesDec; infer_instance) (by decide +kernel)

theorem witness_BentArithmetic : (∀ r ∈ fetchGang.refs, ((released eight).slice r).wait = .released) ∧
    (let h := plainHead 254 248 63 10
     let w := { plainArith .e2m1 with kb := true }
     Issues (released eight) fetchGang (.xqQntz h w) { Head.info h (regGroup false 2 254 ++ regGroup false 8 248 ++ [.s 63] ++ guardRegs h) with bentScope := true }) ∧
    (∀ c ∈ [1, 2, 3], let h := plainHead 248 254 0 c
     Issues (released eight) fetchGang (.xqDqnt h (plainArith .bf16)) { Head.info h (regGroup false 8 248 ++ regGroup false 2 254 ++ guardRegs h) with bentScope := true }) ∧
    (let h := { plainHead 248 244 240 0 with la := 15 }
     Issues (released eight) fetchGang (.xxMma h (command .bf16 .bf16 .f32 0 0)) { Head.info h (regGroup false 8 248 ++ regGroup false 4 244 ++ regGroup false 4 240 ++ guardRegs h) with bentScope := true }) := by
  exact decided (by have := @issuesDec; infer_instance) (by decide +kernel)


/-! ### Slices and gangs -/

/-- A partition's clock is open: gangs of two, two and four slices at three addresses, which have waited 5, 7 and 3 clocks. -/
def clocked : State :=
  { slicesOf (fun x => { x with pc := if x.slot < 2 then 0x10000 else if x.slot < 4 then 0x10010 else 0x10020 }) eight with
    iss := { Issue.reset with opened := true }
    gangs := [(0, [{ mask := 3, waiting := 5, readyAt := 0 }, { mask := 12, waiting := 7, readyAt := 0 }, { mask := 0xF0, waiting := 3, readyAt := 0 }])] }
/-- Two bents in one partition, whose gangs of two slices and of one share a slot, with slices that have exited beside them. -/
def pairOfBents : State :=
  let far := fun n k : Nat => ({ fetchSlice k with exited := decide (n ≤ k) } : Slice)
  { teamOf (fun t => { t with desc := { t.desc with bents := 5 } }) eight with
    slices := (List.range 8).map (fun k => (k, far 2 k)) ++ (List.range 8).map fun k => (32 + k, far 1 k)
    gangs := [(0, [{ mask := 3, waiting := 0, readyAt := 0 }]), (4, [{ mask := 1, waiting := 0, readyAt := 0 }])]
    ccbs := smSet 0 { eight.ccb 0 0 with migth := 4 } eight.ccbs }
def results : List RegWrite := [{ reg := .v 4, lane := 1, val := 7 }, { reg := .s 3, lane := 0, val := 9 }, { reg := .p 1, lane := 1, val := 1 }]
def answered : Pending := pendingAt 9 3 (some results)
def trapDue : TrapWait := { info := faultAll 4 0 77, tpc := 0x10008, tfpc := 0x1000C, inst := 5, gmask := 3 }
/-- One slice waits with its gang's QUIET; a copy of the context runs or none does. -/
def quieting (left : List Nat) (s : State) : State := slicesOf (fun x => { x with wait := if x.slot = 1 then .along else .quiet .dev false left }) s
def timeline (value : Nat) (s : State) : State :=
  ccbOf (fun c => { c with tltab := 0x20100, tlcnt := 2 }) (store 0x20108 8 0x20180 (store 0x20180 8 value (mapped 0 s)))
def waitsFor (value : Nat) (s : State) : State := slicesOf (fun x => { x with wait := .timeline 1 (BitVec.ofNat 64 value) }) s


/-! ### Teams and launches, walks and fault records -/

/-- The one team of a launch; its slices have exited. -/
def launched : State := launchesOf [{ launchOf 1 with next := 1, live := 1 }] (teamOf (fun t => { t with launch := 7 }) (slicesOf (fun x => { x with exited := true }) eight))
def faultOf (fid tag : Nat) : FaultRec := { fid := fid, hp := 0, ctx := 0, level := 0, mig := false, va := 0x30000, access := 1, source := 0, unit_ := 0, team := 0, bent := 0, slice := 0, tag := if tag = 0 then none else some tag }
def faultsOf (fs : List FaultRec) (s : State) : State := memOf (fun m => { m with faults := fs }) s
def fqueue (log wr rd : Nat) (s : State) : State := ccbOf (fun c => { c with fqbase := 0x20000, fqlog := log, fqwr := BitVec.ofNat 32 wr, fqrd := BitVec.ofNat 32 rd }) s
/-- A load under way, on an MSA page or not; a store in the write buffer. -/
def elemOf (n : Nat) (data : List Byte) : Elem := { lane := 1, va := 0x20010, pa := 0x20010, key := 0, size := n, data := data, cmp := [] }
def soleOp (kind : OpKind) (n : Nat) (msa : Bool) : Op :=
  { opOf kind [{ elemOf n (bytesOfNat n 0x1234567) with cmp := bytesOfNat n 0x11223344 }] with msa := msa, pid := some 9, cls := .m }
def stored4 (o : Op) : State :=
  memOf (fun m => { m with l1 := [(0, { L1.empty with wbuf := [{ op := 5, pa := 0x20010, key := 0, data := bytesOfNat 4 0x1234567, heldBy := none }] })] }) (opsOf [o] (store 0x20010 8 0x99887766554433 one))
def underWay (o : Op) : State := waiting 1 (opsOf [o] (store 0x20010 8 0x9988776611223344 one))


/-! ### Migrations and Sill ways -/

/-- A migration of the page at 0x20000 to 0x40000, at a stage. -/
def migOf (stage : Nat) (entries : List (Nat × Nat)) : Migration :=
  { mid := 4, eid := 9, hp := 0, ctx := 0, va := 0x20000, newpa := 0x40000, npages := 1, newtier := 0, newmsa := true, page := 0, sz := 0,
    oldpa := if stage = 0 then 0 else 0x20000, entries := entries, stage := stage, held := [], heldNew := [], die := 4, uses := [], lost := none, before := [], tag := false }
def migsOf (ms : List Migration) (s : State) : State := memOf (fun m => { m with migs := ms }) s
def migrating (m : Migration) : State := migsOf [m] (entriesOf [entryOf 9 5 4 []] (store 0x20010 8 0x99887766554433 (mapped 0 one)))
def theLeaf : List (Nat × Nat) := [(0x88200, 0x2006F)]
def heldWrite (pa source : Nat) : HeldAccess := { pa := pa, isWrite := true, data := [1, 2, 3], source := source }
def heldRead (pa source : Nat) : HeldAccess := { pa := pa, isWrite := false, data := [], source := source }
def ownedLine (line client : Nat) (s : State) : State :=
  memOf (fun m => { m with xfers := [{ line := line, unit := 3, interval := 1, write := true, client := .mig client }] }) s
def migPacket (va newpa npages : Nat) : Entry := { entryOf 9 5 3 [(128, va), (192, newpa), (256, npages)] with engine := 4 }
def wayOf (die vault busy : Nat) (s : State) : State := memOf (fun m => { m with vaults := [(die, { vault := BitVec.ofNat 16 vault, busy := BitVec.ofNat 16 busy })] }) s
def theWay : Nat := 0x8000000000 + 0x20000000 + 3 * 0x2000000


/-! ### Releases, Scribes and checks -/

def aStore : Op := opOf .store [elemOf 4 [1, 2, 3, 4]]
/-- A release at its perform point. -/
def sealing (o : Op) : Op := { o with cls := .r, arrived := true }
def outstanding (o : Op) : State := opsOf [o] (store 0x20010 8 0x9988776611223344 (mapped 0 one))
def holder (s : State) : State := memOf (fun m => { m with lines := [(0x400, { LineState.fresh with narrow := [(5, 6)] })] }) s
def tainted (off : Option Offender) (s : State) : State := sliceAt 0 (fun x => { x with taint := some { viol := 4, checker := { kind := 0, inst := 0 }, off := off } }) s
def offenderOf (id : Nat) : Offender := { id := id, cls := .s, pa := 0x20010, interval := 0, done := false }
def ackOf (sc : Scope) (interval : Nat) : PerformAck := { line := 0x400, scope := sc, interval := BitVec.ofNat 16 interval, epoch := none, err := false }
/-- A line of 128 zeros as an L2 or a home receives it. -/
def transferOf (kind inst interval : Nat) : Transfer :=
  { unit := { kind := kind, inst := inst }, hp := 0, line := 0x400, interval := BitVec.ofNat 16 interval, data := List.replicate 128 0,
    hash := lineHash 0x20000 (BitVec.ofNat 16 interval) (List.replicate 128 0), intoWrite := true, client := .none, part := .hbm, bad := 0, fixed := 0 }
def observing (s : State) : State := { s with checks := [(0, { HpCheck.reset with sqobs := true, scobs := true })] }
def knows (unit interval : Nat) (s : State) : State := memOf (fun m => { m with known := [(0x400 * 256 + unit, BitVec.ofNat 16 interval)] }) s
def homeEnd : ScribeId := { kind := 2, inst := 0 }
def peerEnd : ScribeId := { kind := 1, inst := 0 }
def recOf (line : Nat) (cause : Option SliceRef) : WinRec := { line := line, interval := 1, write := true, holder := 0, cause := cause }
def windowOn (hr pr bad : List WinRec) (s : State) : State :=
  memOf (fun m => { m with windows := [{ home := homeEnd, peer := peerEnd, since := 0, homeRecs := hr, peerRecs := pr, bad := bad }] }) s
/-- A slice waits for an operation of its own. -/
def awaits (o : Op) (more : List Op) : State := sliceAt 0 (fun x => { x with wait := .op 5 }) (opsOf (more ++ [o]) (mapped 0 one))
def earlierOp (acked : Option Scope) : Op := { aStore with id := 3, cls := .s, performed := true, acked := acked, acks := match acked with | some a => [(0x400, a)] | none => [] }


/-! ### Barrier words, queues and packets -/

/-- A barrier word: expected, pending, next, phase, unit. -/
def barWord (e p n : Nat) (ph unit_ : Bool) : Nat := e + p * 2 ^ 16 + n * 2 ^ 32 + (if ph then 2 ^ 48 else 0) + 2 ^ 49 + (if unit_ then 2 ^ 50 else 0)
def arrival (what : Nat) (flag : Bool) (v : Quad) : Op := { opOf (.barrier what 0 0x100 flag v) [] with performed := true }
/-- A slice waits for its arrival to be counted; a slice of another bent waits on the word. -/
def arriving (w : Nat) (o : Op) : State :=
  opsOf [o] (teamOf (fun t => { t with scratch := bytesPut t.scratch (scratchKey 0 0x100) (bytesOfNat 8 w) })
    (sliceAt 32 (fun x => { x with wait := .barrier 0 0x100 true }) (sliceAt 0 (fun x => { x with wait := .arrival 5 }) pairOfBents)))
def groupOp (slot : Nat) (drop : Bool) : Op := { opOf (.group slot drop) [] with performed := true }
def inGroups (e : GroupEntry) (o : Op) : State :=
  let s := arriving 0 o
  teamOf (fun t => { t with groups := [0xFFFF, 1] }) { s with sync := { s.sync with groups := [(0, [{ expected := 9, pending := 9, next := 9, phase := true }, e])] } }
/-- The team has been saved: its image stands at 0x10000, where one page maps its words and another their shadow. -/
def savedTeam (w : Nat) (o : Op) : State :=
  let s := opsOf [o] (teamOf (fun t => { t with away := true, desc := { t.desc with vregs := 8, scratch := 65536 } }) one)
  let va := (s.team 0).wordAt 0 0x100
  let sh := (s.team 0).shadowAt 0 0x100
  store (0x20000 + va % 4096) 8 w (ccbOf (fun c => { c with imgbase := 0x10000 })
    (store (0x88000 + 16 * ((0x10000 + va) / 4096)) 16 0x2006F (store (0x88000 + 16 * ((0x10000 + sh) / 4096)) 16 0x3006F (mapped 0 s))))
def queueOf (ring : List (List Byte)) (splog scount : Nat) (err : Bool) : Queue :=
  { valid := true, err := err, ctx := 0, splog := splog, spbase := 0x20000, ring := ring, shead := 3, scount := scount }
def queued (q : Queue) (o : Op) : State := let s := underWay o; { mapped 0 s with sync := { s.sync with queues := [(5, q)] } }
def queueOp (kind : OpKind) : Op := { opOf kind [elemOf 16 (bytesOfNat 16 0x123456789)] with pid := some 9, performed := true }
def entry16 (n : Nat) : List Byte := bytesOfNat 16 n

/-- A pool entry in its pool; a timeline for it; a user queue; a graph of two nodes, the first before the second. -/
def pooled (e : Entry) (s : State) : State := entriesOf [e] (memOf (fun m => { m with nextOp := 20 }) s)
def userQueue : QueueReg := { hdr := 0x20100, rbase := 0x20200, log2n := 2, bind := false, engine := 0, vec := 0, fn := 0, port := 0, prev := none }
def withUserQueue (phase : Nat) : State :=
  let s := store 0x20100 32 (5 * 2 ^ 128) (store (0x20200 + 64) 64 (phase * 2 ^ 24) (mapped 0 one))
  { s with dist := { s.dist with queues := [(queueKey 0 0 3, userQueue)] } }
def descBytes (bents : Nat) : Nat := 0x10000 + 0x100 * 2 ^ 96 + bents * 2 ^ 128 + 8 * 2 ^ 144 + 2 ^ 512
def withDesc (bents : Nat) (e : Entry) : State := pooled e (store 0x20000 256 (descBytes bents) (mapped 0 one))
def nodeBytes (live : Nat) (succ : List Nat) : Nat := live * 2 ^ 528 + succ.length * 2 ^ 544 + (succ.zipIdx.map fun p => p.1 * 2 ^ (640 + 16 * p.2)).sum
def graphHeader : Nat := 2 + 2 ^ 16
def withGraph (live1 : Nat) (e : Entry) : State :=
  pooled e (store 0x20000 256 graphHeader (store 0x20100 256 (nodeBytes 0 [1]) (store 0x20200 256 (nodeBytes live1 []) (mapped 0 one))))
def graphOf (n0 n1 : Nat) : Graph :=
  { gid := 6, eid := 9, hp := 0, ctx := 0, q := 0, idx := 0, gobj := 0x20000, nnode := 2, stopErr := false, nodes := [(0, n0), (1, n1)].filter fun p => p.2 != 0, skip := [], ran := [] }
def graphed (live1 n0 n1 : Nat) : State :=
  let s := withGraph live1 (entryOf 9 7 4 [(128, 0x20000)])
  { s with dist := { s.dist with graphs := [graphOf n0 n1] } }
def nodego : Op := { opOf (.nodego 0x20200) [] with performed := true }


/-! ### Copies and scrubs -/

/-- A copy packet's copy, and a machine that has it under way with its entry in the pool. -/
def packetCopy (dst src len : Nat) : Copy := { copyOf dst src len with eid := some 9 }
def copying (c : Copy) (s : State) : State := entriesOf [entryOf 9 2 4 []] (copiesOf [c] (store 0x20010 8 0x9988776655443322 (mapped 0 s)))
def scrubOf (next : Nat) (bad : List Nat) : Scrub :=
  { sid := 6, eid := 9, hp := 0, ctx := 0, addr := 0x20000, nsect := 3, map := 0x20100, recAddr := 0x20200, engine := 0, next := next, scanned := next, bad := bad,
    fixed := [1], newpoison := bad.length, oldpoison := 0, waits := [], tag := false }
def scrubbing (x : Scrub) (s : State) : State := let s := copying (copyOf 0 0 0) s; { s with copy := { s.copy with copies := [], scrubs := [x] } }
def poisonedAt (pa : Nat) (s : State) : State := memOf (fun m => { m with poison := smPut false (pa / 32) true m.poison }) s


/-! ### The cluster engine -/

def cmdOf (kind : Nat) (block : List Nat) : TileCmd :=
  { id := 8, kind := kind, ref := first, token := some 1, block := block.map (BitVec.ofNat 32), imm := 3, ta := .f32, tc := .f32, flg := 0, lanes := [], data := [], pids := [],
    dreg := 8, bar := none, marked := false, pc := 0x10000, inst := 5, tag := false, clock := 1 }
/-- A TMMA of f16 (or of another code) with these rows, this K and these geometries. -/
def tmmaCmd (rows k ty tc ageom bgeom : Nat) : TileCmd := cmdOf 0 [3 + rows * 256, k, 0x400, 0, 256, 0, 0, ty + ty * 16 + tc * 256 + ageom * 4096 + bgeom * 16384]
/-- The command is at the head of its team's queue, the sequence so; the scratchpad, the Plate and the tiles hold something. -/
def tiled (q : TileSeq) (c : TileCmd) (s : State) : State :=
  teamOf (fun t => { t with desc := { t.desc with scratch := 0x4000, plate := 0x8000, acc := 8 }, tileQ := [c, { cmdOf 1 [] with id := 9 }], seq := q,
                            scratch := (List.range 64).map fun k => (0x400 + k, BitVec.ofNat 8 (k + 1)), plate := (List.range 64).map fun k => (32 * k, BitVec.ofNat 8 (0x3C - k)),
                            tiles := [(tileKey 0 3 + 4, 5), (tileKey 0 3 + 516, 7), (tileKey 0 4, 9)] }) (mapped 0 s)
def seqAt (phase : Nat) (started : Bool) : TileSeq := { TileSeq.zero with phase := phase, started := started }


/-! ### Collectives -/

/-- The body of a COLLECTIVE (13 R408): broadcast from member `root`, `count` words to 0x20000 from 0x20100, the list at 0x20400. -/
def collBody (op root count rank : Nat) : Nat :=
  0x20100 * 2 ^ 128 + 0x20000 * 2 ^ 192 + 0x20400 * 2 ^ 256 + 0x20800 * 2 ^ 320 + count * 2 ^ 384 + root * 2 ^ 416 + op * 2 ^ 426 + 5 * 2 ^ 428 + rank * 2 ^ 464 + 77 * 2 ^ 480
def collOf (stage op root count rank : Nat) : CollOp :=
  { newColl 12 0 0 0 (some 9) first false (collBody op root count rank) false with stage := stage, members := [(0, 0), (1, 0)], hash := 5, timeout := 10 }
def inColl (o : CollOp) (s : State) : State :=
  let s := copying (copyOf 0 0 0) s
  { s with copy := { s.copy with copies := [] }, coll := { ops := [o], held := [] } }
def listed (hd es : Nat) (s : State) : State := store 0x20400 64 hd (store 0x20440 8 es s)
/-- A message of the other member. -/
def collMsg (mtype aopst from_ : Nat) (offset : Nat) (data : List Byte) : Msg :=
  { mtype := BitVec.ofNat 4 mtype, vc := 2, num := false, ptag := false, dpeer := BitVec.ofNat 10 (1 - from_), dinc := 0, speer := BitVec.ofNat 10 from_, sinc := 0, sctx := 0, rctx := 0, win := 0,
    len := BitVec.ofNat 16 data.length, tag := BitVec.ofNat 16 from_, mseq := 0, offset := BitVec.ofNat 64 offset, ty := 0, aopst := BitVec.ofNat 4 aopst, wkey := 77, hash := dataHash data,
    interval := 0, data := data }


/-! ### Contexts -/

/-- Context 0 of partition 0 in a state, its image at 0x20000. -/
def contextIn (state : Nat) (en : Bool) (s : State) : State :=
  ccbOf (fun c => { c with state := state, en := en, imgbase := 0x20000, imglen := 0x10000000, drainlim := 10, qtab := 0x20600, fqlog := 4, fqwr := 20 }) (mapped 0 s)
def empty_ : State := { one with slices := [], gangs := [], teams := [] }
def savingAt (step : Nat) (s : State) : State := { s with dist := { s.dist with saving := [(0, step)], drainEnd := [(0, 7000)] }, dev := { s.dev with irqvec0 := 0x1000000000003 } }


/-! ### Remote requests -/

/-- A machine whose partition 0 is peer 6 of incarnation 3, with a route to peer 7 through port 0, which is up. -/
def fabric (f : FabSys → FabSys) (s : State) : State :=
  { s with fab := f { s.fab with hps := [(0, { HpFab.reset with peer := 6, inc := 3, en := true, routes := [(7, 2 ^ 16)] })], ctxs := [(0, { CtxFab.reset with rxen := true })],
                                 ports := [(0, { Port.reset with state := 2, txmap := 0xFFFF, rxmap := 0xFFFF, peerMap := 0xFFFF })] } }
def msgOf (mtype from_ dest n : Nat) (data : List Byte) : Msg :=
  { mtype := BitVec.ofNat 4 mtype, vc := 0, num := mtype != 1, ptag := false, dpeer := BitVec.ofNat 10 dest, dinc := 3, speer := BitVec.ofNat 10 from_, sinc := 3, sctx := 0, rctx := 0, win := 2,
    len := BitVec.ofNat 16 n, tag := 4, mseq := 1, offset := 16, ty := 4, aopst := 0, wkey := 0x55, hash := dataHash data, interval := 0, data := data }
/-- A remote operation of a load, a store, an atomic or a fence (op 0, 1, 2, 3), its request, and the machine that has both. -/
def remoteOp (op : Nat) (sp : Option Nat) : Op := { opOf (.remote op 4 .i32 sp) [{ lane := 1, va := 0x20010, pa := 0, key := 0, size := 4, data := [1, 2, 3, 4], cmp := [] }] with pid := some 9 }
def reqFor (mtype tag : Nat) : Req :=
  { die := 0, tag := tag, hp := 0, ctx := 0, m := { msgOf mtype 6 7 4 [] with tag := BitVec.ofNat 16 tag, dinc := 8 }, parts := [{ op := 5, lane := 1, off := 0, n := 4 }], sent := 5 }
def requested (o : Op) (r : Req) (s : State) : State := fabric (fun f => { f with reqs := [r] }) (waiting 1 (opsOf [o] s))
def wants (o : Op) (r : Req) (s : State) : State := fabric (fun f => { f with waiting := [r] }) (waiting 1 (opsOf [o] s))
/-- The answer to it. -/
def answerTo (r : Req) (mtype status : Nat) (data : List Byte) : Msg :=
  { msgOf mtype 7 6 data.length data with tag := BitVec.ofNat 16 r.tag, aopst := BitVec.ofNat 4 status, mseq := r.m.mseq, num := false }
/-- A window of partition 0, context 0: 0x100 bytes from 0x20000 with these rights. -/
def exportOf (valid rights key : Nat) : Nat := valid + 2 * rights + 0x20000 * 2 ^ 64 + 0x100 * 2 ^ 128 + key * 2 ^ 192
def exporting (x : Nat) (s : State) : State := fabric (fun f => { f with exports := [(2, x)] }) (store 0x20010 8 0x9988776611223344 (mapped 0 s))


/-! ### Links, the device and its registers -/

def portOf (f : Port → Port) (s : State) : State := fabric (fun y => { y with ports := [(0, f { Port.reset with state := 2, txmap := 0xFFFF, rxmap := 0xFFFF, peerMap := 0xFFFF })] }) s
def flitOf (seq : Nat) (space : List Byte) : Flit :=
  let f : Flit := { fseq := BitVec.ofNat 12 seq, fack := 0xFFF, nak := false, null := false, hole := false, mapv := false, stop := 3, first := 0, actmap := 0xFFFF, crc := 0, space := space }
  { f with crc := crc32 (flitHeader f ++ f.space) }
def sentFlit (seq : Nat) : WinFlit := { flit := flitOf seq (List.replicate 240 0), msgs := [], lost := false }
def devOf (f : Dev → Dev) (s : State) : State := { s with dev := f s.dev }
/-- Every context is idle; a slot's state; a function in a state that has slot 5. -/
def idle : State := { State.reset with dev := { State.reset.dev with booted := true } }
def slotOf (st : Nat) (s : State) : State := devOf (fun d => { d with keys := smSet 5 { st := st, part := 0, draw := 2, imported := none } d.keys }) s
def tdiOf (st : Nat) (s : State) : State := devOf (fun d => { d with tdis := [(tdiKey 1 3, { st := st, slots := [5] })] }) s
def chanOf (mode : Nat) (insr : Bool) (s : State) : State := devOf (fun d => { d with srpol := [(7, { mode := mode, insr := insr, idle := 16, idleFrom := 3, spent := false })] }) s
def hostOp (pa : Nat) (op : HostOp) : HostWrite := { port := 0, vf := 0, pa := pa, op := op }


/-! ### Memory instructions -/

/-- A translation of the page at 0x20000 to itself, with these attributes; the slice's cluster has it alone. -/
def pageOf (msa : Bool) (fmt geom : Nat) : TlbEntry :=
  { hp := 0, ctx := 0, glob := false, va := 0x20000, size := 12, pa := 0x20000, r := true, w := true, x := true, dirty := true, msa := msa, keyid := 0, fmt := fmt, geom := geom }
def sees (e : TlbEntry) (s : State) : State := memOf (fun m => { m with l1tlb := [(0, [e])] }) s
/-- The lanes name the last words of the page (v8:v9), the slice the last 256 bytes (s2:s3). -/
def pointing (s : State) : State := slicesOf (fun x => scalars 2 [0x20F00] (lanesAt 8 (fun j => 0x20FF0 + 4 * j) x)) s
def memHead : Head := plainHead 16 4 12 24

theorem witness_Loads_0 : ∀ ord ∈ [Ord.rlx, .acq], ∀ e ∈ [pageOf false 0 0, pageOf true 0 0],
    let s := pointing (sees e one)
    let w := plainMem 0 0 .dev ord .i32
    let b := acting s first memHead.wk
    let h := { memHead with b := 0, c := 0 }
    let x := b.slice first
    let va := fun j => x.memAddr h w.off j
    w.dec = false ∧ Lone s only first (.xmLd h w) (memInfo h (regGroup false w.ty.regs h.d.toNat ++ pairRegs h)) ∧ x.lanesOn h.gp h.gn ≠ [] ∧
    ∀ j ∈ x.lanesOn h.gp h.gn, va j % 4 = 0 ∧ Hit b first .read (va j) e ∧ b.poisoned (physical e (va j)) 4 = false ∧
      ((ord == .acq) = true → ∀ c ∈ (b.line (lineOf (physical e (va j)))).narrow, c.2 = first.tid) := by
  exact decided (by have := @loneDec; have := @hitDec; infer_instance) (by decide +kernel)

theorem witness_Loads_1 :
    let s := pointing (sees (pageOf false 0 0) one)
    let h := plainHead 4 0x81 0 0
    let w := plainMem 0 0xFC .dev .rlx .i32
    let b := acting s first h.wk
    let x := b.slice first
    let va := x.memAddr h w.off 0
    Lone s only first (.xmLdc h w) (memInfo h (regGroup true w.ty.regs h.d.toNat ++ pairRegs h)) ∧ x.sliceOn h.gp h.gn = true ∧ va % 4 = 0 ∧
    Hit b first .read va (pageOf false 0 0) ∧ b.poisoned (physical (pageOf false 0 0) va) 4 = false := by
  exact decided (by have := @loneDec; have := @hitDec; infer_instance) (by decide +kernel)

/-- DEC: the last elements of a page of e4m3, of packed e2m1, and a segment of 160 bytes. -/
theorem witness_Loads_2 : ∀ p ∈ [(2, 0, 0x20FFF, 1), (1, 0, 0x20FFF, 1), (1, 1, 0x20F60, 160), (1, 3, 0x20F60, 160)],
    let e := pageOf false p.1 p.2.1
    let at_ := fun _ : Nat => p.2.2.1
    let s := slicesOf (lanesAt 8 fun _ => p.2.2.1) (sees e one)
    let h := plainHead 16 4 12 0
    let w := plainMem 4 0 .dev .acq .f32
    let b := acting s first h.wk
    let x := b.slice first
    let idx := fun j => (x.getV h.b.toNat j).toNat % 256
    w.dec = true ∧ Lone s only first (.xmLd h w) (memInfo h (regGroup false w.ty.regs h.d.toNat ++ pairRegs h ++ [.v h.b.toNat])) ∧ x.lanesOn h.gp h.gn ≠ [] ∧
    ∀ j ∈ x.lanesOn h.gp h.gn, Hit b first .read (x.memAddr h w.off j) e ∧ x.memAddr h w.off j % decAlign e w.ty = 0 ∧
      decPieces e w.ty (x.memAddr h w.off j) (idx j) = [(at_ j, p.2.2.2)] ∧ (e.geom ≠ 0 → e.fmt = e.fmt ∧ e.geom = e.geom) ∧
      b.poisoned (physical e (at_ j)) p.2.2.2 = false ∧ ((w.ord == .acq) = true → ∀ c ∈ (b.line (lineOf (physical e (at_ j)))).narrow, c.2 = first.tid) := by
  exact decided (by have := @loneDec; have := @hitDec; infer_instance) (by decide +kernel)

theorem witness_Stores : ∀ ord ∈ [Ord.rlx, .rel], ∀ e ∈ [pageOf false 0 0, pageOf true 0 0],
    let s := pointing (sees e one)
    let h := { memHead with d := 0, c := 0 }
    let w := plainMem 0 0 .dev ord .i32
    let b := acting s first h.wk
    let x := b.slice first
    let va := fun j => x.memAddr h w.off j
    let lanes := x.lanesOn h.gp h.gn
    Lone s only first (.xmSt h w) (memInfo h (pairRegs h ++ regGroup false w.ty.regs h.b.toNat)) ∧ lanes ≠ [] ∧
    (∀ j ∈ lanes, va j % 4 = 0 ∧ Hit b first .write (va j) e) ∧ bitOf (b.check (b.team first.tid).hp).ordinj.toNat 0 = false ∧
    bufferedSectors (b.l1 (b.clusterOf first)).wbuf + lanes.length ≤ 64 := by
  exact decided (by have := @loneDec; have := @hitDec; infer_instance) (by decide +kernel)

theorem witness_PrefetchAndInvalidate :
    let e := pageOf false 0 0
    let s := pointing (sees e one)
    let h := { memHead with d := 0, b := 0, c := 0 }
    let w := plainMem 0 0 .team .rlx .i8
    let b := acting s first h.wk
    let x := b.slice first
    Lone s only first (.xmPrf h w) (memInfo h (pairRegs h)) ∧ w.hint = 0 ∧
    (∀ j ∈ x.lanesOn h.gp h.gn, Hit b first .probe (x.memAddr h w.off j) e ∧ e.r = true ∧ e.msa = false ∧ atHost b first e (x.memAddr h w.off j) = false) ∧
    x.lanesOn h.gp h.gn ≠ [] ∧ (b.l1 (b.clusterOf first)).sectors.length + 16 ≤ b.l1Lines (b.clusterOf first) ∧
    Lone s only first (.xmIcinv { h with a := 0x81 } w) (memInfo { h with a := 0x81 } (pairRegs { h with a := 0x81 })) ∧ x.sliceOn h.gp h.gn = true ∧
    Hit b first .probe (x.memAddr { h with a := 0x81 } w.off 0) e := by
  exact decided (by have := @loneDec; have := @hitDec; infer_instance) (by decide +kernel)

/-- LDG and SCT at the first words of the last 256 bytes, two lanes at one of them; ATOM, CAS among them. -/
theorem witness_GatherScatterAtomic :
    let e := pageOf false 0 0
    let s := slicesOf (lanesAt 12 fun j => j / 2) (pointing (sees e one))
    let g := plainHead 16 0x81 12 0
    let c := plainHead 0 0x81 12 24
    let w := plainMem 0 0 .dev .rlx .i32
    let b := acting s first 0
    let x := b.slice first
    x.lanesOn 7 false ≠ [] ∧
    (Lone s only first (.xmLdg g w) (memInfo g (regGroup false w.ty.regs g.d.toNat ++ pairRegs g ++ [.v g.b.toNat])) ∧
      ∀ j ∈ x.lanesOn 7 false, gatherAddr x g w j % 4 = 0 ∧ Hit b first .read (gatherAddr x g w j) e) ∧
    (Lone s only first (.xmSct c w) (memInfo c (pairRegs c ++ [.v c.b.toNat] ++ regGroup false w.ty.regs c.c.toNat)) ∧
      ∀ j ∈ x.lanesOn 7 false, gatherAddr x c w j % 4 = 0 ∧ Hit b first .write (gatherAddr x c w j) e) ∧
    ∀ p ∈ [(0, (0 : BitVec 8)), (7, 24)], ∀ ord ∈ [Ord.rlx, .acq, .rel, .acqrel],
      let h := plainHead 16 4 12 p.2
      let w := plainMem (BitVec.ofNat 4 p.1) 0 .sys ord .i32
      Lone s only first (.xaAtom h w) (memInfo h (atomRegs h w ++ pairRegs h)) ∧
      ∀ j ∈ x.lanesOn 7 false, x.memAddr h w.off j % 4 = 0 ∧ Hit b first .atomic (x.memAddr h w.off j) e ∧
        (atHost b first e (x.memAddr h w.off j) = true → w.ty.isInt = true ∧ (w.min4 = 0 ∨ w.min4 = 6 ∨ w.min4 = 7)) := by
  exact decided (by have := @loneDec; have := @hitDec; infer_instance) (by decide +kernel)

/-- A team with a scratchpad of 0x1000 bytes, whose lanes name the last words of it. -/
def padded : State := slicesOf (lanesAt 8 fun j => 0xFF0 + 4 * j) (teamOf (fun t => { t with desc := { t.desc with scratch := 0x1000 } }) one)

theorem witness_Scratchpad :
    let x := (acting padded first 0).slice first
    let half := fun _ : Nat => 0
    let off := fun j => 0xFF0 + 4 * j
    ∀ ord ∈ [Ord.rlx, .acq, .rel, .acqrel],
      let w := plainMem 0 0 .team ord .i32
      let l := plainHead 16 8 0 0
      let t := plainHead 0 8 12 0
      let a := plainHead 16 8 12 0
      x.lanesOn 7 false ≠ [] ∧ (∀ j ∈ x.lanesOn 7 false, x.scratchOff a w.off j % 4 = 0 ∧ scratchAt (padded.team 0) 0 4 (x.scratchOff a w.off j) = some (half j, off j)) ∧
      (ord = .rlx ∨ ord = .acq → Lone padded only first (.xsLds l w) (memInfo l (regGroup false w.ty.regs l.d.toNat ++ offsetRegs l))) ∧
      (ord = .rlx ∨ ord = .rel → Lone padded only first (.xsSts t w) (memInfo t (offsetRegs t ++ regGroup false w.ty.regs t.b.toNat))) ∧
      Lone padded only first (.xsAtoms a w) (memInfo a (atomRegs a w ++ offsetRegs a)) := by
  exact decided (by have := @loneDec; infer_instance) (by decide +kernel)

theorem witness_FencesAndChecks :
    let e := pageOf false 0 0
    let s := pointing (sees e one)
    let b := acting s first 0
    let x := b.slice first
    let h := plainHead 0 0x81 0 0
    x.sliceOn 7 false = true ∧
    (∀ ord ∈ [Ord.rlx, .acq, .rel, .acqrel], Lone s only first (.xoFence (plainHead 0 0 0 0) (plainMem 0 0 .sys ord .i8)) (memInfo (plainHead 0 0 0 0) [])) ∧
    Lone s only first (.xoSeal (plainHead 0 0 0 0) (plainMem 0 0 .dev .rlx .i8)) (memInfo (plainHead 0 0 0 0) []) ∧
    Lone s only first (.xoChkr h (plainMem 0 0xFF .dev .rlx .i8)) (memInfo h (pairRegs h)) ∧ Hit b first .probe (x.memAddr h 0xFF 0) e ∧ e.r = true := by
  exact decided (by have := @loneDec; have := @hitDec; infer_instance) (by decide +kernel)

/-- Lane 2 alone at an odd address; the same at the last word of a page that allows none of the three. -/
theorem witness_MemoryFaults : ∀ p ∈ [(0x20FFA, true), (0x20FFC, false)],
    let e := { pageOf false 0 0 with r := p.2, w := p.2 }
    let s := slicesOf (fun x => { lanesAt 8 (fun _ => p.1) x with exec := 4 }) (sees e one)
    let b := acting s first 0
    let x := b.slice first
    let w := plainMem 0 0 .dev .rlx .i32
    let h := plainHead 16 4 0 0
    let t := plainHead 0 4 12 0
    let a := plainHead 16 4 12 0
    Alone s only first ∧ w.dec = false ∧
    Issues s only (.xmLd h w) (memInfo h (regGroup false w.ty.regs h.d.toNat ++ pairRegs h)) ∧
    Issues s only (.xmSt t w) (memInfo t (pairRegs t ++ regGroup false w.ty.regs t.b.toNat)) ∧ Issues s only (.xaAtom a w) (memInfo a (atomRegs a w ++ pairRegs a)) ∧
    ((x.lanesOn 7 false).filter fun j => x.memAddr h w.off j % 4 != 0) = (if p.2 then [2] else []) ∧
    (p.2 = false → x.lanesOn 7 false = [2] ∧ x.memAddr h w.off 2 % 4 = 0 ∧ canonical (x.memAddr h w.off 2) = true ∧
      tlbFind (s.team 0).hp (s.team 0).ctx (x.memAddr h w.off 2) (s.l1Tlb (s.clusterOf first)) = some e ∧ ∀ acc ∈ [Access.read, .write, .atomic], e.allows acc = false) := by
  exact decided (by have := @issuesDec; have := @aloneDec; infer_instance) (by decide +kernel)


/-! ### Barriers, queues, copies and the other units -/

/-- A scratchpad that ends with a barrier word, with a first group in the second place; the slice's scalars s2 on. -/
def withWord (w : Nat) (s : State) : State :=
  let s := teamOf (fun t => { t with desc := { t.desc with scratch := 0x1000 }, scratch := bytesPut t.scratch (scratchKey 0 0xFF8) (bytesOfNat 8 w), groups := [0xFFFF, 1] }) s
  { s with sync := { s.sync with groups := [(0, [{ expected := 9, pending := 9, next := 9, phase := true }, { expected := 2, pending := 2, next := 2, phase := false }])] } }
def withScalars (n : Nat) (ws : List Nat) (s : State) : State := slicesOf (scalars n ws) s

theorem witness_BarriersAndWaits_0 :
    let s := withScalars 4 [2, 0] (withWord (barWord 2 2 2 false false) (released one))
    let b := acting s first 0
    let x := b.slice first
    let h := plainHead 0 0 0 0
    let i := plainHead 0 0 0x84 0
    let w := fun t : Ty => plainMem 0 0xFF8 .team .rlx t
    x.sliceOn 7 false = true ∧
    (barAddr b first i (w .i8) = .ok (0, 0xFF8) ∧ Lone s only first (.xyBari i (w .i8)) (memInfo i (baseOffRegs i.a ++ [.s (i.b.toNat - 128), .s (i.b.toNat - 128 + 1)])) ∧
      kindPair (w .i8) = false ∧ (pairAt (i.b.toNat - 128) x).toNat / 2 ^ 51 = 0) ∧
    (∀ t ∈ [Ty.i8, .i16], (s.slice first).wait = .released ∧ barAddr b first h (w t) = .ok (0, 0xFF8) ∧
      Lone s only first (.xyBara h (w t)) { memInfo h (baseOffRegs h.a) with bentScope := kindBent (w t) } ∧
      Lone s only first (.xyBarad h (w t)) { memInfo h (baseOffRegs h.a) with bentScope := kindBent (w t) }) ∧
    Lone s only first (.xyBarx h (w .i8)) (memInfo h (baseOffRegs h.a)) ∧
    (let g := plainHead 0 0 1 0
     let w := plainMem 0 0 .team .rlx .i8
     (b.groupPhase 0 1).isSome = true ∧ Lone s only first (.xyGbara g w) (memInfo g []) ∧ Lone s only first (.xyGbard g w) (memInfo g [])) := by
  exact decided (by have := @loneDec; have := @okDec; infer_instance) (by decide +kernel)

/-- A word that is valid, one that is not, one with a reserved bit, one that is paired; the phase asked for is each of the two. -/
theorem witness_BarriersAndWaits_1 : ∀ c ∈ [(0 : BitVec 8), 1],
    let s := withWord (barWord 2 2 2 false false) one
    let b := acting s first 0
    let x := b.slice first
    let h := plainHead 0 0 0 c
    let t := plainHead 4 0 0 c
    let w := plainMem 0 0xFF8 .team .rlx .i8
    let word := natOfBytes (bytesGet (s.team 0).scratch (scratchKey 0 0xFF8) 8)
    x.sliceOn 7 false = true ∧ barAddr b first h w = .ok (0, 0xFF8) ∧ barAddr b first t w = .ok (0, 0xFF8) ∧ smGet false (scratchKey 0 0xFF8) (s.team 0).paired = false ∧ word / 2 ^ 51 % 2 ^ 13 = 0 ∧ bitOf word 49 = true ∧
    Lone s only first (.xyBarw h w) (memInfo h (baseOffRegs h.a ++ phaseRegs h.c)) ∧
    Lone s only first (.xyBart t w) (memInfo t (baseOffRegs t.a ++ phaseRegs t.c ++ [.s t.d.toNat])) ∧
    (let g := plainHead 0 0 1 c
     b.groupPhase 0 1 = some false ∧ Lone s only first (.xyGbarw g (plainMem 0 0 .team .rlx .i8)) (memInfo g (phaseRegs g.c))) ∧
    ∀ bad ∈ [2, barWord 2 2 2 false false + 2 ^ 51], let s := withWord bad one
      let word := natOfBytes (bytesGet (s.team 0).scratch (scratchKey 0 0xFF8) 8)
      barAddr (acting s first 0) first h w = .ok (0, 0xFF8) ∧ Alone s only first ∧ Lone s only first (.xyBarw h w) (memInfo h (baseOffRegs h.a ++ phaseRegs h.c)) ∧ (word / 2 ^ 51 % 2 ^ 13 ≠ 0 ∨ bitOf word 49 = false) := by
  exact decided (by have := @loneDec; have := @aloneDec; have := @okDec; infer_instance) (by decide +kernel)

theorem witness_QueuesPhasesTimelines_0 :
    let s := { one with sync := { one.sync with queues := [(5, queueOf [] 0 0 false)] } }
    let b := acting s first 0
    let w := plainMem 0 5 .team .rlx .i8
    let p := plainHead 1 0 12 0
    let q := plainHead 12 0 0 2
    let t := plainHead 4 0 0 0
    (b.slice first).sliceOn 7 false = true ∧ (b.slice first).lanesOn 7 false ≠ [] ∧ (∀ h ∈ [p, q, t], b.queueOf first h w = .ok 5) ∧
    Lone s only first (.xuQpsh p w) (memInfo p ([.p 1] ++ regGroup false 4 p.b.toNat ++ baseOffRegs p.a)) ∧
    Lone s only first (.xuQpop q w) (memInfo q (regGroup false 4 12 ++ [.p q.c.toNat] ++ baseOffRegs q.a)) ∧
    Lone s only first (.xuQst t w) (memInfo t (regGroup true 2 4 ++ baseOffRegs t.a)) ∧
    Lone s only first (.xuPhsw (plainHead 0 0 0 0) (plainMem 0 0 .team .rlx .i8)) (memInfo (plainHead 0 0 0 0) []) ∧
    ∀ c ∈ [(0 : BitVec 8), 1], ∀ sc ∈ [Scope.dev, .sys],
      Lone s only first (.xuQuiet (plainHead 0 0 0 c) (plainMem 0 0 sc .rlx .i8)) (memInfo (plainHead 0 0 0 c) (phaseRegs c)) := by
  exact decided (by have := @loneDec; have := @okDec; infer_instance) (by decide +kernel)

/-- A timeline that has reached 100, and a target of 100 and of 101; one that is not registered. -/
theorem witness_QueuesPhasesTimelines_1 : (∀ n ∈ [100, 101],
    let e := pageOf false 0 0
    let s := sees e (withScalars 2 [1, 0, n, 0] (timeline 100 one))
    let b := acting s first 0
    let h := plainHead 0 0x82 0x84 0
    let t := plainHead 6 0x82 0 0
    let w := plainMem 0 0 .team .rlx .i8
    (b.slice first).sliceOn 7 false = true ∧ b.timelineVa 0 0 1 = some 0x20180 ∧ b.timeline 0 0 0x20180 = some (100, 0, 0) ∧
    Lone s only first (.xpTlwt h w) (memInfo h ([.s (h.a.toNat - 128)] ++ regGroup true 2 (h.b.toNat - 128))) ∧
    Lone s only first (.xpTlrd t w) (memInfo t ([.s (t.a.toNat - 128)] ++ regGroup true 2 t.d.toNat)) ∧ Hit b first .read 0x20180 e ∧ 0x20180 % 8 = 0 ∧
    b.poisoned (physical e 0x20180) 8 = false) ∧
    (let s := withScalars 2 [5, 0, 1, 0] (timeline 100 one)
     let b := acting s first 0
     let h := plainHead 0 0x82 0x84 0
     b.timelineVa 0 0 5 = none ∧ Alone s only first ∧
     Lone s only first (.xpTlwt h (plainMem 0 0 .team .rlx .i8)) (memInfo h ([.s (h.a.toNat - 128)] ++ regGroup true 2 (h.b.toNat - 128)))) := by
  exact decided (by have := @loneDec; have := @aloneDec; have := @hitDec; infer_instance) (by decide +kernel)

/-- A copy of 64 bytes into the scratchpad (CPY, CPYR, CPYM) or to memory (CPYT), described by 16 elements of 4 bytes at 0x20F80. -/
def copier (ctl dst : Nat) : State :=
  sees (pageOf false 0 0) (store 0x20F80 128 (2 + 256 + 16 * 2 ^ 32) (withScalars 0 [ctl, 0x40, dst, 0, 0x20100, 0, 0, 0, 0x20F80, 0, 0, 0, 0, 0, 0, 0, 0, 0x40, 0x20200, 0] (withWord 0 one)))

theorem witness_CopyIssue_0 :
    let s := copier 1 0x400
    let b := acting s first (1#8 <<< 1)
    let x := b.slice first
    let h := plainHead 1 0x80 0 0
    let m := plainHead 1 0x80 0 0x90
    let w := plainMem 0 0 .dev .rlx .i8
    let r := plainMem 0 0 .dev .rlx .i32
    x.sliceOn 7 false = true ∧ copyBar b first w = .ok none ∧ copyBar b first r = .ok none ∧
    (Lone s only first (.xpCpy h w) (copyInfo h false false) ∧ blockMalformed 0 false (x.block h.a) = false ∧
      (let c := blockCopy b first (.xpCpy h w) w 0 1 (x.block h.a) none none none
       copyStatus b c = none ∧ b.rangesFit (c.ranges (s.team 0)) = true ∧ b.pendingCopies c.engine c.hp c.ctx < engineRoom)) ∧
    (Lone s only first (.xpCpyr h r) (copyInfo h false false) ∧ blockMalformed 2 false (x.block h.a) = false ∧
      (let c := blockCopy b first (.xpCpyr h r) r 2 1 (x.block h.a) none none none
       copyStatus b c = none ∧ b.rangesFit (c.ranges (s.team 0)) = true ∧ b.pendingCopies c.engine c.hp c.ctx < engineRoom)) ∧
    (Lone s only first (.xpCpym m w) (copyInfo m false true) ∧ blockMalformed 0 true (x.block m.a) = false ∧
      (let c := blockCopy b first (.xpCpym m w) w 0 1 (x.block m.a) none none (some (x.block m.c))
       copyStatus b c = none ∧ b.rangesFit (c.ranges (s.team 0)) = true ∧ b.pendingCopies c.engine c.hp c.ctx < engineRoom)) := by
  exact decided (by have := @loneDec; have := @okDec; infer_instance) (by decide +kernel)

theorem witness_CopyIssue_1 :
    let e := pageOf false 0 0
    let s := copier 1 0x400
    let b := acting s first (1#8 <<< 1)
    let x := b.slice first
    let h := plainHead 1 0x80 0x88 0
    let m := plainHead 1 0x80 0x88 0x90
    let w := plainMem 0 0 .dev .rlx .i8
    let d : TileDesc := { es := 4, ext := [16], sstr := [], dstr := [] }
    let read := State.readLanes { b.loadOf first false 0 with via := .l1, client := .none } 64 b
      [{ lane := 0, va := 0x20F80, pa := physical e 0x20F80, ent := e }, { lane := 0, va := 0x20FC0, pa := physical e 0x20FC0, ent := e }]
    ((x.getPair (h.b.toNat - 128)).toNat = 0x20F80 ∧ atUnit b e 0x20F80 = false ∧ atUnit b e 0x20FC0 = false ∧ atHost b first e 0x20F80 = false ∧
      atHost b first e 0x20FC0 = false) ∧
    (0x20F80 % 64 = 0 ∧ Hit b first .read 0x20F80 e ∧ Hit b first .read 0x20FC0 e ∧ poisonFault read.1 = none ∧
      tileDescOf (read.1.flatMap fun p => p.2.getD []) (x.getPair 4).toNat (x.getPair 2).toNat = some d) ∧
    (Lone s only first (.xpCpyt h w) (copyInfo h true false) ∧ blockMalformed 1 false (x.block h.a) = false ∧
      (let c := blockCopy b first (.xpCpyt h w) w 1 1 (x.block h.a) (some d) none none
       copyStatus read.2 c = none ∧ read.2.rangesFit (c.ranges (s.team 0)) = true ∧ read.2.pendingCopies c.engine c.hp c.ctx < engineRoom)) ∧
    (Lone s only first (.xpCpym m w) (copyInfo m true true) ∧ blockMalformed 0 true (x.block m.a) = false ∧
      (let c := blockCopy b first (.xpCpym m w) w 1 1 (x.block m.a) (some d) none (some (x.block m.c))
       copyStatus read.2 c = none ∧ read.2.rangesFit (c.ranges (s.team 0)) = true ∧ read.2.pendingCopies c.engine c.hp c.ctx < engineRoom)) := by
  exact decided (by have := @loneDec; have := @hitDec; infer_instance) (by decide +kernel)

/-- A team of eight tiles, a scratchpad and a Plate, its queue one short of full; the block of a TMMA of f16 and of a TSTO. -/
def matrixTeam (ws : List Nat) (s : State) : State :=
  withScalars 0 ws (teamOf (fun t => { t with desc := { t.desc with scratch := 0x4000, plate := 0x8000, acc := 8 }, tileQ := List.replicate 63 (cmdOf 1 []) }) s)

theorem witness_MatrixCommands_0 :
    let s := matrixTeam [3 + 16 * 256, 32, 0x400, 0, 64, 0, 0, 8 + 8 * 16 + 10 * 256] one
    let b := acting s first 0
    let x := b.slice first
    let team := s.team 0
    let h := plainHead 1 0x80 0 0
    let w := plainCommand .i8 .i8 0 0
    (team.queueOf (team.halfOf 0)).length < queueDepth ∧ x.sliceOn 7 false = true ∧
    (Lone s only first (.xxTmma h w) { Head.info h (blockRegs h.a ++ guardRegs h) with token := some 1 } ∧ tmmaFault team 0 (x.block h.a) = none) ∧
    (Lone s only first (.xxTzro (plainHead 0 0 0 0) (plainCommand .i8 .i8 0 7)) (Head.info (plainHead 0 0 0 0) (guardRegs h)) ∧ 7 % 16 < team.desc.acc) ∧
    (let s := matrixTeam [3 + 16 + 256, 0, 0x400, 0] one
     let w := command .f32 .i8 .f16 0 0
     let m := tstoOf (((acting s first 0).slice first).block h.a |>.take 4)
     Lone s only first (.xxTsto h w) { Head.info h (regGroup true 4 (h.a.toNat - 128) ++ guardRegs h) with token := some 1 } ∧
     tstoFault (s.team 0) 0 .f32 .f16 ((((acting s first 0).slice first).block h.a).take 4) = none ∧
     (acting s first 0).rangesFit (tstoRange (s.team 0) first (acting s first 0).mem.nextOp (tyBytes .f16) m) = true) := by
  exact decided (by have := @loneDec; infer_instance) (by decide +kernel)

theorem witness_MatrixCommands_1 :
    let s := matrixTeam [] (released one)
    let team := s.team 0
    let d := plainHead 16 0 0 0
    let a := plainHead 0 16 0 0
    let w := plainCommand .i8 .i8 0 0x3F7
    (team.queueOf (team.halfOf 0)).length < queueDepth ∧ ((acting s first 0).slice first).lanesOn 7 false ≠ [] ∧ (s.slice first).wait = .released ∧
    0x3F7 % 16 < team.desc.acc ∧ Lone s only first (.xxTrd d w) { Head.info d (regGroup false 8 d.d.toNat ++ guardRegs d) with bentScope := true } ∧
    Lone s only first (.xxTwr a w) { Head.info a (regGroup false 8 a.a.toNat ++ guardRegs a) with bentScope := true } := by
  exact decided (by have := @loneDec; infer_instance) (by decide +kernel)

/-- Lane 2 names peer 7 and window 2, which grants every right. -/
theorem witness_RemoteIssue :
    let s := fabric (fun f => { f with peers := [(7, 1)], imports := [(2, 15)] })
      (slicesOf (fun x => { lanesAt 20 (fun _ => 7 + 2 * 2 ^ 16) (lanesAt 8 (fun _ => 0xFC) x) with exec := 4 }) one)
    let b := acting s first 0
    let x := b.slice first
    let team := s.team 0
    let p := x.peerOf 20 2
    let h := plainHead 16 4 12 20
    let w := remote 0 0 .rlx .i32
    x.lanesOn 7 false = [2] ∧ (s.hpFab team.hp).en = true ∧ smFind (peerKey team.hp team.ctx (remPeer p)) s.fab.peers = some 1 ∧ bitOf 1 0 = true ∧
    s.fab.waiting = [] ∧ s.fab.reqs = [] ∧ (s.routeOf team.hp (remPeer p)).isSome = true ∧
    (∀ q ∈ ([(.xrRld { h with b := 0 } w, { h with b := 0 }, 0), (.xrRst { h with d := 0 } w, { h with d := 0 }, 1), (.xrRatm h w, h, 2)] : List (Instr × Head × Nat)),
      Lone s only first q.1 (Head.info q.2.1 (remRegs q.2.1 w q.2.2)) ∧ x.memAddr q.2.1 (w.off.signExtend 24) 2 % 4 = 0 ∧ remReserved p = false ∧
      smFind (winKeyOf team.hp team.ctx (remWin p)) s.fab.imports = some 15 ∧ bitOf 15 0 = true ∧ bitOf 15 (q.2.2 + 1) = true) ∧
    (let h := plainHead 0 0 0 20
     let w := remote 0 0 .rlx .i8
     Lone s only first (.xrRfnc h w) (Head.info h (remRegs h w 3))) := by
  exact decided (by have := @loneDec; infer_instance) (by decide +kernel)

/-- A record of a Dovetail and of a collective, in memory at the last 64 bytes of a page. -/
theorem witness_CollectiveAndNodeIssue : (∀ p ∈ [(3, true), (4, false)],
    let e := pageOf false 0 0
    let s := sees e (store 0x20FC0 64 p.1 (withScalars 0 [0x20FC0, 0] one))
    let h := plainHead 1 0x80 0 0
    let w := plainCommand .i8 .i8 0 0
    let b := acting s first (1#8 <<< 1)
    let read := State.readLanes { b.loadOf first false 0 with via := .l1, client := .none } 64 b [{ lane := 0, va := 0x20FC0, pa := physical e 0x20FC0, ent := e }]
    let rec_ := natOfBytes (read.1.flatMap fun a => a.2.getD [])
    (s.slice first).sliceOn 7 false = true ∧ ((s.slice first).getPair (h.a.toNat - 128)).toNat = 0x20FC0 ∧
    Lone s only first (if p.2 then .xvDvt h w else .xvColl h w) (dvtInfo h) ∧ b.collRoom (b.sliceHalf first) 0 0 = true ∧ 0x20FC0 % 64 = 0 ∧
    Hit b first .read 0x20FC0 e ∧ atUnit b e 0x20FC0 = false ∧ atHost b first e 0x20FC0 = false ∧ poisonFault read.1 = none ∧
    read.2.recordBad 0 0 p.2 rec_ = false) ∧
    (let e := pageOf false 0 0
     let s := sees e (withScalars 0 [0x20F00, 0] one)
     let h := plainHead 0 0x80 0 0
     Lone s only first (.xvNodego h (plainCommand .i8 .i8 0 0)) (Head.info h (regGroup true 2 (h.a.toNat - 128) ++ guardRegs h)) ∧
     ((s.slice first).getPair (h.a.toNat - 128)).toNat = 0x20F00 ∧ 0x20F00 % 256 = 0 ∧ Hit (acting s first 0) first .write 0x20F00 e) := by
  exact decided (by have := @loneDec; have := @hitDec; infer_instance) (by decide +kernel)


/-! ### The whole machine -/

theorem answers {o : Host.Outcome State Fault Refusal} (h : (match o with | .next _ => true | _ => false) = true) : ∃ t, o = .next t := by
  cases o with
  | next t => exact ⟨t, rfl⟩
  | fault _ => cases h
  | refused _ => cases h

theorem code_at {s : State} {g : GangRef} {e : TlbEntry} {ws : List Nat}
    (h : (∀ k < ws.length, Cached s ((s.team g.tid).clusterOf g.bent) (s.team g.tid).hp (s.team g.tid).ctx .fetch ((gangPc s g).toNat + 4 * k) e) ∧
      (gangPc s g).toNat + 4 * ws.length ≤ 2 ^ 64 ∧ (∀ k < ws.length, physical e ((gangPc s g).toNat + 4 * k) % 4 = 0) ∧
      (∀ k < ws.length, s.poisoned (physical e ((gangPc s g).toNat + 4 * k)) 4 = false) ∧
      (∀ k < ws.length, ws[k]? = some (natOfBytes (memReadN s.mem.bytes (physical e ((gangPc s g).toNat + 4 * k)) 4))) ∧
      (s.l1 ((s.team g.tid).clusterOf g.bent)).icache = [] ∧ ws.length = wordCount (ws.headD 0) ∧
      (∀ k < ws.length, s.engineAt false (physical e ((gangPc s g).toNat + 4 * k)) = physical e ((gangPc s g).toNat + 4 * k)) ∧
      (∀ k < ws.length, s.mustHold false (physical e ((gangPc s g).toNat + 4 * k)) 4 = false) ∧ s.mem.blocked = false) : CodeAt s g e ws :=
  have ⟨a, b, c, d, f, k, l, m, n, o⟩ := h
  ⟨a, b, c, d, f, fun line => by rw [k]; rfl, l, m, n, o⟩

/-- The words stand at the gang's PC. -/
def coded (ws : List Nat) (s : State) : State := ws.zipIdx.foldl (fun s p => store (0x10000 + 4 * p.2) 4 p.1 s) s

/-- The words of an ADD, of a LD, of a base comparison with an unassigned FN, and the word 0. -/
theorem code_is : (∀ ws ∈ [[0x00006213], [0x65502882, 0x00003502, 0x0000409A]], CodeAt (coded ws eight) fetchGang fetchTlb ws) ∧
    ∀ ws ∈ [[7 * 2 ^ 24 + 16 * 2 ^ 19], [2 * 2 ^ 30 + 7 * 2 ^ 24 + 22 * 2 ^ 19, 0, 0], [0]], CodeAt (coded ws one) only fetchTlb ws := by
  constructor
  · intro ws hws
    apply code_at
    revert ws
    exact decided (by have := @hitDec; infer_instance) (by decide +kernel)
  · intro ws hws
    apply code_at
    revert ws
    exact decided (by have := @hitDec; infer_instance) (by decide +kernel)

theorem witness_StepRunsTheDecoded_0 : (eight.dev.booted = true ∧ eight.dev.tripped = false) ∧
    (∀ ws ∈ [[0x00006213], [0x65502882, 0x00003502, 0x0000409A]], (coded ws eight).iss.now.head? = some fetchGang ∧ CodeAt (coded ws eight) fetchGang fetchTlb ws ∧
      ∃ i, decodeWords ws = .ok i) ∧
    (∃ t, exec (.bviAdd (b3 3 4 9 true none)) { eight with iss := { eight.iss with now := [fetchGang, only] } } = .next t) ∧
    takesSecond (.bviAdd (b3 3 4 9 true none)) = false ∧ takesSecond (.xfFadd (plainHead 4 4 6 0) (plainArith .f64)) = true ∧ eight.iss.stalled = none := by
  refine ⟨by decide +kernel, fun ws h => ⟨?_, code_is.1 ws h, ?_⟩, answers (by decide +kernel), by decide +kernel, by decide +kernel, rfl⟩
  · revert ws; decide +kernel
  · rcases List.mem_cons.mp h with rfl | h
    · exact ⟨_, rfl⟩
    · rw [List.mem_singleton.mp h]; exact ⟨_, rfl⟩

theorem witness_StepRunsTheDecoded_1 :
    let s : State := { eight with iss := Issue.reset, agenda := [.evIssueClock 0 0] }
    s.iss.now = [] ∧ s.iss.opened = false ∧ s.agenda = [.evIssueClock 0 0] ∧ (∃ t, exec (.evIssueClock 0 0) { s with agenda := [] } = .next t) ∧
    clocked.dev.booted = true ∧ clocked.dev.tripped = false ∧ clocked.iss.now = [] ∧ clocked.iss.opened = true :=
  ⟨rfl, rfl, rfl, answers (by decide +kernel), rfl, rfl, rfl, rfl⟩

/-- R151, R72: two gangs are to issue; words whose FN is none of BSC's, and the word 0, which does not decode. -/
theorem witness_ZeroWord : (one.dev.booted = true ∧ one.dev.tripped = false ∧ only.bent < 64) ∧
    (∀ ws ∈ [[7 * 2 ^ 24 + 16 * 2 ^ 19], [2 * 2 ^ 30 + 7 * 2 ^ 24 + 22 * 2 ^ 19, 0, 0], [0]],
      let s := coded ws { one with iss := { one.iss with now := [only, { tid := 0, bent := 1, mask := 1 }] } }
      s.iss.now = [only, { tid := 0, bent := 1, mask := 1 }] ∧ Alone s only first ∧ CodeAt s only fetchTlb ws) ∧
    (∀ p ∈ [(0, 16, 0), (2, 22, 0), (2, 16, 2 ^ 19 - 1)], (p.1 = 0 ∨ p.1 = 2) ∧ 16 ≤ p.2.1 ∧ p.2.1 ≤ 22 ∧ p.2.2 < 2 ^ 19) ∧ decodeWords [0] = .error .zeroWord := by
  refine ⟨by decide +kernel, fun ws h => ⟨?_, ?_, ?_⟩, by decide +kernel, rfl⟩
  · revert ws
    exact decided inferInstance (by decide +kernel)
  · revert ws
    exact decided (by have := @aloneDec; infer_instance) (by decide +kernel)
  · apply code_at
    revert ws
    exact decided (by have := @hitDec; infer_instance) (by decide +kernel)

theorem witness_BaseCompare : (∀ o ∈ [b3 7 63 63 true none, b3 0 0 0 false (some 7)],
    (∀ i ∈ [Instr.bvcIsetEq o, .bvcIsetNe o, .bvcIsetLt o, .bvcIsetLe o, .bvcIsetGt o, .bvcIsetGe o, .bvcIsetEqZ32 o, .bvcIsetNeZ32 o, .bvcIsetLtZ32 o, .bvcIsetLeZ32 o,
        .bvcIsetGtZ32 o, .bvcIsetGeZ32 o, .bvcFsetEq o, .bvcFsetNe o, .bvcFsetLt o, .bvcFsetLe o, .bvcFsetGt o, .bvcFsetGe o, .bvcFsetUnord o],
      Issues eight fetchGang i { regs := [.p o.d.toNat, .v o.a.toNat] ++ B3.bRegs o false }) ∧
    ∀ i ∈ [Instr.bscIsetEq o, .bscIsetNe o, .bscIsetLt o, .bscIsetLe o, .bscIsetGt o, .bscIsetGe o, .bscIsetEqZ32 o, .bscIsetNeZ32 o, .bscIsetLtZ32 o, .bscIsetLeZ32 o,
        .bscIsetGtZ32 o, .bscIsetGeZ32 o], Issues eight fetchGang i { regs := [.s o.d.toNat, .s o.a.toNat] ++ B3.bRegs o true }) ∧
    8 ≤ (b3 8 0 0 false none).d.toNat ∧ (fmtF32.decode 0x7FC00000).isNan = true ∧ (fmtF32.decode 0).isNan = false := by
  exact decided (by have := @issuesDec; infer_instance) (by decide +kernel)

/-- Words that encode gives: of one, two and three words, with a literal and without. -/
theorem witness_DecodeOfEncode : ∀ i ∈ [Instr.bviAdd (b3 3 4 9 true none), .bviAdd (b3 63 63 0 false (some 0xFFFFFFFF)), .xfFfma (plainHead 10 11 3 200) (plainArith .f32),
    .xmLd { plainHead 16 0 0 0 with lit := some 0xFFFFFFFFFFFFFFFF } (plainMem 0 0x800000 .sys .acq .i32), .xrRfnc (plainHead 0 0 0 20) (remote 0 0 .rlx .i8),
    .bctYield (bs 0 0 0 none)], i.wellFormed = true ∧ (encode i).isSome = true := by
  decide +kernel

/-- A machine in reset to which no boot is to come that verifies; a machine that a thermal trip has stopped. -/
def inReset (l : List Instr) : State := { State.reset with agenda := l }
def tripped (l : List Instr) : State := devOf (fun d => { d with tripped := true }) { one with agenda := l }

theorem witness_ResetHolds : ∀ l ∈ [[Instr.evPowerOnReset], [.evGlomelBoot []]], InReset (inReset l) ∧ ∃ t, step (inReset l) = .next t := by
  intro l h
  rcases List.mem_cons.mp h with rfl | h
  · refine ⟨⟨rfl, fun images hm => ?_⟩, answers (by decide +kernel)⟩
    simp [inReset] at hm
  · rw [List.mem_singleton.mp h]
    refine ⟨⟨rfl, fun images hm => ?_⟩, answers (by decide +kernel)⟩
    simp only [inReset, List.mem_singleton, Instr.evGlomelBoot.injEq] at hm
    exact .inl hm

theorem witness_TripHolds : ∀ l ∈ [[], [Instr.evIssueClock 0 0], [.evThermalTrip 0 0x6900]], Stopped (tripped l) := by
  intro l h
  refine ⟨rfl, rfl, ?_, ?_⟩ <;> · revert l; decide +kernel

theorem witness_MemoryForm : (∀ m ∈ [([] : Memory), one.mem.bytes, (coded [0x00006213] one).mem.bytes], Memory.wf m = true) ∧
    memoryCanonical clocked ∧ ∃ t, step clocked = .next t :=
  ⟨by decide +kernel, (show Memory.wf clocked.mem.bytes = true by decide +kernel), answers (by decide +kernel)⟩

/-! ### Steps of the units: for each statement, values that meet each of its clauses -/

theorem witness_IssueAndSliceSteps :
    (let s : State := { eight with dev := { eight.dev with relock := [(0, true)] } }
     let cl : Nat := 0
     let pt : Nat := 3
     cl < Config.clusters ∧ pt < Config.partitionsPerCluster ∧ smGet false (cl / Config.clustersPerDie) s.dev.relock = true) ∧
    (let s : State := eight
     let cl : Nat := 63
     let pt : Nat := 3
     cl < Config.clusters ∧ pt < Config.partitionsPerCluster ∧ smGet false (cl / Config.clustersPerDie) s.dev.relock = false) ∧
    (let s : State := clocked
     let cl : Nat := 0
     let pt : Nat := 0
     let part := 4 * cl + pt
     cl < Config.clusters ∧ pt < Config.partitionsPerCluster ∧ s.dev.booted = true ∧ s.dev.tripped = false ∧ s.iss.now = [] ∧ s.iss.opened = true ∧ s.iss.part = part ∧ s.iss.fused = false) ∧
    (let s : State := slicesOf (fun x => { x with pc := if x.slot < 3 then 0x10000 else 0x10040, wait := .regang (x.slot % 2 == 0) }) eight
     let r : SliceRef := first
     let rs := s.present r.tid r.bent
     valid r ∧ rs ≠ [] ∧ (∀ q ∈ rs, (s.slice q).wait = .regang true ∨ (s.slice q).wait = .regang false)) ∧
    (let s : State := slicesOf (fun x => { x with wait := .hold 40 }) eight
     let r : SliceRef := first
     let x := s.slice r
     let n : Nat := 40
     valid r ∧ x.wait = .hold n) ∧
    (let s : State := pairOfBents
     let r : SliceRef := first
     let x := s.slice r
     let team := s.team r.tid
     let slot : Nat := 7
     let q : SliceRef := ({ tid := 0, bent := 0, sl := 7 } : SliceRef)
     valid r ∧ x.live = true ∧ s.exitedAt r slot = some q ∧ 1 ≤ (s.present r.tid r.bent).length ∧ (s.present r.tid r.bent).length ≤ (s.ccb team.hp team.ctx).migth.toNat ∧ s.slotFree r slot = true ∧ s.moveHelps r slot = true) ∧
    (let s : State := sliceAt 0 (fun x => { x with moveTo := some 7 }) pairOfBents
     let r : SliceRef := first
     let x := s.slice r
     let slot : Nat := 7
     let q : SliceRef := ({ tid := 0, bent := 0, sl := 7 } : SliceRef)
     valid r ∧ x.moveTo = some slot ∧ s.exitedAt r slot = some q ∧ q ≠ r) ∧
    (let s : State := sliceAt 0 (fun x => { x with pend := [answered] }) eight
     let r : SliceRef := first
     let x := s.slice r
     let p : Pending := answered
     let ws : List RegWrite := results
     valid r ∧ (x.pend.find? (fun q => q.pid == p.pid) = some p) ∧ p.result = some ws ∧ p.fault = none ∧ (∀ w ∈ ws, w.lane < 4)) ∧
    (let s : State := slicesOf (fun x => { x with pc := if x.slot < 3 then 0x10000 else 0x10040, wait := .regang (x.slot % 2 == 0) }) eight
     let r : SliceRef := first
     valid r ∧ (∀ q ∈ s.gangRefs r, ∀ m, (s.slice q).wait = .token m → (s.slice q).tokens &&& m = 0)) ∧
    (let s : State := sliceAt 0 (fun x => { x with trapWait := some trapDue }) eight
     let r : SliceRef := first
     let x := s.slice r
     let team := s.team r.tid
     let w : TrapWait := trapDue
     valid r ∧ x.trapWait = some w ∧ x.pend = [] ∧ x.moveTo = none ∧ x.tmode = false ∧ w.info.cause ≠ causeContain ∧ team.desc.handler ≠ 0xFFFFFFFF ∧ (s.ccb team.hp team.ctx).tlogon = false) ∧
    (let s : State := sliceAt 0 (fun x => { x with exiting := true }) eight
     let r : SliceRef := first
     let x := s.slice r
     valid r ∧ x.exiting = true ∧ x.pend = []) ∧
    (let s : State := slicesOf (fun x => { x with wait := .wake 7 .dev }) eight
     let r : SliceRef := first
     let x := s.slice r
     let n : Nat := 7
     let sc : Scope := Scope.dev
     valid r ∧ x.wait = .wake n sc) ∧
    (let s : State := quieting [] eight
     let r : SliceRef := first
     let x := s.slice r
     let sc : Scope := Scope.dev
     let tag : Bool := false
     let left : List Nat := ([] : List Nat)
     let rs := maskRefs r.tid r.bent (s.gangMask r)
     let awaited := fun (q : SliceRef) => match (s.slice q).wait with | .quiet sc tag left => left.filter (s.busySources (s.team q.tid).hp (s.team q.tid).ctx sc tag).contains | _ => []
     valid r ∧ x.wait = .quiet sc tag left ∧ r ∈ rs ∧ (∀ q ∈ rs, (s.slice q).wait = .along ∨ ∃ sc tag left, (s.slice q).wait = .quiet sc tag left) ∧ (∀ q ∈ rs, awaited q = [])) ∧
    (let s : State := quieting [0] (opsOf [opOf .store []] eight)
     let r : SliceRef := first
     let x := s.slice r
     let sc : Scope := Scope.dev
     let tag : Bool := false
     let left : List Nat := [0]
     let rs := maskRefs r.tid r.bent (s.gangMask r)
     let awaited := fun (q : SliceRef) => match (s.slice q).wait with | .quiet sc tag left => left.filter (s.busySources (s.team q.tid).hp (s.team q.tid).ctx sc tag).contains | _ => []
     valid r ∧ x.wait = .quiet sc tag left ∧ r ∈ rs ∧ (∀ q ∈ rs, (s.slice q).wait = .along ∨ ∃ sc tag left, (s.slice q).wait = .quiet sc tag left) ∧ (∃ q ∈ rs, awaited q ≠ [])) ∧
    (let s : State := eight
     let r : SliceRef := first
     let hp : Nat := 0
     let ctx : Nat := 0
     let sc : Scope := Scope.sys
     let tag : Bool := true
     valid r ∧ (∀ o ∈ s.mem.ops, (s.team o.ref.tid).hp = hp → (s.team o.ref.tid).ctx = ctx → o.tag = tag → o.counts = false) ∧ (∀ c ∈ s.copy.copies, c.hp = hp → c.ctx = ctx → c.tag ≠ tag) ∧ (∀ c ∈ s.copy.scrubs, c.hp = hp → c.ctx = ctx → c.tag ≠ tag) ∧ (∀ m ∈ s.mem.migs, m.hp = hp → m.ctx = ctx → m.tag ≠ tag) ∧ (∀ p ∈ s.teams, p.2.hp = hp → p.2.ctx = ctx → ∀ c ∈ p.2.tileQ ++ p.2.tileQ1, c.tag ≠ tag) ∧ (∀ o ∈ s.coll.ops, o.hp = hp → o.ctx = ctx → o.tag ≠ tag) ∧ (sc = .sys → (∀ q ∈ s.fab.reqs ++ s.fab.waiting, q.hp = hp → q.ctx = ctx → q.m.ptag ≠ tag) ∧ ∀ m ∈ s.fab.inbox ++ s.fab.held.map (·.m), m.dpeer.toNat = (s.hpFab hp).peer → m.rctx.toNat = ctx → m.ptag ≠ tag)) ∧
    (let s : State := copiesOf [copyOf 0x20000 0x10000 64] eight
     let r : SliceRef := first
     let c : Copy := copyOf 0x20000 0x10000 64
     valid r ∧ c ∈ s.copy.copies) ∧
    (let s : State := waitsFor 5 (timeline 5 one)
     let r : SliceRef := first
     let x := s.slice r
     let team := s.team r.tid
     let n : Nat := 1
     let v : Quad := (5 : Quad)
     let va : Nat := 0x20180
     let f : Nat × Nat × Nat := (5, 0, 0)
     valid r ∧ x.wait = .timeline n v ∧ s.gangRefs r = [r] ∧ s.timelineVa team.hp team.ctx n = some va ∧ s.timeline team.hp team.ctx va = some f) := by
  refine ⟨?_, ?_, ?_, ?_, ?_, ?_, ?_, ?_, ?_, ?_, ?_, ?_, ?_, ?_, ?_, ?_, ?_⟩
  · decide +kernel
  · decide +kernel
  · decide +kernel
  · exact decided (by have := @validDec; infer_instance) (by decide +kernel)
  · exact decided (by have := @validDec; infer_instance) (by decide +kernel)
  · exact decided (by have := @validDec; infer_instance) (by decide +kernel)
  · exact decided (by have := @validDec; infer_instance) (by decide +kernel)
  · exact decided (by have := @validDec; infer_instance) (by decide +kernel)
  · exact decided (by have := @validDec; infer_instance) (by decide +kernel)
  · exact decided (by have := @validDec; infer_instance) (by decide +kernel)
  · exact decided (by have := @validDec; infer_instance) (by decide +kernel)
  · exact decided (by have := @validDec; infer_instance) (by decide +kernel)
  · exact decided (by have := @validDec; have := @quietDec; infer_instance) (by decide +kernel)
  · exact decided (by have := @validDec; have := @quietDec; infer_instance) (by decide +kernel)
  · exact decided (by have := @validDec; infer_instance) (by decide +kernel)
  · exact decided (by have := @validDec; infer_instance) (by decide +kernel)
  · exact decided (by have := @validDec; infer_instance) (by decide +kernel)

theorem witness_TeamsAndLaunches :
    (let s : State := launchesOf [launchOf 2] one
     let lid : Nat := 7
     let l : Launch := launchOf 2
     let T : Team := { (launchOf 2).team 0 with cluster := 1 }
     s.launch? lid = some l ∧ s.running l.hp l.ctx = true ∧ l.loaded = true ∧ l.next < l.total ∧ (∀ u ∈ s.savedOf l.hp l.ctx, (s.team u).launch ≠ lid) ∧ s.nextPlaced l = some T ∧ T.desc.bents ≤ 64) ∧
    (let s : State := launched
     let tid : Nat := 0
     let lid : Nat := 7
     let l : Launch := { launchOf 1 with next := 1, live := 1 }
     let T := s.team tid
     s.launch? lid = some l ∧ T.launch = lid ∧ T.resident = true ∧ (∀ c ∈ s.copy.copies, c.eid = none → c.ref.tid ≠ tid) ∧ (∀ c ∈ T.clusters, (s.l1 c).wbuf = []) ∧ s.teamQuiet tid = true ∧ T.held = false ∧ T.stopped = false ∧ T.killed = none ∧ s.teamExited tid = true ∧ (∀ r ∈ s.teamSlices tid, (s.slice r).taint = none)) ∧
    (let s : State := teamOf (fun t => { t with killed := some 3 }) launched
     let tid : Nat := 0
     let lid : Nat := 7
     let l : Launch := { launchOf 1 with next := 1, live := 1 }
     let T := s.team tid
     let cause : Nat := 3
     s.launch? lid = some l ∧ T.launch = lid ∧ T.resident = true ∧ (∀ c ∈ s.copy.copies, c.eid = none → c.ref.tid ≠ tid) ∧ (∀ c ∈ T.clusters, (s.l1 c).wbuf = []) ∧ s.teamQuiet tid = true ∧ T.killed = some cause) ∧
    (let s : State := launchesOf [{ launchOf 1 with loaded := false }] one
     let lid : Nat := 7
     let l : Launch := { launchOf 1 with loaded := false }
     s.launch? lid = some l ∧ l.loaded = false ∧ s.liveGroups l.hp + l.words.length ≤ maxGroups) ∧
    (let s : State := entriesOf [entryOf 9 0 4 []] (launchesOf [{ launchOf 1 with next := 1 }] one)
     let lid : Nat := 7
     let l : Launch := { launchOf 1 with next := 1 }
     let e : Entry := entryOf 9 0 4 []
     s.launch? lid = some l ∧ l.total ≤ l.next ∧ l.live = 0 ∧ s.entry? l.eid = some e ∧ e.tlid = 0 ∧ e.irq = false ∧ e.node = none) ∧
    (let s : State := entriesOf [{ entryOf 8 7 1 [] with level := 1}, { entryOf 9 0 1 [] with ready := 5 }, entryOf 10 2 1 []] (launchesOf [{ launchOf 1 with next := 1 }] one)
     let lid : Nat := 7
     let l : Launch := { launchOf 1 with next := 1 }
     let hp : Nat := 0
     s.launch? lid = some l ∧ s.dispatchable hp ≠ [] ∧ (∀ g ∈ s.dist.graphs, ∀ p ∈ g.nodes, p.2 ≠ 6) ∧ (∀ e ∈ s.dispatchable hp, e.node = none)) := by
  refine ⟨?_, ?_, ?_, ?_, ?_, ?_⟩
  · decide +kernel
  · decide +kernel
  · decide +kernel
  · decide +kernel
  · decide +kernel
  · decide +kernel

theorem witness_WalksAndFaultRecords :
    (let va : Quad := (0x0200000000000000 : Quad)
     canonical va.toNat = false) ∧
    (let s : State := mapped 0 one
     let hp : Nat := 0
     let ctx : Nat := 0
     let va : Quad := (0x20010 : Quad)
     let acc : Access := Access.read
     let level : Nat := 0
     let at_ : Nat := 0x88200
     let e : Nat := 0x2006F
     let size := pageBits (bitsOf e 10 8)
     let dirty := isWrite acc || bitOf e 6
     let x : TlbEntry := { hp := hp, ctx := ctx, glob := bitOf e 4, va := va.toNat / 2 ^ size * 2 ^ size, size := size, pa := bitsOf e 51 12 * 4096, r := bitOf e 1, w := bitOf e 2, x := bitOf e 3, dirty := dirty, msa := bitOf e 7, keyid := bitsOf e 76 64, fmt := bitsOf e 80 77, geom := bitsOf e 82 81 }
     canonical va.toNat = true ∧ s.walkHeld hp va.toNat 5 (s.ccb hp ctx).ptroot = false ∧ s.walk hp ctx va.toNat = .leaf level at_ e ∧ s.mustHold true at_ 16 = false ∧ x.allows acc = true) ∧
    (let s : State := store 0x88200 16 0x20003 (mapped 0 one)
     let hp : Nat := 0
     let ctx : Nat := 0
     let va : Quad := (0x20010 : Quad)
     let acc : Access := Access.write
     let level : Nat := 0
     let at_ : Nat := 0x88200
     let e : Nat := 0x20003
     let size := pageBits (bitsOf e 10 8)
     let dirty := isWrite acc || bitOf e 6
     let x : TlbEntry := { hp := hp, ctx := ctx, glob := bitOf e 4, va := va.toNat / 2 ^ size * 2 ^ size, size := size, pa := bitsOf e 51 12 * 4096, r := bitOf e 1, w := bitOf e 2, x := bitOf e 3, dirty := dirty, msa := bitOf e 7, keyid := bitsOf e 76 64, fmt := bitsOf e 80 77, geom := bitsOf e 82 81 }
     canonical va.toNat = true ∧ s.walkHeld hp va.toNat 5 (s.ccb hp ctx).ptroot = false ∧ s.walk hp ctx va.toNat = .leaf level at_ e ∧ s.mustHold true at_ 16 = false ∧ x.allows acc = false) ∧
    (let s : State := mapped 0 one
     let hp : Nat := 0
     let ctx : Nat := 0
     let va : Quad := (0x30010 : Quad)
     canonical va.toNat = true ∧ s.walkHeld hp va.toNat 5 (s.ccb hp ctx).ptroot = false ∧ (s.walk hp ctx va.toNat = .malformed ∨ ∃ level mig, s.walk hp ctx va.toNat = .absent level mig)) ∧
    (let s : State := ccbOf (fun c => { c with ptroot := 0x600000000000 }) (mapped 0 one)
     let hp : Nat := 0
     let ctx : Nat := 0
     let va : Quad := (0x30010 : Quad)
     canonical va.toNat = true ∧ s.walkHeld hp va.toNat 5 (s.ccb hp ctx).ptroot = false ∧ s.walk hp ctx va.toNat = .unreadable) ∧
    (let s : State := fqueue 4 17 2 (faultsOf [faultOf 2 1, faultOf 3 0] (mapped 0 one))
     let f : FaultRec := faultOf 3 0
     let c := s.ccb f.hp f.ctx
     let va := c.fqbase.toNat + 32 * (c.fqwr.toNat % 2 ^ c.fqlog)
     let e : TlbEntry := tlbOf 0 0 0x20020 0x2006F true
     (s.mem.faults.find? (fun g => g.fid == f.fid && g.tag.isNone) = some f) ∧ 4 ≤ c.fqlog ∧ c.fqlog ≤ 16 ∧ (c.fqwr - c.fqrd).toNat < 2 ^ c.fqlog ∧ Serves s f.hp f.ctx .write va e ∧ va % 4096 ≤ 4064 ∧ s.mem.faults.length < 65536) ∧
    (let s : State := fqueue 4 18 2 (faultsOf [faultOf 2 1, faultOf 3 0] (mapped 0 one))
     let f : FaultRec := faultOf 3 0
     let c := s.ccb f.hp f.ctx
     (s.mem.faults.find? (fun g => g.fid == f.fid && g.tag.isNone) = some f) ∧ 4 ≤ c.fqlog ∧ c.fqlog ≤ 16 ∧ 2 ^ c.fqlog ≤ (c.fqwr - c.fqrd).toNat) ∧
    (let s : State := one
     let hp : Nat := 0
     let ctx : Nat := 0
     let tag : Nat := 9
     let i : Instr := (Instr.evRetryRetry 0 0 9)
     i ∈ ([.evRetryRetry hp ctx tag, .evRetryFail hp ctx tag] : List Instr) ∧ s.taggedFault hp ctx tag = none) ∧
    (let s : State := faultsOf [faultOf 2 1, faultOf 3 9] (slicesOf (fun x => { x with wait := .fault [3] 5 7 }) one)
     let f : FaultRec := faultOf 3 9
     let hp : Nat := 0
     let ctx : Nat := 0
     let tag : Nat := 9
     s.taggedFault hp ctx tag = some f) ∧
    (let s : State := faultsOf [faultOf 2 1, faultOf 3 9] (sliceAt 0 (fun x => { x with wait := .fault [3] 5 7 }) one)
     let f : FaultRec := faultOf 3 9
     let hp : Nat := 0
     let ctx : Nat := 0
     let tag : Nat := 9
     let r : SliceRef := first
     let lanes : Nat := 5
     let addr : Quad := (7 : Quad)
     s.taggedFault hp ctx tag = some f ∧ valid r ∧ (s.slice r).wait = .fault [f.fid] lanes addr ∧ (s.slice r).pend = [] ∧ (s.slice r).tmode = false ∧ (s.slice r).moveTo = none ∧ s.iss.fused = false ∧ s.mem.blocked = false ∧ (s.team r.tid).desc.handler ≠ 0xFFFFFFFF ∧ (s.ccb (s.team r.tid).hp (s.team r.tid).ctx).tlogon = false ∧ (s.slices.filter (fun p => p.2.wait.waitsFor f.fid) = [(512 * r.tid + 8 * r.bent + r.sl, s.slice r)]) ∧ (∀ k ∈ s.copy.copies, f.fid ∉ k.waits) ∧ (∀ k ∈ s.copy.scrubs, f.fid ∉ k.waits) ∧ s.dist.savedCopies = [] ∧ (∀ p ∈ s.teams, p.2.tileQ = [] ∧ p.2.tileQ1 = []) ∧ s.dist.entries = [] ∧ (∀ o ∈ s.coll.ops, f.fid ∉ o.waits)) := by
  refine ⟨?_, ?_, ?_, ?_, ?_, ?_, ?_, ?_, ?_, ?_⟩
  · decide +kernel
  · decide +kernel
  · decide +kernel
  · exact decided (by have := @absentDec; infer_instance) (by decide +kernel)
  · decide +kernel
  · exact decided (by have := @servesDec; infer_instance) (by decide +kernel)
  · decide +kernel
  · decide +kernel
  · decide +kernel
  · exact decided (by have := @validDec; infer_instance) (by decide +kernel)

theorem witness_MemorySteps :
    (let s : State := stored4 (soleOp .store 4 false)
     let o : Op := soleOp .store 4 false
     let e : Elem := { elemOf 4 (bytesOfNat 4 0x1234567) with cmp := bytesOfNat 4 0x11223344 }
     let cl := s.clusterOf o.ref
     let w : WbEntry := ({ op := 5, pa := 0x20010, key := 0, data := bytesOfNat 4 0x1234567, heldBy := none } : WbEntry)
     Sole s o e ∧ o.kind = .store ∧ o.msa = false ∧ (s.l1 cl).wbuf = [w] ∧ w = { op := o.id, pa := e.pa, key := e.key, data := e.data, heldBy := none }) ∧
    (let s : State := memOf (fun m => { m with l2 := [(1, [{ line := 0x400, st := .m, sectors := 15, key := 0, low := false }])] }) (underWay (soleOp (.gather .i32 4) 4 false))
     let o : Op := soleOp (.gather .i32 4) 4 false
     let e : Elem := { elemOf 4 (bytesOfNat 4 0x1234567) with cmp := bytesOfNat 4 0x11223344 }
     let ty : Ty := Ty.i32
     let d : Nat := 4
     Sole s o e ∧ o.kind = .gather ty d ∧ o.msa = false ∧ s.servedAtHome o e.pa = true) ∧
    (let s : State := underWay (soleOp (.gather .i32 4) 4 false)
     let o : Op := soleOp (.gather .i32 4) 4 false
     let e : Elem := { elemOf 4 (bytesOfNat 4 0x1234567) with cmp := bytesOfNat 4 0x11223344 }
     let ty : Ty := Ty.i32
     let d : Nat := 4
     let stack : Nat := (((underWay (soleOp (.gather .i32 4) 4 false)).stackOf (soleOp (.gather .i32 4) 4 false) 0x20010).getD 0)
     Sole s o e ∧ o.kind = .gather ty d ∧ o.msa = false ∧ s.servedAtHome o e.pa = false ∧ s.stackOf o e.pa = some stack) ∧
    (let s : State := underWay (soleOp (.gather .i32 4) 4 true)
     let o : Op := soleOp (.gather .i32 4) 4 true
     let e : Elem := { elemOf 4 (bytesOfNat 4 0x1234567) with cmp := bytesOfNat 4 0x11223344 }
     let ty : Ty := Ty.i32
     let d : Nat := 4
     Sole s o e ∧ o.kind = .gather ty d ∧ o.msa = true) ∧
    (let s : State := underWay (soleOp (.scatter) 4 false)
     let o : Op := soleOp (.scatter) 4 false
     let e : Elem := { elemOf 4 (bytesOfNat 4 0x1234567) with cmp := bytesOfNat 4 0x11223344 }
     let n := e.size
     Sole s o e ∧ o.kind = .scatter ∧ 1 ≤ n) ∧
    (let s : State := underWay (soleOp (.scatter) 4 true)
     let o : Op := soleOp (.scatter) 4 true
     let e : Elem := { elemOf 4 (bytesOfNat 4 0x1234567) with cmp := bytesOfNat 4 0x11223344 }
     let n := e.size
     Sole s o e ∧ o.kind = .scatter ∧ 1 ≤ n ∧ o.msa = true ∧ o.cls.trails = false) ∧
    (let s : State := underWay (soleOp (.atomic 7 .i32 4) 4 true)
     let o : Op := soleOp (.atomic 7 .i32 4) 4 true
     let e : Elem := { elemOf 4 (bytesOfNat 4 0x1234567) with cmp := bytesOfNat 4 0x11223344 }
     let n := e.size
     let free := o.cls ≠ .a ∨ s.outsideHolders o.ref o.elems = []
     let aop : Nat := 7
     let ty : Ty := Ty.i32
     let d : Nat := 4
     Sole s o e ∧ o.kind = .atomic aop ty d ∧ o.cls.trails = false ∧ n = tyBytes ty ∧ (o.msa = true ∨ o.host = false) ∧ free) ∧
    (let s : State := memOf (fun m => { m with lines := [(0x400, { LineState.fresh with narrow := [(5, 6)] })] }) (underWay ({ soleOp (.atomic 0 .i32 4) 4 true with cls := .a }))
     let o : Op := { soleOp (.atomic 0 .i32 4) 4 true with cls := .a }
     let e : Elem := { elemOf 4 (bytesOfNat 4 0x1234567) with cmp := bytesOfNat 4 0x11223344 }
     let n := e.size
     let aop : Nat := 0
     let ty : Ty := Ty.i32
     let d : Nat := 4
     Sole s o e ∧ o.kind = .atomic aop ty d ∧ o.cls.trails = false ∧ n = tyBytes ty ∧ (o.msa = true ∨ o.host = false) ∧ o.cls = .a ∧ s.outsideHolders o.ref o.elems ≠ []) ∧
    (let s : State := underWay ({ soleOp (.load .i32 false 4) 4 true with cls := .l })
     let o : Op := { soleOp (.load .i32 false 4) 4 true with cls := .l }
     let e : Elem := { elemOf 4 (bytesOfNat 4 0x1234567) with cmp := bytesOfNat 4 0x11223344 }
     let free := o.cls ≠ .a ∨ s.outsideHolders o.ref o.elems = []
     let ty : Ty := Ty.i32
     let sc : Bool := false
     let d : Nat := 4
     Sole s o e ∧ o.kind = .load ty sc d ∧ o.msa = true ∧ o.cls.trails = false ∧ free) ∧
    (let s : State := underWay ({ soleOp (.dec .f32 4 [{ lane := 1, fmt := 3, geom := 0, idx := 0, va := 0x20010 }]) 4 true with cls := .l })
     let o : Op := { soleOp (.dec .f32 4 [{ lane := 1, fmt := 3, geom := 0, idx := 0, va := 0x20010 }]) 4 true with cls := .l }
     let e : Elem := { elemOf 4 (bytesOfNat 4 0x1234567) with cmp := bytesOfNat 4 0x11223344 }
     let free := o.cls ≠ .a ∨ s.outsideHolders o.ref o.elems = []
     let ty : Ty := Ty.f32
     let d : Nat := 4
     let x : DecLane := ({ lane := 1, fmt := 3, geom := 0, idx := 0, va := 0x20010 } : DecLane)
     let pid : Nat := 9
     Sole s o e ∧ o.kind = .dec ty d [x] ∧ x.lane = e.lane ∧ x.geom < 3 ∧ o.pid = some pid ∧ o.msa = true ∧ o.cls.trails = false ∧ free) ∧
    (let s : State := underWay ({ soleOp (.store) 4 true with cls := .s })
     let o : Op := { soleOp (.store) 4 true with cls := .s }
     let e : Elem := { elemOf 4 (bytesOfNat 4 0x1234567) with cmp := bytesOfNat 4 0x11223344 }
     Sole s o e ∧ o.kind = .store ∧ o.msa = true ∧ o.cls.trails = false) := by
  refine ⟨?_, ?_, ?_, ?_, ?_, ?_, ?_, ?_, ?_, ?_, ?_⟩
  · exact decided (by have := @soleDec; infer_instance) (by decide +kernel)
  · exact decided (by have := @soleDec; infer_instance) (by decide +kernel)
  · exact decided (by have := @soleDec; infer_instance) (by decide +kernel)
  · exact decided (by have := @soleDec; infer_instance) (by decide +kernel)
  · exact decided (by have := @soleDec; infer_instance) (by decide +kernel)
  · exact decided (by have := @soleDec; infer_instance) (by decide +kernel)
  · exact decided (by have := @soleDec; infer_instance) (by decide +kernel)
  · exact decided (by have := @soleDec; infer_instance) (by decide +kernel)
  · exact decided (by have := @soleDec; infer_instance) (by decide +kernel)
  · exact decided (by have := @soleDec; infer_instance) (by decide +kernel)
  · exact decided (by have := @soleDec; infer_instance) (by decide +kernel)

theorem witness_MigrationsAndSillWays :
    (let s : State := store theWay 4 5 one
     let die : Nat := 1
     let way : Nat := 3
     let v := s.vault die
     die < 4 ∧ way < 16 ∧ v.vault.getLsbD way = false ∧ v.busy.getLsbD way = false) ∧
    (let s : State := store theWay 4 5 (wayOf 1 8 0 one)
     let die : Nat := 1
     let way : Nat := 3
     let v := s.vault die
     die < 4 ∧ way < 16 ∧ v.vault.getLsbD way = true ∧ v.busy.getLsbD way = false) ∧
    (let s : State := store theWay 4 5 (wayOf 1 8 8 one)
     let die : Nat := 1
     let way : Nat := 3
     let v := s.vault die
     die < 4 ∧ way < 16 ∧ v.busy.getLsbD way = true) ∧
    (let s : State := migrating (migOf 0 [])
     let mid : Nat := 4
     let m : Migration := migOf 0 []
     let n := 2 ^ pageBits m.sz
     let page := m.va + m.page * n
     let r : LeafRun := ({ sz := 0, frame := 0x20000, entries := theLeaf } : LeafRun)
     s.mig? mid = some m ∧ m.stage = 0 ∧ s.leafRun m.hp m.ctx page = some r ∧ s.rangeHeld r.frame n = false) ∧
    (let s : State := memOf (fun m => { m with ops := [{ opOf .store [elemOf 4 [1,2,3,4]] with cls := .r, arrived := true }] }) (migrating (migOf 0 []))
     let mid : Nat := 4
     let m : Migration := migOf 0 []
     let n := 2 ^ pageBits m.sz
     let page := m.va + m.page * n
     let r : LeafRun := ({ sz := 0, frame := 0x20000, entries := theLeaf } : LeafRun)
     s.mig? mid = some m ∧ m.stage = 0 ∧ s.leafRun m.hp m.ctx page = some r ∧ s.rangeHeld r.frame n = true) ∧
    (let s : State := migrating ({ migOf 0 [] with va := 0x30000 })
     let mid : Nat := 4
     let m : Migration := { migOf 0 [] with va := 0x30000 }
     let e : Entry := entryOf 9 5 4 []
     let n := 2 ^ pageBits m.sz
     let page := m.va + m.page * n
     let plain := s.entry? m.eid = some e ∧ e.tlid = 0 ∧ e.irq = false ∧ e.node = none
     s.mig? mid = some m ∧ m.stage = 0 ∧ s.leafRun m.hp m.ctx page = none ∧ plain) ∧
    (let s : State := migrating (migOf 1 theLeaf)
     let mid : Nat := 4
     let m : Migration := migOf 1 theLeaf
     let n := 2 ^ pageBits m.sz
     let dest := m.newpa + m.page * n
     s.mig? mid = some m ∧ m.stage = 1 ∧ s.rangeHeld dest n = false ∧ (∀ a, dest ≤ a → a < dest + n → s.reachable m.hp m.keyid a = true) ∧ m.oldpa % 128 = 0 ∧ dest % 128 = 0 ∧ (dest = m.oldpa ∨ dest + n ≤ m.oldpa ∨ m.oldpa + n ≤ dest)) ∧
    (let s : State := migrating ({ migOf 1 theLeaf with newpa := 0x300000000000 })
     let mid : Nat := 4
     let m : Migration := { migOf 1 theLeaf with newpa := 0x300000000000 }
     let e : Entry := entryOf 9 5 4 []
     let n := 2 ^ pageBits m.sz
     let dest := m.newpa + m.page * n
     let plain := s.entry? m.eid = some e ∧ e.tlid = 0 ∧ e.irq = false ∧ e.node = none
     s.mig? mid = some m ∧ m.stage = 1 ∧ s.rangeHeld dest n = false ∧ s.reachable m.hp m.keyid dest = false ∧ plain) ∧
    (let s : State := memOf (fun m => { m with ops := [{ opOf .store [{elemOf 4 [1,2,3,4] with pa := 0x40010}] with cls := .r, arrived := true }] }) (migrating (migOf 1 theLeaf))
     let mid : Nat := 4
     let m : Migration := migOf 1 theLeaf
     let n := 2 ^ pageBits m.sz
     let dest := m.newpa + m.page * n
     s.mig? mid = some m ∧ m.stage = 1 ∧ s.rangeHeld dest n = true) ∧
    (let s : State := ownedLine 0x800 4 (migrating (migOf 2 theLeaf))
     let mid : Nat := 4
     let m : Migration := migOf 2 theLeaf
     s.mig? mid = some m ∧ m.stage = 2 ∧ (∃ x ∈ s.mem.xfers, x.client = .mig mid)) ∧
    (let s : State := migrating (migOf 2 theLeaf)
     let mid : Nat := 4
     let m : Migration := migOf 2 theLeaf
     s.mig? mid = some m ∧ m.stage = 2 ∧ (∀ x ∈ s.mem.xfers, x.client ≠ .mig mid) ∧ m.lost = none ∧ (m.entries.Pairwise (fun p q => p.1 + 16 ≤ q.1)) ∧ (∀ p ∈ m.entries, natOfBytes (memReadN s.mem.bytes p.1 16) = p.2)) ∧
    (let s : State := migrating ({ migOf 2 theLeaf with lost := some 8 })
     let mid : Nat := 4
     let m : Migration := { migOf 2 theLeaf with lost := some 8 }
     let e : Entry := entryOf 9 5 4 []
     let plain := s.entry? m.eid = some e ∧ e.tlid = 0 ∧ e.irq = false ∧ e.node = none
     s.mig? mid = some m ∧ m.stage = 2 ∧ (∀ x ∈ s.mem.xfers, x.client ≠ .mig mid) ∧ (m.lost ≠ none ∨ ∃ p ∈ m.entries, natOfBytes (memReadN s.mem.bytes p.1 16) ≠ p.2) ∧ plain) ∧
    (let s : State := migrating (migOf 3 theLeaf)
     let mid : Nat := 4
     let m : Migration := migOf 3 theLeaf
     s.mig? mid = some m ∧ m.stage = 3) ∧
    (let s : State := migrating (migOf 4 theLeaf)
     let mid : Nat := 4
     let m : Migration := migOf 4 theLeaf
     s.mig? mid = some m ∧ m.stage = 4) ∧
    (let s : State := migrating (migOf 5 theLeaf)
     let mid : Nat := 4
     let m : Migration := migOf 5 theLeaf
     s.mig? mid = some m ∧ m.stage = 5) ∧
    (let s : State := migrating ({ migOf 6 theLeaf with npages := 2 })
     let mid : Nat := 4
     let m : Migration := { migOf 6 theLeaf with npages := 2 }
     s.mig? mid = some m ∧ m.stage = 6 ∧ m.page + 1 < m.npages) ∧
    (let s : State := migrating (migOf 6 theLeaf)
     let mid : Nat := 4
     let m : Migration := migOf 6 theLeaf
     let e : Entry := entryOf 9 5 4 []
     let plain := s.entry? m.eid = some e ∧ e.tlid = 0 ∧ e.irq = false ∧ e.node = none
     s.mig? mid = some m ∧ m.stage = 6 ∧ m.npages ≤ m.page + 1 ∧ plain) ∧
    (let s : State := migrating (migOf 1 theLeaf)
     let mid : Nat := 4
     let m : Migration := migOf 1 theLeaf
     let n := 2 ^ pageBits m.sz
     let inOld := fun (a : Nat) => m.oldpa ≤ a ∧ a < m.oldpa + n
     let a : HeldAccess := heldWrite 0x20010 7
     let behind := ∃ h ∈ m.held, h.source = a.source ∧ lineOf h.pa = lineOf a.pa
     s.mig? mid = some m ∧ inOld a.pa ∧ 1 ≤ m.stage ∧ m.stage ≤ 4 ∧ (a.isWrite = true ∨ behind)) ∧
    (let s : State := migrating (migOf 1 theLeaf)
     let mid : Nat := 4
     let m : Migration := migOf 1 theLeaf
     let n := 2 ^ pageBits m.sz
     let inOld := fun (a : Nat) => m.oldpa ≤ a ∧ a < m.oldpa + n
     let a : HeldAccess := heldRead 0x20010 7
     let behind := ∃ h ∈ m.held, h.source = a.source ∧ lineOf h.pa = lineOf a.pa
     s.mig? mid = some m ∧ inOld a.pa ∧ 1 ≤ m.stage ∧ m.stage ≤ 4 ∧ a.isWrite = false ∧ ¬ behind) ∧
    (let s : State := migrating (migOf 5 theLeaf)
     let mid : Nat := 4
     let m : Migration := migOf 5 theLeaf
     let n := 2 ^ pageBits m.sz
     let inOld := fun (a : Nat) => m.oldpa ≤ a ∧ a < m.oldpa + n
     let a : HeldAccess := heldWrite 0x20010 7
     s.mig? mid = some m ∧ inOld a.pa ∧ 5 ≤ m.stage ∧ a.isWrite = true) ∧
    (let s : State := migsOf [migOf 3 theLeaf] (entriesOf [migPacket 0x20000 0x40000 1] (mapped 0 one))
     let e : Entry := migPacket 0x20000 0x40000 1
     s.entry? e.eid = some e ∧ (s.ccb e.hp e.ctx).state ≠ 3 ∧ e.stage = 3 ∧ e.kind = 5 ∧ (∃ m ∈ s.mem.migs, m.die = e.engine)) ∧
    (let s : State := entriesOf [migPacket 0x20000 0x40000 1] (mapped 0 one)
     let e : Entry := migPacket 0x20000 0x40000 1
     let b : MigBody := { va := e.field 191 128, newpa := e.field 255 192, npages := e.field 271 256, tier := e.field 273 272, msa := bitOf e.n 274 }
     let sz := match s.leafRun e.hp e.ctx b.va with | some r => r.sz | none => 0
     s.entry? e.eid = some e ∧ (s.ccb e.hp e.ctx).state ≠ 3 ∧ e.stage = 3 ∧ e.kind = 5 ∧ (∀ m ∈ s.mem.migs, m.die ≠ e.engine) ∧ (∀ i < b.npages, s.pageCheck e.hp e.ctx b sz i = none)) ∧
    (let s : State := entriesOf [migPacket 0x20000 0x40000 2] (mapped 0 one)
     let e : Entry := migPacket 0x20000 0x40000 2
     let b : MigBody := { va := e.field 191 128, newpa := e.field 255 192, npages := e.field 271 256, tier := e.field 273 272, msa := bitOf e.n 274 }
     let sz := match s.leafRun e.hp e.ctx b.va with | some r => r.sz | none => 0
     s.entry? e.eid = some e ∧ (s.ccb e.hp e.ctx).state ≠ 3 ∧ e.stage = 3 ∧ e.kind = 5 ∧ (∀ m ∈ s.mem.migs, m.die ≠ e.engine) ∧ (∃ i < b.npages, s.pageCheck e.hp e.ctx b sz i ≠ none) ∧ e.tlid = 0 ∧ e.irq = false ∧ e.node = none) := by
  refine ⟨?_, ?_, ?_, ?_, ?_, ?_, ?_, ?_, ?_, ?_, ?_, ?_, ?_, ?_, ?_, ?_, ?_, ?_, ?_, ?_, ?_, ?_, ?_⟩
  · decide +kernel
  · decide +kernel
  · decide +kernel
  · decide +kernel
  · decide +kernel
  · decide +kernel
  · exact ⟨by decide +kernel, by decide +kernel, by decide +kernel, fun a h1 h2 => all_from (k := 12) (by decide +kernel) a h1 h2, by decide +kernel⟩
  · decide +kernel
  · decide +kernel
  · decide +kernel
  · decide +kernel
  · decide +kernel
  · decide +kernel
  · decide +kernel
  · decide +kernel
  · decide +kernel
  · decide +kernel
  · decide +kernel
  · decide +kernel
  · decide +kernel
  · decide +kernel
  · decide +kernel
  · decide +kernel

theorem witness_ReleasesAndSquares :
    (let s : State := outstanding ({ aStore with cls := .r })
     let o : Op := ({ aStore with cls := .r })
     let r := o.ref
     let cl := s.clusterOf r
     s.op? o.id = some o ∧ valid o.ref ∧ (∀ p ∈ s.mem.ops, p.kind ≠ .fence 1) ∧ o.arrived = false ∧ o.performed = false ∧ (o.cls = .r ∨ o.cls = .x) ∧ (s.l1 cl).wbuf = [] ∧ s.mem.migs = [] ∧ s.anyHeld o.id o.elems = false ∧ (o.cls = .x → s.outsideHolders r o.elems = [])) ∧
    (let s : State := holder (outstanding ({ aStore with cls := .x }))
     let o : Op := ({ aStore with cls := .x })
     let r := o.ref
     let cl := s.clusterOf r
     s.op? o.id = some o ∧ valid o.ref ∧ (∀ p ∈ s.mem.ops, p.kind ≠ .fence 1) ∧ o.arrived = false ∧ o.performed = false ∧ (o.cls = .r ∨ o.cls = .x) ∧ (s.l1 cl).wbuf = [] ∧ s.mem.migs = [] ∧ s.anyHeld o.id o.elems = false ∧ o.cls = .x ∧ s.outsideHolders r o.elems ≠ []) ∧
    (let s : State := outstanding (sealing { aStore with scope := .dev })
     let o : Op := (sealing { aStore with scope := .dev })
     let e : Elem := elemOf 4 [1, 2, 3, 4]
     s.op? o.id = some o ∧ valid o.ref ∧ (∀ p ∈ s.mem.ops, p.kind ≠ .fence 1) ∧ o.arrived = true ∧ o.performed = false ∧ s.taintOf o = none ∧ o.lacking = [] ∧ s.owed o = [] ∧ (o.scope = .sys → s.openWindows none = []) ∧ o.kind = .store ∧ Sole s o e ∧ o.scope ≠ .team) ∧
    (let s : State := outstanding (sealing { aStore with scope := .team })
     let o : Op := (sealing { aStore with scope := .team })
     let r := o.ref
     let team := s.team r.tid
     let e : Elem := elemOf 4 [1, 2, 3, 4]
     s.op? o.id = some o ∧ valid o.ref ∧ (∀ p ∈ s.mem.ops, p.kind ≠ .fence 1) ∧ o.arrived = true ∧ o.performed = false ∧ s.taintOf o = none ∧ o.lacking = [] ∧ s.owed o = [] ∧ (o.scope = .sys → s.openWindows none = []) ∧ o.kind = .store ∧ Sole s o e ∧ o.scope = .team ∧ team.desc.pair = false ∧ o.msa = false ∧ o.host = false) ∧
    (let s : State := outstanding (sealing (opOf (.copyIssue 3) []))
     let o : Op := (sealing (opOf (.copyIssue 3) []))
     s.op? o.id = some o ∧ valid o.ref ∧ (∀ p ∈ s.mem.ops, p.kind ≠ .fence 1) ∧ o.arrived = true ∧ o.performed = false ∧ s.taintOf o = none ∧ o.lacking = [] ∧ s.owed o = [] ∧ (o.scope = .sys → s.openWindows none = []) ∧ o.kind.endsItself = true) ∧
    (let s : State := outstanding (sealing (opOf (.fence 2) []))
     let o : Op := (sealing (opOf (.fence 2) []))
     let ord : Nat := 2
     s.op? o.id = some o ∧ valid o.ref ∧ (∀ p ∈ s.mem.ops, p.kind ≠ .fence 1) ∧ o.arrived = true ∧ o.performed = false ∧ s.taintOf o = none ∧ o.lacking = [] ∧ s.owed o = [] ∧ (o.scope = .sys → s.openWindows none = []) ∧ o.kind = .fence ord) ∧
    (let s : State := outstanding (sealing { aStore with lacking := [3] })
     let o : Op := (sealing { aStore with lacking := [3] })
     let r := o.ref
     let x := s.slice r
     let team := s.team r.tid
     let chk := s.check team.hp
     s.op? o.id = some o ∧ valid o.ref ∧ (∀ p ∈ s.mem.ops, p.kind ≠ .fence 1) ∧ o.arrived = true ∧ o.performed = false ∧ (s.ccb team.hp team.ctx).ellog < 4 ∧ (s.ccb team.hp team.ctx).tlogon = false ∧ x.exited = false ∧ x.pend = [] ∧ x.moveTo = none ∧ s.iss.fused = false ∧ s.mem.blocked = false ∧ s.taintOf o = none ∧ o.lacking ≠ [] ∧ chk.sqobs = false) ∧
    (let s : State := tainted (some (offenderOf 2)) (outstanding (sealing { aStore with scope := .dev }))
     let o : Op := (sealing { aStore with scope := .dev })
     let r := o.ref
     let x := s.slice r
     let team := s.team r.tid
     let v : Taint := ({ viol := 4, checker := { kind := 0, inst := 0 }, off := some (offenderOf 2) } : Taint)
     s.op? o.id = some o ∧ valid o.ref ∧ (∀ p ∈ s.mem.ops, p.kind ≠ .fence 1) ∧ o.arrived = true ∧ o.performed = false ∧ (s.ccb team.hp team.ctx).ellog < 4 ∧ (s.ccb team.hp team.ctx).tlogon = false ∧ x.exited = false ∧ x.pend = [] ∧ x.moveTo = none ∧ s.iss.fused = false ∧ s.mem.blocked = false ∧ s.taintOf o = some v) ∧
    (let s : State := outstanding { aStore with performed := true }
     let o : Op := { aStore with performed := true }
     let a : PerformAck := ackOf .sys 3
     let lim : Scope := Scope.dev
     s.op? o.id = some o ∧ valid o.ref ∧ (∀ p ∈ s.mem.ops, p.kind ≠ .fence 1) ∧ o.failed = false ∧ o.cls ≠ .none ∧ o.kind.actsLater = false ∧ (o.elems = [] ∨ ∃ e ∈ o.elems, lineOf e.pa = a.line) ∧ s.reached o a.line = some lim ∧ s.ackViolation o a = none) ∧
    (let s : State := outstanding ({ aStore with performed := true }) |> opsOf [{ { opOf (.load .i32 false 4) [elemOf 4 []] with id := 5 } with id := 3, cls := .a }, { aStore with performed := true }]
     let o : Op := { aStore with performed := true }
     let r := o.ref
     let x := s.slice r
     let team := s.team r.tid
     let chk := s.check team.hp
     let a : PerformAck := ackOf .sys 3
     let lim : Scope := Scope.dev
     let v : Nat := 2
     let p : Op := { aStore with performed := true }
     s.op? o.id = some o ∧ valid o.ref ∧ (∀ p ∈ s.mem.ops, p.kind ≠ .fence 1) ∧ o.failed = false ∧ o.cls ≠ .none ∧ o.kind.actsLater = false ∧ (o.elems = [] ∨ ∃ e ∈ o.elems, lineOf e.pa = a.line) ∧ s.reached o a.line = some lim ∧ s.ackViolation o a = some (v, p) ∧ chk.sqobs = false ∧ x.taint = none) ∧
    (let s : State := outstanding aStore
     let o : Op := aStore
     let a : PerformAck := ackOf .dev 3
     s.op? o.id = some o ∧ valid o.ref ∧ (∀ p ∈ s.mem.ops, p.kind ≠ .fence 1) ∧ o.failed = false ∧ o.cls ≠ .none ∧ o.kind.actsLater = false ∧ (o.elems = [] ∨ ∃ e ∈ o.elems, lineOf e.pa = a.line) ∧ s.reached o a.line = none ∧ o.host = false) ∧
    (let s : State := waiting 1 (outstanding { opOf (.load .i32 false 4) [elemOf 4 []] with host := true, pid := some 9 })
     let o : Op := { opOf (.load .i32 false 4) [elemOf 4 []] with host := true, pid := some 9 }
     let r := o.ref
     let cl := s.clusterOf r
     let a : PerformAck := ackOf .sys 3
     let e : Elem := elemOf 4 []
     let ty : Ty := Ty.i32
     let sc : Bool := false
     let d : Nat := 4
     s.op? o.id = some o ∧ valid o.ref ∧ (∀ p ∈ s.mem.ops, p.kind ≠ .fence 1) ∧ o.failed = false ∧ o.cls ≠ .none ∧ o.kind.actsLater = false ∧ (o.elems = [] ∨ ∃ e ∈ o.elems, lineOf e.pa = a.line) ∧ Sole s o e ∧ o.kind = .load ty sc d ∧ o.host = true ∧ o.cls = .l ∧ (s.l1 cl).wbuf = []) := by
  refine ⟨?_, ?_, ?_, ?_, ?_, ?_, ?_, ?_, ?_, ?_, ?_, ?_⟩
  · exact decided (by have := @validDec; infer_instance) (by decide +kernel)
  · exact decided (by have := @validDec; infer_instance) (by decide +kernel)
  · exact decided (by have := @soleDec; have := @validDec; infer_instance) (by decide +kernel)
  · exact decided (by have := @soleDec; have := @validDec; infer_instance) (by decide +kernel)
  · exact decided (by have := @validDec; infer_instance) (by decide +kernel)
  · exact decided (by have := @validDec; infer_instance) (by decide +kernel)
  · exact decided (by have := @validDec; infer_instance) (by decide +kernel)
  · exact decided (by have := @validDec; infer_instance) (by decide +kernel)
  · exact decided (by have := @validDec; infer_instance) (by decide +kernel)
  · exact decided (by have := @validDec; infer_instance) (by decide +kernel)
  · exact decided (by have := @validDec; infer_instance) (by decide +kernel)
  · exact decided (by have := @soleDec; have := @validDec; infer_instance) (by decide +kernel)

theorem witness_Scribes :
    (let s : State := one
     let x : Transfer := transferOf 1 0 5
     let quiet := ∀ p ∈ s.mem.ops, p.kind ≠ .fence 1
     let unit := unitOf x.unit
     let is := fun (y : Xfer) => y.is x unit
     let hash := x.hash ≠ lineHash (x.line * 128) x.interval x.data
     let swmr := (∃ k, smFind (knownKey x.line unit) s.mem.known = some k ∧ intervalBefore x.interval k = true) ∨ s.lostCopy x unit = true ∨ (s.directory x.line).coherent = false
     let receipt := wrongReceipt x unit (s.mem.xfers.find? is) = true
     quiet ∧ ¬ hash ∧ ¬ swmr ∧ ¬ receipt) ∧
    (let s : State := one
     let x : Transfer := { transferOf 1 0 5 with hash := 7 }
     let quiet := ∀ p ∈ s.mem.ops, p.kind ≠ .fence 1
     let unit := unitOf x.unit
     let is := fun (y : Xfer) => y.is x unit
     let hash := x.hash ≠ lineHash (x.line * 128) x.interval x.data
     let swmr := (∃ k, smFind (knownKey x.line unit) s.mem.known = some k ∧ intervalBefore x.interval k = true) ∨ s.lostCopy x unit = true ∨ (s.directory x.line).coherent = false
     let receipt := wrongReceipt x unit (s.mem.xfers.find? is) = true
     let sound := x.bad = 0 ∧ x.fixed = 0
     quiet ∧ (hash ∨ swmr ∨ receipt) ∧ sound ∧ (∀ id, x.client ≠ .op id ∧ (x.client = .copy id → s.tstoRef id = none)) ∧ (∀ o ∈ s.mem.ops, o.id ∉ s.waitingOn x.line unit x.client) ∧ s.scribeObserves x.hp x.unit = false) ∧
    (let s : State := observing one
     let x : Transfer := { transferOf 1 0 5 with hash := 7 }
     let quiet := ∀ p ∈ s.mem.ops, p.kind ≠ .fence 1
     let unit := unitOf x.unit
     let is := fun (y : Xfer) => y.is x unit
     let hash := x.hash ≠ lineHash (x.line * 128) x.interval x.data
     let swmr := (∃ k, smFind (knownKey x.line unit) s.mem.known = some k ∧ intervalBefore x.interval k = true) ∨ s.lostCopy x unit = true ∨ (s.directory x.line).coherent = false
     let receipt := wrongReceipt x unit (s.mem.xfers.find? is) = true
     let sound := x.bad = 0 ∧ x.fixed = 0
     quiet ∧ (hash ∨ swmr ∨ receipt) ∧ sound ∧ (∀ id, x.client ≠ .op id ∧ (x.client = .copy id → s.tstoRef id = none)) ∧ (∀ o ∈ s.mem.ops, o.id ∉ s.waitingOn x.line unit x.client) ∧ s.scribeObserves x.hp x.unit = true) ∧
    (let s : State := windowOn [] [] [] (one)
     let home : ScribeId := homeEnd
     let peer : ScribeId := peerEnd
     let w : ScribeWin := ({ home := homeEnd, peer := peerEnd, since := 0, homeRecs := [], peerRecs := [], bad := [] } : ScribeWin)
     (s.mem.windows.find? (fun w => w.home == home && w.peer == peer) = some w) ∧ w.homeRecs = w.peerRecs) ∧
    (let s : State := windowOn [recOf 0x400 (some first)] [recOf 0x401 none] [] (one)
     let home : ScribeId := homeEnd
     let peer : ScribeId := peerEnd
     let w : ScribeWin := ({ home := homeEnd, peer := peerEnd, since := 0, homeRecs := [recOf 0x400 (some first)], peerRecs := [recOf 0x401 none], bad := [] } : ScribeWin)
     (s.mem.windows.find? (fun w => w.home == home && w.peer == peer) = some w) ∧ w.homeRecs ≠ w.peerRecs) ∧
    (let s : State := windowOn [] [] [recOf 0x400 (some first)] (one)
     let home : ScribeId := homeEnd
     let peer : ScribeId := peerEnd
     let w : ScribeWin := ({ home := homeEnd, peer := peerEnd, since := 0, homeRecs := [], peerRecs := [], bad := [recOf 0x400 (some first)] } : ScribeWin)
     let f : WinRec := recOf 0x400 (some first)
     let fs : List WinRec := ([] : List WinRec)
     let hp := s.hpOfLine f.line
     (s.mem.windows.find? (fun w => w.home == home && w.peer == peer) = some w) ∧ w.bad = f :: fs ∧ s.scribeObserves hp home = false ∧ (∀ o ∈ s.mem.ops, o.failed = false → ∀ e ∈ o.elems, ∀ q ∈ w.bad, lineOf e.pa ≠ q.line) ∧ (∀ q ∈ w.bad, ∀ c, q.cause = some c → valid c)) ∧
    (let s : State := one
     let src : Nat := 0
     let dst : Nat := 1
     smGet 0 (16 * src + dst) s.mem.seqTx = smGet 0 (16 * src + dst) s.mem.seqRx) ∧
    (let s : State := memOf (fun m => { m with seqTx := [((one.region 0 0x20010).home, 2)] }) (opsOf [{ aStore with id := 3 }, aStore] one)
     let src : Nat := 0
     let dst : Nat := (one.region 0 0x20010).home
     let p : Op := { aStore with id := 3 }
     let q : Op := aStore
     let hp := s.hpOfCluster src
     let chk := homeScribe dst (match p.elems with | e :: _ => lineOf e.pa | [] => 0)
     s.mem.ops = [p, q] ∧ s.underWay src dst = [p, q] ∧ smGet 0 (16 * src + dst) s.mem.seqTx ≠ smGet 0 (16 * src + dst) s.mem.seqRx ∧ valid q.ref ∧ q.kind ≠ .chkr ∧ p.id ≠ q.id ∧ q.acked = none ∧ (s.slice q.ref).taint = none ∧ s.scribeObserves hp chk = false) := by
  refine ⟨?_, ?_, ?_, ?_, ?_, ?_, ?_, ?_⟩
  · exact decided (by have := @someDec; infer_instance) (by decide +kernel)
  · exact decided (by have := @someDec; have := @clientDec; infer_instance) (by decide +kernel)
  · exact decided (by have := @someDec; have := @clientDec; infer_instance) (by decide +kernel)
  · decide +kernel
  · decide +kernel
  · exact decided (by have := @validDec; infer_instance) (by decide +kernel)
  · decide +kernel
  · exact decided (by have := @validDec; infer_instance) (by decide +kernel)

theorem witness_CheckerSteps :
    (let s : State := awaits { opOf (.fence 0) [] with cls := .q } []
     let o : Op := { opOf (.fence 0) [] with cls := .q }
     let cl := s.clusterOf o.ref
     let earlier := fun (test : Op → Prop) => ∀ p ∈ s.mem.ops, p.ref = o.ref → p.id < o.id → p.cls ≠ .none → test p
     s.op? o.id = some o ∧ valid o.ref ∧ (s.slice o.ref).taint = none ∧ (s.slice o.ref).wait = .op o.id ∧ (∀ p ∈ s.mem.ops, p.kind ≠ .fence 1) ∧ o.kind = .fence 0 ∧ o.cls = .q ∧ (earlier (fun p => p.ackedAt (pairScope p o) = true)) ∧ (∀ w ∈ (s.l1 cl).wbuf, o.id ≤ w.op) ∧ ((o.scope ≠ .team ∨ (s.team o.ref.tid).desc.pair = true) → ∀ p ∈ s.mem.ops, s.clusterOf p.ref = cl → p.id < o.id → p.cls ≠ .none → p.kind ≠ .fence 0 → p.performed = true) ∧ (o.scope = .sys → s.openWindows none = [])) ∧
    (let s : State := awaits { opOf (.fence 0) [] with cls := .q } [] |> fun s => memOf (fun m => { m with l1 := [(0, { L1.empty with wbuf := [{ op := 3, pa := 0x20010, key := 0, data := [1], heldBy := none }] })] }) s
     let o : Op := { opOf (.fence 0) [] with cls := .q }
     let cl := s.clusterOf o.ref
     s.op? o.id = some o ∧ valid o.ref ∧ (s.slice o.ref).taint = none ∧ (s.slice o.ref).wait = .op o.id ∧ (∀ p ∈ s.mem.ops, p.kind ≠ .fence 1) ∧ o.kind = .fence 0 ∧ o.cls = .q ∧ (∃ w ∈ (s.l1 cl).wbuf, w.op < o.id)) ∧
    (let s : State := awaits (opOf .seal []) []
     let o : Op := (opOf .seal [])
     let earlier := fun (test : Op → Prop) => ∀ p ∈ s.mem.ops, p.ref = o.ref → p.id < o.id → p.cls ≠ .none → test p
     s.op? o.id = some o ∧ valid o.ref ∧ (s.slice o.ref).taint = none ∧ (s.slice o.ref).wait = .op o.id ∧ (∀ p ∈ s.mem.ops, p.kind ≠ .fence 1) ∧ o.kind = .seal ∧ (earlier (fun p => p.ackedAt o.scope = true ∧ (p.cls.trails = true → p.performed = true))) ∧ o.lacking = []) ∧
    (let s : State := awaits (opOf .seal []) [earlierOp (some .team)]
     let o : Op := (opOf .seal [])
     s.op? o.id = some o ∧ valid o.ref ∧ (s.slice o.ref).taint = none ∧ (s.slice o.ref).wait = .op o.id ∧ (∀ p ∈ s.mem.ops, p.kind ≠ .fence 1) ∧ o.kind = .seal ∧ (o.lacking ≠ [] ∨ ∃ p ∈ s.mem.ops, p.ref = o.ref ∧ p.id < o.id ∧ p.cls ≠ .none ∧ p.ackedAt o.scope = false)) ∧
    (let s : State := awaits { opOf .chkr [elemOf 4 []] with host := true } []
     let o : Op := { opOf .chkr [elemOf 4 []] with host := true }
     s.op? o.id = some o ∧ valid o.ref ∧ (s.slice o.ref).taint = none ∧ (s.slice o.ref).wait = .op o.id ∧ (∀ p ∈ s.mem.ops, p.kind ≠ .fence 1) ∧ o.kind = .chkr ∧ o.host = true) ∧
    (let s : State := awaits (opOf .chkr [elemOf 4 []]) []
     let o : Op := (opOf .chkr [elemOf 4 []])
     let earlier := fun (test : Op → Prop) => ∀ p ∈ s.mem.ops, p.ref = o.ref → p.id < o.id → p.cls ≠ .none → test p
     s.op? o.id = some o ∧ valid o.ref ∧ (s.slice o.ref).taint = none ∧ (s.slice o.ref).wait = .op o.id ∧ (∀ p ∈ s.mem.ops, p.kind ≠ .fence 1) ∧ o.kind = .chkr ∧ o.host = false ∧ o.arrived = false ∧ s.anyHeld o.id o.elems = false ∧ (earlier (fun p => p.kind.isLoad = false → p.kind.gatherOf = none → elemsOverlap p.elems o.elems = true → p.ackedAt .dev = true))) ∧
    (let s : State := awaits (opOf .chkr [elemOf 4 []]) [earlierOp (some .team)]
     let o : Op := (opOf .chkr [elemOf 4 []])
     s.op? o.id = some o ∧ valid o.ref ∧ (s.slice o.ref).taint = none ∧ (s.slice o.ref).wait = .op o.id ∧ (∀ p ∈ s.mem.ops, p.kind ≠ .fence 1) ∧ o.kind = .chkr ∧ o.host = false ∧ o.arrived = false ∧ s.anyHeld o.id o.elems = false ∧ (∃ p ∈ s.mem.ops, p.ref = o.ref ∧ p.id < o.id ∧ p.cls ≠ .none ∧ p.kind.isLoad = false ∧ p.kind.gatherOf = none ∧ elemsOverlap p.elems o.elems = true ∧ p.ackedAt .dev = false)) ∧
    (let s : State := awaits { opOf .chkr [elemOf 4 []] with arrived := true, performed := true } [] |> memOf (fun m => { m with xfers := [{ line := 0x400, unit := 0, interval := 5, write := false, client := .op 5 }] })
     let o : Op := { opOf .chkr [elemOf 4 []] with arrived := true, performed := true }
     s.op? o.id = some o ∧ valid o.ref ∧ (s.slice o.ref).taint = none ∧ (s.slice o.ref).wait = .op o.id ∧ (∀ p ∈ s.mem.ops, p.kind ≠ .fence 1) ∧ o.kind = .chkr ∧ o.host = false ∧ o.arrived = true ∧ (∃ x ∈ s.mem.xfers, x.client = .op o.id)) ∧
    (let s : State := awaits { opOf .chkr [elemOf 4 []] with arrived := true, performed := true, clear := false } []
     let o : Op := { opOf .chkr [elemOf 4 []] with arrived := true, performed := true, clear := false }
     s.op? o.id = some o ∧ valid o.ref ∧ (s.slice o.ref).taint = none ∧ (s.slice o.ref).wait = .op o.id ∧ (∀ p ∈ s.mem.ops, p.kind ≠ .fence 1) ∧ o.kind = .chkr ∧ o.host = false ∧ o.arrived = true ∧ (∀ x ∈ s.mem.xfers, x.client ≠ .op o.id) ∧ o.clear = false) ∧
    (let s : State := awaits { opOf .chkr [elemOf 4 []] with arrived := true, performed := true, clear := true, lacking := [4] } []
     let o : Op := { opOf .chkr [elemOf 4 []] with arrived := true, performed := true, clear := true, lacking := [4] }
     s.op? o.id = some o ∧ valid o.ref ∧ (s.slice o.ref).taint = none ∧ (s.slice o.ref).wait = .op o.id ∧ (∀ p ∈ s.mem.ops, p.kind ≠ .fence 1) ∧ o.kind = .chkr ∧ o.host = false ∧ o.arrived = true ∧ (∀ x ∈ s.mem.xfers, x.client ≠ .op o.id) ∧ o.clear = true ∧ o.lacking ≠ []) ∧
    (let s : State := awaits { opOf .chkr [elemOf 4 []] with arrived := true, performed := true, clear := true } []
     let o : Op := { opOf .chkr [elemOf 4 []] with arrived := true, performed := true, clear := true }
     s.op? o.id = some o ∧ valid o.ref ∧ (s.slice o.ref).taint = none ∧ (s.slice o.ref).wait = .op o.id ∧ (∀ p ∈ s.mem.ops, p.kind ≠ .fence 1) ∧ o.kind = .chkr ∧ o.host = false ∧ o.arrived = true ∧ (∀ x ∈ s.mem.xfers, x.client ≠ .op o.id) ∧ o.clear = true ∧ o.lacking = []) ∧
    (let s : State := awaits (opOf .icinv [elemOf 4 []]) []
     let o : Op := (opOf .icinv [elemOf 4 []])
     let earlier := fun (test : Op → Prop) => ∀ p ∈ s.mem.ops, p.ref = o.ref → p.id < o.id → p.cls ≠ .none → test p
     s.op? o.id = some o ∧ valid o.ref ∧ (s.slice o.ref).taint = none ∧ (s.slice o.ref).wait = .op o.id ∧ (∀ p ∈ s.mem.ops, p.kind ≠ .fence 1) ∧ o.kind = .icinv ∧ (earlier (fun p => p.cls ≠ .l → p.ackedAt (Scope.wider .die o.scope) = true))) ∧
    (let s : State := { one with checks := [(0, { HpCheck.reset with lock := true })] }
     let hp : Nat := 0
     let c := s.check hp
     hp < 4 ∧ c.lock = true) ∧
    (let s : State := { one with dev := { one.dev with tdis := [(0, { st := 2, slots := [0] })] } }
     let hp : Nat := 0
     let v : Quad := (1 : Quad)
     hp < 4 ∧ s.tdiRun hp = true ∧ (v.getLsbD 0 = true ∨ v.getLsbD 1 = true)) ∧
    (let s : State := one
     let hp : Nat := 0
     let v : Quad := (7 : Quad)
     let c := s.check hp
     hp < 4 ∧ c.lock = false ∧ (s.tdiRun hp = false ∨ (v.getLsbD 0 = false ∧ v.getLsbD 1 = false))) ∧
    (let s : State := { one with dev := { one.dev with tdis := [(0, { st := 2, slots := [0] })] } }
     let hp : Nat := 0
     let v : Quad := (1 : Quad)
     hp < 4 ∧ s.tdiRun hp = true ∧ v.getLsbD 0 = true) ∧
    (let s : State := { one with checks := [(0, { HpCheck.reset with lock := true })] }
     let hp : Nat := 0
     let v : Quad := (7 : Quad)
     hp < 4 ∧ (s.tdiRun hp = false ∨ v.getLsbD 0 = false)) ∧
    (let hp : Nat := 0
     let v : Quad := (7 : Quad)
     hp < 4 ∧ v.getLsbD 24 = false) ∧
    (let s : State := { one with dev := { one.dev with hostq := [{ port := 0, vf := 0, pa := 0, op := .store [1] }] } }
     let hp : Nat := 0
     let v : Quad := (0x1000080 : Quad)
     hp < 4 ∧ v.getLsbD 24 = true ∧ s.dev.hostq ≠ []) ∧
    (let s : State := { one with checks := [(0, { HpCheck.reset with sdBusy := true, sdOps := [5] })] }
     let hp : Nat := 0
     let v : Quad := (0x1001000 : Quad)
     let c := s.check hp
     let n := v.toNat
     hp < 4 ∧ v.getLsbD 24 = true ∧ s.dev.hostq = [] ∧ (c.sdBusy = true ∨ (n / 2 ^ 12 % 2 ^ 12 = 0 ∧ v.getLsbD 7 = false) ∨ v.getLsbD 11 = true ∨ n / 2 ^ 25 ≠ 0)) ∧
    (let s : State := one
     let hp : Nat := 0
     let v : Quad := (0x1001000 : Quad)
     let c := s.check hp
     let n := v.toNat
     hp < 4 ∧ v.getLsbD 24 = true ∧ s.dev.hostq = [] ∧ c.sdBusy = false ∧ (n / 2 ^ 12 % 2 ^ 12 ≠ 0 ∨ v.getLsbD 7 = true) ∧ v.getLsbD 11 = false ∧ n / 2 ^ 25 = 0) ∧
    (let s : State := opsOf [aStore] ({ one with checks := [(0, { HpCheck.reset with sdBusy := true, sdOps := [5] })] })
     let hp : Nat := 0
     let c := s.check hp
     hp < 4 ∧ c.sdBusy = true ∧ (∃ o ∈ s.mem.ops, o.id ∈ c.sdOps ∧ o.ackedAt .dev = false)) ∧
    (let s : State := { one with checks := [(0, { HpCheck.reset with sdBusy := true, sdOps := [5] })] }
     let hp : Nat := 0
     let c := s.check hp
     hp < 4 ∧ c.sdBusy = true ∧ (∀ o ∈ s.mem.ops, o.id ∈ c.sdOps → o.ackedAt .dev = true)) := by
  refine ⟨?_, ?_, ?_, ?_, ?_, ?_, ?_, ?_, ?_, ?_, ?_, ?_, ?_, ?_, ?_, ?_, ?_, ?_, ?_, ?_, ?_, ?_, ?_⟩
  · exact decided (by have := @validDec; infer_instance) (by decide +kernel)
  · exact decided (by have := @validDec; infer_instance) (by decide +kernel)
  · exact decided (by have := @validDec; infer_instance) (by decide +kernel)
  · exact decided (by have := @validDec; infer_instance) (by decide +kernel)
  · exact decided (by have := @validDec; infer_instance) (by decide +kernel)
  · exact decided (by have := @validDec; infer_instance) (by decide +kernel)
  · exact decided (by have := @validDec; infer_instance) (by decide +kernel)
  · exact decided (by have := @validDec; infer_instance) (by decide +kernel)
  · exact decided (by have := @validDec; infer_instance) (by decide +kernel)
  · exact decided (by have := @validDec; infer_instance) (by decide +kernel)
  · exact decided (by have := @validDec; infer_instance) (by decide +kernel)
  · exact decided (by have := @validDec; infer_instance) (by decide +kernel)
  · decide +kernel
  · decide +kernel
  · decide +kernel
  · decide +kernel
  · decide +kernel
  · decide +kernel
  · decide +kernel
  · decide +kernel
  · decide +kernel
  · decide +kernel
  · decide +kernel

theorem witness_BarrierWordsAndGroups :
    (let s : State := arriving (barWord 3 2 3 true false) (arrival 0 false 0)
     let o : Op := arrival 0 false 0
     let half : Nat := 0
     let off : Nat := 0x100
     let flag : Bool := false
     let r := o.ref
     let x := s.slice r
     let team := s.team r.tid
     let own := if smGet false (scratchKey half off) team.paired then team.halfOf r.bent else half
     let word := fun (t : State) (h : Nat) => natOfBytes (bytesGet (t.team r.tid).scratch (scratchKey h off) 8)
     let w := word s own
     let pending := w / 2 ^ 16 % 2 ^ 16
     let next := w / 2 ^ 32 % 2 ^ 16
     let what : Nat := 0
     let v : Quad := (0 : Quad)
     let drop := what = 1
     let accepted := w / 2 ^ 51 = 0 ∧ bitOf w 49 = true ∧ bitOf w 50 = flag ∧ scratchKey own off ∉ x.drops ∧ 1 ≤ pending ∧ (drop → 1 ≤ next)
     s.mem.ops = [o] ∧ valid o.ref ∧ o.performed = true ∧ (s.team o.ref.tid).away = false ∧ (what = 0 ∨ what = 1) ∧ o.kind = .barrier what half off flag v ∧ accepted ∧ x.wait = .arrival o.grp ∧ 2 ≤ pending) ∧
    (let s : State := arriving (barWord 3 1 3 true false) (arrival 0 false 0)
     let o : Op := arrival 0 false 0
     let half : Nat := 0
     let off : Nat := 0x100
     let flag : Bool := false
     let r := o.ref
     let x := s.slice r
     let team := s.team r.tid
     let own := if smGet false (scratchKey half off) team.paired then team.halfOf r.bent else half
     let word := fun (t : State) (h : Nat) => natOfBytes (bytesGet (t.team r.tid).scratch (scratchKey h off) 8)
     let w := word s own
     let pending := w / 2 ^ 16 % 2 ^ 16
     let next := w / 2 ^ 32 % 2 ^ 16
     let what : Nat := 0
     let v : Quad := (0 : Quad)
     let drop := what = 1
     let accepted := w / 2 ^ 51 = 0 ∧ bitOf w 49 = true ∧ bitOf w 50 = flag ∧ scratchKey own off ∉ x.drops ∧ 1 ≤ pending ∧ (drop → 1 ≤ next)
     s.mem.ops = [o] ∧ valid o.ref ∧ o.performed = true ∧ (s.team o.ref.tid).away = false ∧ (what = 0 ∨ what = 1) ∧ o.kind = .barrier what half off flag v ∧ accepted ∧ x.wait = .arrival o.grp ∧ pending = 1 ∧ smGet false (scratchKey own off) team.paired = false) ∧
    (let s : State := arriving (2 ^ 51) (arrival 0 false 0)
     let o : Op := arrival 0 false 0
     let half : Nat := 0
     let off : Nat := 0x100
     let flag : Bool := false
     let r := o.ref
     let x := s.slice r
     let team := s.team r.tid
     let own := if smGet false (scratchKey half off) team.paired then team.halfOf r.bent else half
     let word := fun (t : State) (h : Nat) => natOfBytes (bytesGet (t.team r.tid).scratch (scratchKey h off) 8)
     let w := word s own
     let pending := w / 2 ^ 16 % 2 ^ 16
     let next := w / 2 ^ 32 % 2 ^ 16
     let what : Nat := 0
     let v : Quad := (0 : Quad)
     let drop := what = 1
     let accepted := w / 2 ^ 51 = 0 ∧ bitOf w 49 = true ∧ bitOf w 50 = flag ∧ scratchKey own off ∉ x.drops ∧ 1 ≤ pending ∧ (drop → 1 ≤ next)
     s.mem.ops = [o] ∧ valid o.ref ∧ o.performed = true ∧ (s.team o.ref.tid).away = false ∧ (what = 0 ∨ what = 1) ∧ o.kind = .barrier what half off flag v ∧ ¬ accepted ∧ x.pend = [] ∧ x.tmode = false ∧ team.desc.handler ≠ 0xFFFFFFFF ∧ (s.ccb team.hp team.ctx).tlogon = false ∧ x.moveTo = none ∧ s.iss.fused = false ∧ s.mem.blocked = false) ∧
    (let s : State := sliceAt 32 (fun x => { x with wait := .none }) (arriving (barWord 3 2 3 true false) (arrival 2 false 0x5000000000007))
     let o : Op := arrival 2 false 0x5000000000007
     let half : Nat := 0
     let off : Nat := 0x100
     let r := o.ref
     let x := s.slice r
     let team := s.team r.tid
     let v : Quad := (0x5000000000007 : Quad)
     s.mem.ops = [o] ∧ valid o.ref ∧ o.performed = true ∧ (s.team o.ref.tid).away = false ∧ smGet false (scratchKey half off) team.paired = false ∧ s.wordParked r.tid half off = false ∧ s.wordNamed r.tid half off = false ∧ x.wait = .arrival o.grp ∧ o.kind = .barrier 2 half off false v) ∧
    (let s : State := sliceAt 32 (fun x => { x with wait := .none }) (arriving (barWord 3 2 3 true false) (arrival 3 false 0x0))
     let o : Op := arrival 3 false 0x0
     let half : Nat := 0
     let off : Nat := 0x100
     let flag : Bool := false
     let r := o.ref
     let x := s.slice r
     let team := s.team r.tid
     let v : Quad := (0x0 : Quad)
     s.mem.ops = [o] ∧ valid o.ref ∧ o.performed = true ∧ (s.team o.ref.tid).away = false ∧ smGet false (scratchKey half off) team.paired = false ∧ s.wordParked r.tid half off = false ∧ s.wordNamed r.tid half off = false ∧ x.wait = .arrival o.grp ∧ o.kind = .barrier 3 half off flag v) ∧
    (let s : State := teamOf (fun t => { t with halfdone := [(0, 0x100)] }) (arriving (barWord 3 2 3 true false) (arrival 0 false 0))
     let tid : Nat := 0
     let half : Nat := 0
     let off : Nat := 0x100
     (half, off) ∈ (s.team tid).halfdone) ∧
    (let s : State := inGroups ({ expected := 3, pending := 2, next := 3, phase := false } : GroupEntry) (groupOp 1 false)
     let o : Op := groupOp 1 false
     let r := o.ref
     let x := s.slice r
     let team := s.team r.tid
     let slot : Nat := 1
     let drop : Bool := false
     let e : GroupEntry := ({ expected := 3, pending := 2, next := 3, phase := false } : GroupEntry)
     let g := team.groups.getD slot 0xFFFF
     let entries := fun (t : State) => smGet [] team.launch t.sync.groups
     s.mem.ops = [o] ∧ valid o.ref ∧ o.performed = true ∧ o.kind = .group slot drop ∧ team.away = false ∧ slot < 4 ∧ (entries s)[g]? = some e ∧ team.arrived.getLsbD slot = false ∧ team.dropped.getLsbD slot = false ∧ x.wait = .arrival o.grp) ∧
    (let s : State := teamOf (fun t => { t with arrived := 2 }) (inGroups ({ expected := 3, pending := 2, next := 3, phase := false } : GroupEntry) (groupOp 1 false))
     let o : Op := groupOp 1 false
     let r := o.ref
     let x := s.slice r
     let team := s.team r.tid
     let slot : Nat := 1
     let drop : Bool := false
     let e : GroupEntry := ({ expected := 3, pending := 2, next := 3, phase := false } : GroupEntry)
     let g := team.groups.getD slot 0xFFFF
     let entries := fun (t : State) => smGet [] team.launch t.sync.groups
     s.mem.ops = [o] ∧ valid o.ref ∧ o.performed = true ∧ o.kind = .group slot drop ∧ team.away = false ∧ slot < 4 ∧ (entries s)[g]? = some e ∧ (team.arrived.getLsbD slot = true ∨ team.dropped.getLsbD slot = true) ∧ x.pend = [] ∧ x.tmode = false ∧ team.desc.handler ≠ 0xFFFFFFFF ∧ (s.ccb team.hp team.ctx).tlogon = false ∧ x.moveTo = none ∧ s.iss.fused = false ∧ s.mem.blocked = false) ∧
    (let s : State := savedTeam (barWord 3 2 3 true false) (arrival 0 false 0)
     let o : Op := arrival 0 false 0
     let r := o.ref
     let x := s.slice r
     let team := s.team r.tid
     let half : Nat := 0
     let off : Nat := 0x100
     let v : Quad := (0 : Quad)
     let e : TlbEntry := tlbOf 0 0 (0x10000 + ((savedTeam 0 (arrival 0 false 0)).team 0).wordAt 0 0x100) 0x2006F true
     let f : TlbEntry := tlbOf 0 0 (0x10000 + ((savedTeam 0 (arrival 0 false 0)).team 0).shadowAt 0 0x100) 0x3006F true
     let base := (s.ccb team.hp team.ctx).imgbase.toNat
     let va := base + team.wordAt half off
     let sh := base + team.shadowAt half off
     let pa := physical e va
     let w := natOfBytes (memReadN s.mem.bytes pa 8)
     s.mem.ops = [o] ∧ valid o.ref ∧ o.performed = true ∧ o.kind = .barrier 0 half off false v ∧ team.away = true ∧ team.desc.pair = false ∧ half = 0 ∧ x.drops = [] ∧ va % 8 = 0 ∧ va + 8 ≤ 2 ^ 64 ∧ sh < 2 ^ 64 ∧ Serves s team.hp team.ctx .write va e ∧ Serves s team.hp team.ctx .read va e ∧ s.poisoned pa 8 = false ∧ Serves s team.hp team.ctx .write sh f ∧ Serves s team.hp team.ctx .read sh f ∧ s.poisoned (physical f sh) 1 = false ∧ (physical f sh < pa ∨ pa + 8 ≤ physical f sh) ∧ natOfBytes (memReadN s.mem.bytes (physical f sh) 1) = 0 ∧ w / 2 ^ 51 = 0 ∧ bitOf w 49 = true ∧ bitOf w 50 = false ∧ 2 ≤ w / 2 ^ 16 % 2 ^ 16) := by
  refine ⟨?_, ?_, ?_, ?_, ?_, ?_, ?_, ?_, ?_⟩
  · exact decided (by have := @validDec; infer_instance) (by decide +kernel)
  · exact decided (by have := @validDec; infer_instance) (by decide +kernel)
  · exact decided (by have := @validDec; infer_instance) (by decide +kernel)
  · exact decided (by have := @validDec; infer_instance) (by decide +kernel)
  · exact decided (by have := @validDec; infer_instance) (by decide +kernel)
  · decide +kernel
  · exact decided (by have := @validDec; infer_instance) (by decide +kernel)
  · exact decided (by have := @validDec; infer_instance) (by decide +kernel)
  · exact decided (by have := @servesDec; have := @validDec; infer_instance) (by decide +kernel)

theorem witness_QueueSteps :
    (let s : State := queued (queueOf [entry16 7] 0 0 false) (queueOp (.push 5 2))
     let o : Op := queueOp (.push 5 2)
     let e : Elem := elemOf 16 (bytesOfNat 16 0x123456789)
     let q : Nat := 5
     let x := s.queue q
     let p : Nat := 2
     s.mem.ops = [o] ∧ valid o.ref ∧ o.elems = [e] ∧ x.valid = true ∧ o.kind = .push q p ∧ o.performed = true ∧ x.scount = 0 ∧ x.ring.length < 256 ∧ x.err = false) ∧
    (let s : State := queued (queueOf [entry16 7] 0 0 true) (queueOp (.push 5 2))
     let o : Op := queueOp (.push 5 2)
     let e : Elem := elemOf 16 (bytesOfNat 16 0x123456789)
     let q : Nat := 5
     let x := s.queue q
     let p : Nat := 2
     s.mem.ops = [o] ∧ valid o.ref ∧ o.elems = [e] ∧ x.valid = true ∧ o.kind = .push q p ∧ o.performed = true ∧ (x.err = true ∨ (256 ≤ x.ring.length ∧ (x.splog = 0 ∨ 2 ^ x.splog ≤ x.scount)))) ∧
    (let s : State := queued (queueOf [entry16 7, entry16 8] 0 0 false) (queueOp (.pop 5 4 2))
     let o : Op := queueOp (.pop 5 4 2)
     let e : Elem := elemOf 16 (bytesOfNat 16 0x123456789)
     let q : Nat := 5
     let x := s.queue q
     let d : Nat := 4
     let p : Nat := 2
     let b : List Byte := (entry16 7)
     let bs : List (List Byte) := [entry16 8]
     s.mem.ops = [o] ∧ valid o.ref ∧ o.elems = [e] ∧ x.valid = true ∧ o.kind = .pop q d p ∧ x.ring = b :: bs) ∧
    (let s : State := queued (queueOf [] 0 0 false) (queueOp (.pop 5 4 2))
     let o : Op := queueOp (.pop 5 4 2)
     let e : Elem := elemOf 16 (bytesOfNat 16 0x123456789)
     let q : Nat := 5
     let x := s.queue q
     let d : Nat := 4
     let p : Nat := 2
     s.mem.ops = [o] ∧ valid o.ref ∧ o.elems = [e] ∧ x.valid = true ∧ o.kind = .pop q d p ∧ x.ring = [] ∧ x.scount = 0) ∧
    (let s : State := queued (queueOf [entry16 7] 0 0 false) (queueOp (.stat 5 4))
     let o : Op := queueOp (.stat 5 4)
     let e : Elem := elemOf 16 (bytesOfNat 16 0x123456789)
     let q : Nat := 5
     let x := s.queue q
     let d : Nat := 4
     s.mem.ops = [o] ∧ valid o.ref ∧ o.elems = [e] ∧ x.valid = true ∧ o.kind = .stat q d) ∧
    (let s : State := queued (queueOf [entry16 7] 2 1 false) (queueOp (.stat 5 4))
     let q : Nat := 5
     let f : TlbEntry := tlbOf 0 0 0x20030 0x2006F true
     let x := s.queue q
     let va := x.spbase.toNat + 16 * (x.shead % 2 ^ x.splog)
     x.valid = true ∧ x.scount = 1 ∧ x.ring.length < 256 ∧ x.err = false ∧ Serves s (s.queueHp q) x.ctx .read va f ∧ s.poisoned (physical f va) 16 = false) ∧
    (let q : Nat := 5
     q < 4096) := by
  refine ⟨?_, ?_, ?_, ?_, ?_, ?_, ?_⟩
  · exact decided (by have := @validDec; infer_instance) (by decide +kernel)
  · exact decided (by have := @validDec; infer_instance) (by decide +kernel)
  · exact decided (by have := @validDec; infer_instance) (by decide +kernel)
  · exact decided (by have := @validDec; infer_instance) (by decide +kernel)
  · exact decided (by have := @validDec; infer_instance) (by decide +kernel)
  · exact decided (by have := @servesDec; have := @validDec; infer_instance) (by decide +kernel)
  · decide +kernel

theorem witness_Packets :
    (let s : State := pooled (entryOf 9 0 0 []) (mapped 0 one)
     let e : Entry := entryOf 9 0 0 []
     s.entry? e.eid = some e ∧ e.stage = 0) ∧
    (let s : State := pooled ({ entryOf 9 0 1 [(16, 3)] with level := 2 }) (mapped 0 one)
     let e : Entry := { entryOf 9 0 1 [(16, 3)] with level := 2 }
     s.entry? e.eid = some e ∧ e.stage = 1 ∧ 0 < e.level) ∧
    (let s : State := pooled (entryOf 9 0 2 []) (mapped 0 one)
     let e : Entry := entryOf 9 0 2 []
     s.entry? e.eid = some e ∧ e.stage = 2 ∧ s.running e.hp e.ctx = true) ∧
    (let s : State := pooled (entryOf 9 0 3 []) (mapped 0 one)
     let e : Entry := entryOf 9 0 3 []
     s.entry? e.eid = some e ∧ Starts s e 0 ∧ Plain e) ∧
    (let s : State := pooled (entryOf 9 0 3 [(32, 1), (64, 9)]) (timeline 5 one)
     let e : Entry := entryOf 9 0 3 [(32, 1), (64, 9)]
     let va : Nat := 0x20180
     let x : TlbEntry := tlbOf 0 0 0x20000 0x2006F true
     s.entry? e.eid = some e ∧ Starts s e 0 ∧ e.tlid ≠ 0 ∧ e.irq = false ∧ e.node = none ∧ s.findTimeline e.hp e.ctx e.tlid = (some va, s) ∧ Serves s e.hp e.ctx .write va x) ∧
    (let s : State := pooled (entryOf 9 8 3 [(128, 0x20010), (192, 5), (256, 0)]) (store 0x20010 8 77 (mapped 0 one))
     let e : Entry := entryOf 9 8 3 [(128, 0x20010), (192, 5), (256, 0)]
     let x : TlbEntry := tlbOf 0 0 0x20000 0x2006F true
     let va := e.field 191 128
     let op := e.field 257 256
     s.entry? e.eid = some e ∧ Starts s e 8 ∧ Plain e ∧ op < 3 ∧ (Serves s e.hp e.ctx (if op = 0 then .write else .atomic) va x) ∧ s.poisoned (physical x va) 8 = false ∧ s.mem.migs = [] ∧ s.lineHeld (lineOf (physical x va)) 0 = false ∧ s.openWindows none = []) ∧
    (let s : State := pooled (entryOf 9 9 3 [(256, 1000)]) (mapped 0 one)
     let e : Entry := entryOf 9 9 3 [(256, 1000)]
     s.entry? e.eid = some e ∧ Starts s e 9) ∧
    (let s : State := pooled (entryOf 9 9 4 [(128, 1), (192, 5)]) (timeline 5 one)
     let e : Entry := entryOf 9 9 4 [(128, 1), (192, 5)]
     let va : Nat := 0x20180
     let f : Nat × Nat × Nat := (5, 0, 0)
     s.entry? e.eid = some e ∧ e.stage = 4 ∧ e.kind = 9 ∧ Plain e ∧ s.timelineVa e.hp e.ctx (e.field 143 128) = some va ∧ s.timeline e.hp e.ctx va = some f ∧ e.field 255 192 ≤ f.1) ∧
    (let s : State := pooled (entryOf 9 9 4 [(128, 1), (192, 6)]) (timeline 5 one)
     let e : Entry := entryOf 9 9 4 [(128, 1), (192, 6)]
     let va : Nat := 0x20180
     let f : Nat × Nat × Nat := (5, 0, 0)
     s.entry? e.eid = some e ∧ e.stage = 4 ∧ e.kind = 9 ∧ Plain e ∧ s.timelineVa e.hp e.ctx (e.field 143 128) = some va ∧ s.timeline e.hp e.ctx va = some f ∧ f.1 < e.field 255 192) ∧
    (let s : State := pooled ({ entryOf 9 9 4 [(256, 1000)] with until_ := 1000 }) (mapped 0 one)
     let e : Entry := { entryOf 9 9 4 [(256, 1000)] with until_ := 1000 }
     s.entry? e.eid = some e ∧ e.stage = 4 ∧ e.kind = 9 ∧ Plain e ∧ e.field 319 256 ≠ 0) ∧
    (let s : State := pooled (entryOf 9 9 4 [(128, 1), (192, 5)]) (timeline 5 one)
     let e : Entry := entryOf 9 9 4 [(128, 1), (192, 5)]
     s.entry? e.eid = some e ∧ e.stage = 4 ∧ e.kind = 9 ∧ Plain e ∧ e.field 319 256 = 0) ∧
    (let s : State := withUserQueue 0
     let hp : Nat := 0
     let ctx : Nat := 0
     let q : Nat := 3
     let x : QueueReg := userQueue
     let hd : List Byte := bytesOfNat 32 (5 * 2 ^ 128)
     let idx : Nat := 5
     let pkt : List Byte := bytesOfNat 64 0
     s.userQueue hp ctx q = some x ∧ x.bind = false ∧ x.prev = none ∧ s.openWindows none = [] ∧ s.running hp ctx = true ∧ s.poolCount hp ctx < 4096 ∧ hd.length = 32 ∧ Holds s hp ctx x.hdr hd ∧ bitsOf (natOfBytes hd) 191 128 = idx ∧ bitOf (natOfBytes hd) 72 = false ∧ pkt.length = 64 ∧ Holds s hp ctx ((x.rbase + 64 * (idx % 2 ^ x.log2n)) % 2 ^ 64) pkt ∧ bitsOf (natOfBytes pkt) 31 24 ≠ (idx / 2 ^ x.log2n + 1) % 256) ∧
    (let s : State := withUserQueue 2
     let hp : Nat := 0
     let ctx : Nat := 0
     let q : Nat := 3
     let x : QueueReg := userQueue
     let hd : List Byte := bytesOfNat 32 (5 * 2 ^ 128)
     let idx : Nat := 5
     let pkt : List Byte := bytesOfNat 64 (2 * 2 ^ 24)
     let w : TlbEntry := tlbOf 0 0 0x20000 0x2006F true
     let p := newEntry s hp ctx none q idx pkt
     s.userQueue hp ctx q = some x ∧ x.bind = false ∧ x.prev = none ∧ s.openWindows none = [] ∧ s.running hp ctx = true ∧ s.poolCount hp ctx < 4096 ∧ hd.length = 32 ∧ Holds s hp ctx x.hdr hd ∧ bitsOf (natOfBytes hd) 191 128 = idx ∧ bitOf (natOfBytes hd) 72 = false ∧ pkt.length = 64 ∧ Holds s hp ctx ((x.rbase + 64 * (idx % 2 ^ x.log2n)) % 2 ^ 64) pkt ∧ bitsOf (natOfBytes pkt) 31 24 = (idx / 2 ^ x.log2n + 1) % 256 ∧ Serves s hp ctx .write (x.hdr + 16) w ∧ Sound p) ∧
    (let s : State := pooled (entryOf 9 2 3 [(128, 0x20000), (192, 0x20100), (256, 64)]) (mapped 0 one)
     let e : Entry := entryOf 9 2 3 [(128, 0x20000), (192, 0x20100), (256, 64)]
     e.eid < s.mem.nextOp ∧ Starts s e 2 ∧ e.field 305 304 ≠ 1) ∧
    (let s : State := pooled (entryOf 9 6 3 [(128, 0x20000), (192, 4), (256, 0x20100), (320, 0x20200)]) (mapped 0 one)
     let e : Entry := entryOf 9 6 3 [(128, 0x20000), (192, 4), (256, 0x20100), (320, 0x20200)]
     e.eid < s.mem.nextOp ∧ Starts s e 6) ∧
    (let s : State := withDesc 33 (entryOf 9 1 3 [(128, 0x20000)])
     let e : Entry := entryOf 9 1 3 [(128, 0x20000)]
     let bs : List Byte := bytesOfNat 256 (descBytes 33)
     e.eid < s.mem.nextOp ∧ Starts s e 1 ∧ bs.length = 256 ∧ Holds s e.hp e.ctx (e.field 191 128) bs ∧ descBad (natOfBytes bs) = true ∧ e.node = none) ∧
    (let s : State := withDesc 2 (entryOf 9 1 3 [(128, 0x20000), (192, 7), (256, 3), (288, 1), (304, 1)])
     let e : Entry := entryOf 9 1 3 [(128, 0x20000), (192, 7), (256, 3), (288, 1), (304, 1)]
     let bs : List Byte := bytesOfNat 256 (descBytes 2)
     let d := descOf (natOfBytes bs)
     e.eid < s.mem.nextOp ∧ Starts s e 1 ∧ bs.length = 256 ∧ Holds s e.hp e.ctx (e.field 191 128) bs ∧ descBad (natOfBytes bs) = false ∧ e.field 383 320 = 0 ∧ d.groups = 0 ∧ (d.isolated = false ∨ d.acc = 0)) ∧
    (let s : State := pooled (entryOf 9 3 3 [(128, 0x20000)]) (mapped 0 one)
     let e : Entry := entryOf 9 3 3 [(128, 0x20000)]
     let p : Nat × Instr × Bool := (3, (Instr.evDovetailPacket 9), true)
     e.eid < s.mem.nextOp ∧ p ∈ ([(3, .evDovetailPacket e.eid, true), (4, .evCollectivePacket e.eid, false)] : List (Nat × Instr × Bool)) ∧ Starts s e p.1) ∧
    (let s : State := pooled (entryOf 9 7 3 [(128, 0x20000)]) (store 0x20000 256 (2 ^ 17 + 2) (mapped 0 one))
     let e : Entry := entryOf 9 7 3 [(128, 0x20000)]
     let hd : List Byte := bytesOfNat 256 (2 ^ 17 + 2)
     let n := natOfBytes hd
     e.eid < s.mem.nextOp ∧ Starts s e 7 ∧ hd.length = 256 ∧ Holds s e.hp e.ctx (e.field 191 128) hd ∧ (∀ g ∈ s.dist.graphs, g.gid < s.mem.nextOp) ∧ (n / 2 ^ 17 ≠ 0 ∨ n % 65536 = 0) ∧ e.node = none) ∧
    (let s : State := withGraph 1 (entryOf 9 7 3 [(128, 0x20000)])
     let e : Entry := entryOf 9 7 3 [(128, 0x20000)]
     let hd : List Byte := bytesOfNat 256 graphHeader
     let n := natOfBytes hd
     let node := fun k => (e.field 191 128 + 256 * (k + 1))
     e.eid < s.mem.nextOp ∧ Starts s e 7 ∧ hd.length = 256 ∧ Holds s e.hp e.ctx (e.field 191 128) hd ∧ (∀ g ∈ s.dist.graphs, g.gid < s.mem.nextOp) ∧ n / 2 ^ 17 = 0 ∧ n % 65536 ≠ 0 ∧ (∀ k < n % 65536, ∃ bs, bs.length = 256 ∧ Holds s e.hp e.ctx (node k) bs ∧ nodeMalformed (n % 65536) (natOfBytes bs) = false)) ∧
    (let s : State := graphed 2 2 0
     let e : Entry := entryOf 9 7 4 [(128, 0x20000)]
     let g : Machine.Graph := graphOf 2 0
     let k : Nat := 1
     let bs : List Byte := bytesOfNat 256 (nodeBytes 2 [])
     let w : TlbEntry := tlbOf 0 0 0x20000 0x2006F true
     let live := bitsOf (natOfBytes bs) 543 528
     let j : Nat := 0
     let js : Nat := nodeBytes 0 [1]
     e.eid < s.mem.nextOp ∧ s.graph? g.gid = some g ∧ bs.length = 256 ∧ Holds s g.hp g.ctx (g.nodeVa k) bs ∧ g.nodeVa k % 256 = 0 ∧ Serves s g.hp g.ctx .write (g.nodeVa k + 66) w ∧ s.readNode g j = some js ∧ nodeSuccs js = [k] ∧ k < g.nnode ∧ k ≠ j ∧ (smGet 0 j g.nodes = 2 ∨ smGet 0 j g.nodes = 3) ∧ smGet 0 k g.nodes = 0 ∧ (smGet 0 j g.nodes = 3 → g.stopErr = false) ∧ g.skip = [] ∧ 2 ≤ live) ∧
    (let s : State := graphed 1 2 0
     let e : Entry := entryOf 9 7 4 [(128, 0x20000)]
     let g : Machine.Graph := graphOf 2 0
     let k : Nat := 1
     let bs : List Byte := bytesOfNat 256 (nodeBytes 1 [])
     let w : TlbEntry := tlbOf 0 0 0x20000 0x2006F true
     let live := bitsOf (natOfBytes bs) 543 528
     let j : Nat := 0
     let js : Nat := nodeBytes 0 [1]
     e.eid < s.mem.nextOp ∧ s.graph? g.gid = some g ∧ bs.length = 256 ∧ Holds s g.hp g.ctx (g.nodeVa k) bs ∧ g.nodeVa k % 256 = 0 ∧ Serves s g.hp g.ctx .write (g.nodeVa k + 66) w ∧ s.readNode g j = some js ∧ nodeSuccs js = [k] ∧ k < g.nnode ∧ k ≠ j ∧ (smGet 0 j g.nodes = 2 ∨ smGet 0 j g.nodes = 3) ∧ smGet 0 k g.nodes = 0 ∧ (smGet 0 j g.nodes = 3 → g.stopErr = false) ∧ g.skip = [] ∧ live = 1) ∧
    (let s : State := opsOf [nodego] (graphed 2 0 0)
     let e : Entry := entryOf 9 7 4 [(128, 0x20000)]
     let g : Machine.Graph := graphOf 0 0
     let k : Nat := 1
     let bs : List Byte := bytesOfNat 256 (nodeBytes 2 [])
     let w : TlbEntry := tlbOf 0 0 0x20000 0x2006F true
     let live := bitsOf (natOfBytes bs) 543 528
     let o : Op := nodego
     e.eid < s.mem.nextOp ∧ s.graph? g.gid = some g ∧ bs.length = 256 ∧ Holds s g.hp g.ctx (g.nodeVa k) bs ∧ g.nodeVa k % 256 = 0 ∧ Serves s g.hp g.ctx .write (g.nodeVa k + 66) w ∧ s.mem.ops = [o] ∧ o.kind = .nodego (BitVec.ofNat 64 (g.nodeVa k)) ∧ o.performed = true ∧ valid o.ref ∧ g.nodeVa k < 2 ^ 64 ∧ s.nodeAt (s.team o.ref.tid).hp (s.team o.ref.tid).ctx (g.nodeVa k) = some (g, k) ∧ 2 ≤ live) ∧
    (let s : State := opsOf [nodego] (graphed 0 0 0)
     let e : Entry := entryOf 9 7 4 [(128, 0x20000)]
     let g : Machine.Graph := graphOf 0 0
     let k : Nat := 1
     let bs : List Byte := bytesOfNat 256 (nodeBytes 0 [])
     let w : TlbEntry := tlbOf 0 0 0x20000 0x2006F true
     let live := bitsOf (natOfBytes bs) 543 528
     let o : Op := nodego
     e.eid < s.mem.nextOp ∧ s.graph? g.gid = some g ∧ bs.length = 256 ∧ Holds s g.hp g.ctx (g.nodeVa k) bs ∧ g.nodeVa k % 256 = 0 ∧ Serves s g.hp g.ctx .write (g.nodeVa k + 66) w ∧ s.mem.ops = [o] ∧ o.kind = .nodego (BitVec.ofNat 64 (g.nodeVa k)) ∧ o.performed = true ∧ valid o.ref ∧ g.nodeVa k < 2 ^ 64 ∧ s.nodeAt (s.team o.ref.tid).hp (s.team o.ref.tid).ctx (g.nodeVa k) = some (g, k) ∧ live = 0) := by
  refine ⟨?_, ?_, ?_, ?_, ?_, ?_, ?_, ?_, ?_, ?_, ?_, ?_, ?_, ?_, ?_, ?_, ?_, ?_, ?_, ?_, ?_, ?_, ?_, ?_⟩
  · decide +kernel
  · decide +kernel
  · decide +kernel
  · exact decided (by have := @startsDec; have := @plainDec; infer_instance) (by decide +kernel)
  · exact decided (by have := @servesDec; have := @startsDec; infer_instance) (by decide +kernel)
  · exact decided (by have := @servesDec; have := @startsDec; have := @plainDec; infer_instance) (by decide +kernel)
  · exact decided (by have := @startsDec; infer_instance) (by decide +kernel)
  · exact decided (by have := @plainDec; infer_instance) (by decide +kernel)
  · exact decided (by have := @plainDec; infer_instance) (by decide +kernel)
  · exact decided (by have := @plainDec; infer_instance) (by decide +kernel)
  · exact decided (by have := @plainDec; infer_instance) (by decide +kernel)
  · exact decided (by have := @holdsDec; infer_instance) (by decide +kernel)
  · exact decided (by have := @servesDec; have := @holdsDec; have := @soundDec; infer_instance) (by decide +kernel)
  · exact decided (by have := @startsDec; infer_instance) (by decide +kernel)
  · exact decided (by have := @startsDec; infer_instance) (by decide +kernel)
  · exact decided (by have := @holdsDec; have := @startsDec; infer_instance) (by decide +kernel)
  · exact decided (by have := @holdsDec; have := @startsDec; infer_instance) (by decide +kernel)
  · exact decided (by have := @startsDec; infer_instance) (by decide +kernel)
  · exact decided (by have := @holdsDec; have := @startsDec; infer_instance) (by decide +kernel)
  · intro s e hd n node
    have h : ∀ k < n % 65536, (memReadN s.mem.bytes (node k) 256).length = 256 ∧ Holds s e.hp e.ctx (node k) (memReadN s.mem.bytes (node k) 256) ∧
        nodeMalformed (n % 65536) (natOfBytes (memReadN s.mem.bytes (node k) 256)) = false :=
      decided (by have := @holdsDec; infer_instance) (by decide +kernel)
    exact ⟨by decide +kernel, decided (by have := @startsDec; infer_instance) (by decide +kernel), by decide +kernel,
      decided (by have := @holdsDec; infer_instance) (by decide +kernel), by decide +kernel, by decide +kernel, by decide +kernel, fun k hk => ⟨_, h k hk⟩⟩
  · exact decided (by have := @servesDec; have := @holdsDec; infer_instance) (by decide +kernel)
  · exact decided (by have := @servesDec; have := @holdsDec; infer_instance) (by decide +kernel)
  · exact decided (by have := @servesDec; have := @holdsDec; have := @validDec; infer_instance) (by decide +kernel)
  · exact decided (by have := @servesDec; have := @holdsDec; have := @validDec; infer_instance) (by decide +kernel)

theorem witness_CopySteps :
    (let s : State := copying (packetCopy 0x20100 0x20000 4) one
     let c : Copy := packetCopy 0x20100 0x20000 4
     let e : TlbEntry := tlbOf 0 0 0x20000 0x2006F true
     let f : TlbEntry := tlbOf 0 0 0x20000 0x2006F true
     let n := c.chunkBytes c.next
     let lo := max c.dst ((c.dst / 2048 + c.next) * 2048)
     let from_ := c.src + (lo - c.dst)
     s.mem.ops = [] ∧ s.mem.migs = [] ∧ s.openWindows none = [] ∧ s.copy.copies = [c] ∧ c.started = true ∧ valid c.ref ∧ c.ready = true ∧ c.op = 0 ∧ c.desc = none ∧ c.dsp = 0 ∧ c.ssp = 0 ∧ c.cls < 4 ∧ ccbKey c.hp c.ctx < 256 ∧ (s.engineCtx c.engine (ccbKey c.hp c.ctx)).deficit.length = 4 ∧ (∀ k < n, Serves s c.hp c.ctx .read (from_ + k) e ∧ physical e (from_ + k) = physical e from_ + k ∧ s.poisoned (physical e (from_ + k)) 1 = false) ∧ (∀ k < n, Serves s c.hp c.ctx .write (lo + k) f ∧ physical f (lo + k) = physical f lo + k) ∧ from_ % 4096 + n ≤ 4096 ∧ lo % 4096 + n ≤ 4096) ∧
    (let s : State := memOf (fun m => { m with xfers := [{ line := 0x400, unit := 3, interval := 1, write := true, client := .copy 3 }] }) (copying (packetCopy 0x20100 0x20000 64) one)
     let c : Copy := packetCopy 0x20100 0x20000 64
     s.mem.ops = [] ∧ s.mem.migs = [] ∧ s.openWindows none = [] ∧ s.copy.copies = [c] ∧ c.started = true ∧ valid c.ref ∧ c.placing = false ∧ (∃ x ∈ s.mem.xfers, x.client = .copy c.cid)) ∧
    (let s : State := copying ({ packetCopy 0x20100 0x20000 64 with lost := some (9, 0x400), next := 1 }) one
     let c : Copy := { packetCopy 0x20100 0x20000 64 with lost := some (9, 0x400), next := 1 }
     let e : Entry := entryOf 9 2 4 []
     let viol : Nat := 9
     let line : Nat := 0x400
     s.mem.ops = [] ∧ s.mem.migs = [] ∧ s.openWindows none = [] ∧ s.copy.copies = [c] ∧ c.started = true ∧ valid c.ref ∧ c.placing = false ∧ (∀ x ∈ s.mem.xfers, x.client ≠ .copy c.cid) ∧ c.abandoned = false ∧ c.waits = [] ∧ c.lost = some (viol, line) ∧ c.eid = some e.eid ∧ s.entry? e.eid = some e ∧ Plain e ∧ c.dsp = 0) ∧
    (let s : State := copying ({ packetCopy 0x20100 0x20000 64 with next := 1 }) one
     let c : Copy := { packetCopy 0x20100 0x20000 64 with next := 1 }
     let e : Entry := entryOf 9 2 4 []
     s.mem.ops = [] ∧ s.mem.migs = [] ∧ s.openWindows none = [] ∧ s.copy.copies = [c] ∧ c.started = true ∧ valid c.ref ∧ c.moved = true ∧ c.placing = false ∧ (∀ x ∈ s.mem.xfers, x.client ≠ .copy c.cid) ∧ c.lost = none ∧ c.bad = none ∧ c.status = 0 ∧ c.eid = some e.eid ∧ s.entry? e.eid = some e ∧ Plain e) ∧
    (let s : State := sliceAt 0 (fun x => { x with tokens := 3 }) (copying ({ copyOf 0x20100 0x20000 64 with next := 1 }) one)
     let c : Copy := { copyOf 0x20100 0x20000 64 with next := 1 }
     s.mem.ops = [] ∧ s.mem.migs = [] ∧ s.openWindows none = [] ∧ s.copy.copies = [c] ∧ c.started = true ∧ valid c.ref ∧ c.moved = true ∧ c.placing = false ∧ (∀ x ∈ s.mem.xfers, x.client ≠ .copy c.cid) ∧ c.lost = none ∧ c.bad = none ∧ c.status = 0 ∧ c.eid = none ∧ c.bar = none ∧ c.follow = none ∧ c.tlid = 0) ∧
    (let s : State := copying ({ copyOf 0x20100 0x20000 64 with next := 1, placing := true, arrived := true, follow := some [1, 2] }) one
     let c : Copy := { copyOf 0x20100 0x20000 64 with next := 1, placing := true, arrived := true, follow := some [1, 2] }
     let b : List Word := ([1, 2] : List Word)
     let half := (s.team c.ref.tid).halfOf c.ref.bent
     s.mem.ops = [] ∧ s.mem.migs = [] ∧ s.openWindows none = [] ∧ s.copy.copies = [c] ∧ c.started = true ∧ valid c.ref ∧ c.placing = true ∧ c.eid = none ∧ c.status = 0 ∧ c.bar = none ∧ c.tlid = 0 ∧ c.follow = some b ∧ ((s.team c.ref.tid).queueOf half).length < 64) ∧
    (let s : State := copying (packetCopy 0x20100 0x20000 64) one
     let c : Copy := packetCopy 0x20100 0x20000 64
     s.mem.ops = [] ∧ s.mem.migs = [] ∧ s.openWindows none = [] ∧ s.copy.copies = [c] ∧ c.started = true ∧ valid c.ref ∧ c.halted = false ∧ c.placing = false) ∧
    (let s : State := copying ({ packetCopy 0x20100 0x20000 64 with abandoned := true, halted := true, next := 1, status := 7, failva := 9, bad := some 5 }) one
     let c : Copy := { packetCopy 0x20100 0x20000 64 with abandoned := true, halted := true, next := 1, status := 7, failva := 9, bad := some 5 }
     s.mem.ops = [] ∧ s.mem.migs = [] ∧ s.openWindows none = [] ∧ s.copy.copies = [c] ∧ c.started = true ∧ valid c.ref ∧ c.abandoned = true ∧ c.waits = [] ∧ c.eid.isSome = true ∧ smGet 0 (ccbKey c.hp c.ctx) s.dist.saving = 0) ∧
    (let s : State := scrubbing (scrubOf 1 [0]) one
     let x : Scrub := scrubOf 1 [0]
     let e : TlbEntry := tlbOf 0 0 0x20000 0x2006F true
     let va := (x.addr + 32 * x.next) % 2 ^ 64
     let pa := physical e va
     s.mem.ops = [] ∧ s.mem.migs = [] ∧ s.openWindows none = [] ∧ s.copy.scrubs = [x] ∧ x.waits = [] ∧ x.next < x.nsect ∧ Serves s x.hp x.ctx .read va e ∧ (s.region x.hp pa).isHost = false) ∧
    (let s : State := poisonedAt 0x20040 (scrubbing (scrubOf 3 [2]) one)
     let x : Scrub := scrubOf 3 [2]
     let e : Entry := entryOf 9 2 4 []
     let u : TlbEntry := tlbOf 0 0 0x20000 0x2006F true
     let v : TlbEntry := tlbOf 0 0 0x20000 0x2006F true
     s.mem.ops = [] ∧ s.mem.migs = [] ∧ s.openWindows none = [] ∧ s.copy.scrubs = [x] ∧ x.waits = [] ∧ x.nsect ≤ x.next ∧ e.eid = x.eid ∧ s.entry? x.eid = some e ∧ Plain e ∧ Serves s x.hp x.ctx .write x.map u ∧ Serves s x.hp x.ctx .write x.recAddr v ∧ x.map % 4096 + (x.nsect + 7) / 8 ≤ 4096 ∧ x.recAddr % 4096 + 32 ≤ 4096 ∧ 0 < x.nsect) := by
  refine ⟨?_, ?_, ?_, ?_, ?_, ?_, ?_, ?_, ?_, ?_⟩
  · exact decided (by have := @servesDec; have := @validDec; infer_instance) (by decide +kernel)
  · exact decided (by have := @validDec; infer_instance) (by decide +kernel)
  · exact decided (by have := @plainDec; have := @validDec; infer_instance) (by decide +kernel)
  · exact decided (by have := @plainDec; have := @validDec; infer_instance) (by decide +kernel)
  · exact decided (by have := @validDec; infer_instance) (by decide +kernel)
  · exact decided (by have := @validDec; infer_instance) (by decide +kernel)
  · exact decided (by have := @validDec; infer_instance) (by decide +kernel)
  · exact decided (by have := @validDec; infer_instance) (by decide +kernel)
  · exact decided (by have := @servesDec; infer_instance) (by decide +kernel)
  · exact decided (by have := @servesDec; have := @plainDec; infer_instance) (by decide +kernel)

theorem witness_TileSteps :
    (let s : State := { (tiled (seqAt 1 true) (tmmaCmd 16 4 8 10 0 0) one) with dev := { (tiled (seqAt 1 true) (tmmaCmd 16 4 8 10 0 0) one).dev with relock := [(0, true)] } }
     let tid : Nat := 0
     let cl : Nat := 0
     let T : Team := ({ (tiled (seqAt 1 true) (tmmaCmd 16 4 8 10 0 0) one) with dev := { (tiled (seqAt 1 true) (tmmaCmd 16 4 8 10 0 0) one).dev with relock := [(0, true)] } }).team 0
     let c : TileCmd := tmmaCmd 16 4 8 10 0 0
     let rest : List TileCmd := [{ cmdOf 1 [] with id := 9 }]
     s.mem.ops = [] ∧ s.teams = [(tid, T)] ∧ s.mem.ranges = [] ∧ s.mem.migs = [] ∧ T.cluster = cl ∧ T.desc.pair = false ∧ T.ended = false ∧ T.stopped = false ∧ T.held = false ∧ T.away = false ∧ T.tileQ = c :: rest ∧ c.ref.tid = tid ∧ valid c.ref ∧ s.arrayStopped cl = true ∧ c.kind = 0) ∧
    (let s : State := tiled (seqAt 1 false) (tmmaCmd 16 4 8 10 0 0) one
     let tid : Nat := 0
     let cl : Nat := 0
     let T : Team := (tiled (seqAt 1 false) (tmmaCmd 16 4 8 10 0 0) one).team 0
     let c : TileCmd := tmmaCmd 16 4 8 10 0 0
     let rest : List TileCmd := [{ cmdOf 1 [] with id := 9 }]
     let q := T.seq
     s.mem.ops = [] ∧ s.teams = [(tid, T)] ∧ s.mem.ranges = [] ∧ s.mem.migs = [] ∧ T.cluster = cl ∧ T.desc.pair = false ∧ T.ended = false ∧ T.stopped = false ∧ T.held = false ∧ T.away = false ∧ T.tileQ = c :: rest ∧ c.ref.tid = tid ∧ valid c.ref ∧ s.arrayStopped cl = false ∧ q.started = false ∧ q.waits = [] ∧ c.kind = 0 ∧ 1 ≤ q.phase ∧ q.phase ≤ 3) ∧
    (let s : State := tiled (TileSeq.zero) (cmdOf 1 []) one
     let tid : Nat := 0
     let cl : Nat := 0
     let T : Team := (tiled (TileSeq.zero) (cmdOf 1 []) one).team 0
     let c : TileCmd := cmdOf 1 []
     let rest : List TileCmd := [{ cmdOf 1 [] with id := 9 }]
     let q := T.seq
     s.mem.ops = [] ∧ s.teams = [(tid, T)] ∧ s.mem.ranges = [] ∧ s.mem.migs = [] ∧ T.cluster = cl ∧ T.desc.pair = false ∧ T.ended = false ∧ T.stopped = false ∧ T.held = false ∧ T.away = false ∧ T.tileQ = c :: rest ∧ c.ref.tid = tid ∧ valid c.ref ∧ s.arrayStopped cl = false ∧ q.started = false ∧ q.waits = [] ∧ q.phase = 0 ∧ c.kind = 1) ∧
    (let s : State := waiting 1 (tiled (TileSeq.zero) ({ cmdOf 2 [] with pids := [(0, 9)], lanes := [(0, 1), (0, 3)], imm := 3 }) one)
     let tid : Nat := 0
     let cl : Nat := 0
     let T : Team := (waiting 1 (tiled (TileSeq.zero) ({ cmdOf 2 [] with pids := [(0, 9)], lanes := [(0, 1), (0, 3)], imm := 3 }) one)).team 0
     let c : TileCmd := { cmdOf 2 [] with pids := [(0, 9)], lanes := [(0, 1), (0, 3)], imm := 3 }
     let rest : List TileCmd := [{ cmdOf 1 [] with id := 9 }]
     let q := T.seq
     let pid : Nat := 9
     s.mem.ops = [] ∧ s.teams = [(tid, T)] ∧ s.mem.ranges = [] ∧ s.mem.migs = [] ∧ T.cluster = cl ∧ T.desc.pair = false ∧ T.ended = false ∧ T.stopped = false ∧ T.held = false ∧ T.away = false ∧ T.tileQ = c :: rest ∧ c.ref.tid = tid ∧ valid c.ref ∧ s.arrayStopped cl = false ∧ q.started = false ∧ q.waits = [] ∧ q.phase = 0 ∧ c.kind = 2 ∧ c.pids = [(c.ref.sl, pid)] ∧ (∀ p ∈ c.lanes, p.1 = c.ref.sl)) ∧
    (let s : State := tiled (TileSeq.zero) ({ cmdOf 3 [] with lanes := [(1, 2)], data := [[1,2,3,4,5,6,7,8]], imm := 3 + 16 }) one
     let tid : Nat := 0
     let cl : Nat := 0
     let T : Team := (tiled (TileSeq.zero) ({ cmdOf 3 [] with lanes := [(1, 2)], data := [[1,2,3,4,5,6,7,8]], imm := 3 + 16 }) one).team 0
     let c : TileCmd := { cmdOf 3 [] with lanes := [(1, 2)], data := [[1,2,3,4,5,6,7,8]], imm := 3 + 16 }
     let rest : List TileCmd := [{ cmdOf 1 [] with id := 9 }]
     let q := T.seq
     let sl : Nat := 1
     let j : Nat := 2
     let ws : List Word := ([1,2,3,4,5,6,7,8] : List Word)
     s.mem.ops = [] ∧ s.teams = [(tid, T)] ∧ s.mem.ranges = [] ∧ s.mem.migs = [] ∧ T.cluster = cl ∧ T.desc.pair = false ∧ T.ended = false ∧ T.stopped = false ∧ T.held = false ∧ T.away = false ∧ T.tileQ = c :: rest ∧ c.ref.tid = tid ∧ valid c.ref ∧ s.arrayStopped cl = false ∧ q.started = false ∧ q.waits = [] ∧ q.phase = 0 ∧ c.kind = 3 ∧ c.lanes = [(sl, j)] ∧ c.data = [ws] ∧ ws.length = 8 ∧ sl < 8 ∧ j < 4) ∧
    (let s : State := tiled (TileSeq.zero) (tmmaCmd 16 4 8 10 0 0) one
     let tid : Nat := 0
     let cl : Nat := 0
     let T : Team := (tiled (TileSeq.zero) (tmmaCmd 16 4 8 10 0 0) one).team 0
     let c : TileCmd := tmmaCmd 16 4 8 10 0 0
     let rest : List TileCmd := [{ cmdOf 1 [] with id := 9 }]
     let q := T.seq
     s.mem.ops = [] ∧ s.teams = [(tid, T)] ∧ s.mem.ranges = [] ∧ s.mem.migs = [] ∧ T.cluster = cl ∧ T.desc.pair = false ∧ T.ended = false ∧ T.stopped = false ∧ T.held = false ∧ T.away = false ∧ T.tileQ = c :: rest ∧ c.ref.tid = tid ∧ valid c.ref ∧ s.arrayStopped cl = false ∧ q.started = false ∧ q.waits = [] ∧ q.phase = 0 ∧ c.kind = 0 ∧ tmmaFault T c.ref.bent c.block = none) ∧
    (let s : State := tiled (TileSeq.zero) (tmmaCmd 16 0 8 10 0 0) one
     let tid : Nat := 0
     let cl : Nat := 0
     let T : Team := (tiled (TileSeq.zero) (tmmaCmd 16 0 8 10 0 0) one).team 0
     let c : TileCmd := tmmaCmd 16 0 8 10 0 0
     let rest : List TileCmd := [{ cmdOf 1 [] with id := 9 }]
     let q := T.seq
     s.mem.ops = [] ∧ s.teams = [(tid, T)] ∧ s.mem.ranges = [] ∧ s.mem.migs = [] ∧ T.cluster = cl ∧ T.desc.pair = false ∧ T.ended = false ∧ T.stopped = false ∧ T.held = false ∧ T.away = false ∧ T.tileQ = c :: rest ∧ c.ref.tid = tid ∧ valid c.ref ∧ s.arrayStopped cl = false ∧ q.started = false ∧ q.waits = [] ∧ q.phase = 0 ∧ c.kind = 0 ∧ tmmaFault T c.ref.bent c.block ≠ none) ∧
    (let s : State := tiled (TileSeq.zero) (cmdOf 4 [3 + 256, 0, 0x20200, 0]) one
     let tid : Nat := 0
     let cl : Nat := 0
     let T : Team := (tiled (TileSeq.zero) (cmdOf 4 [3 + 256, 0, 0x20200, 0]) one).team 0
     let c : TileCmd := cmdOf 4 [3 + 256, 0, 0x20200, 0]
     let rest : List TileCmd := [{ cmdOf 1 [] with id := 9 }]
     let q := T.seq
     let e : TlbEntry := tlbOf 0 0 0x20000 0x2006F true
     let dst := (tstoOf c.block).dst
     s.mem.ops = [] ∧ s.teams = [(tid, T)] ∧ s.mem.ranges = [] ∧ s.mem.migs = [] ∧ T.cluster = cl ∧ T.desc.pair = false ∧ T.ended = false ∧ T.stopped = false ∧ T.held = false ∧ T.away = false ∧ T.tileQ = c :: rest ∧ c.ref.tid = tid ∧ valid c.ref ∧ s.arrayStopped cl = false ∧ q.started = false ∧ q.waits = [] ∧ q.phase = 0 ∧ c.kind = 4 ∧ (tstoOf c.block).rows = 1 ∧ (tstoOf c.block).scratch = false ∧ (tstoOf c.block).dst < 2 ^ 64 ∧ dst % 4096 + 128 * tyBytes c.tc ≤ 4096 ∧ Serves s T.hp T.ctx .write dst e) ∧
    (let s : State := tiled ({ seqAt 1 true with slab := [[1]] }) (tmmaCmd 16 4 8 10 0 0) one
     let tid : Nat := 0
     let cl : Nat := 0
     let T : Team := (tiled ({ seqAt 1 true with slab := [[1]] }) (tmmaCmd 16 4 8 10 0 0) one).team 0
     let c : TileCmd := tmmaCmd 16 4 8 10 0 0
     let rest : List TileCmd := [{ cmdOf 1 [] with id := 9 }]
     let q := T.seq
     s.mem.ops = [] ∧ s.teams = [(tid, T)] ∧ s.mem.ranges = [] ∧ s.mem.migs = [] ∧ T.cluster = cl ∧ T.desc.pair = false ∧ T.ended = false ∧ T.stopped = false ∧ T.held = false ∧ T.away = false ∧ T.tileQ = c :: rest ∧ c.ref.tid = tid ∧ valid c.ref ∧ s.arrayStopped cl = false ∧ c.kind = 0 ∧ q.started = true ∧ q.phase = 1 ∧ q.slab ≠ []) ∧
    (let s : State := tiled (seqAt 1 true) (tmmaCmd 16 4 8 10 0 0) one
     let tid : Nat := 0
     let cl : Nat := 0
     let T : Team := (tiled (seqAt 1 true) (tmmaCmd 16 4 8 10 0 0) one).team 0
     let c : TileCmd := tmmaCmd 16 4 8 10 0 0
     let rest : List TileCmd := [{ cmdOf 1 [] with id := 9 }]
     let q := T.seq
     let m := tmmaOf c.block
     s.mem.ops = [] ∧ s.teams = [(tid, T)] ∧ s.mem.ranges = [] ∧ s.mem.migs = [] ∧ T.cluster = cl ∧ T.desc.pair = false ∧ T.ended = false ∧ T.stopped = false ∧ T.held = false ∧ T.away = false ∧ T.tileQ = c :: rest ∧ c.ref.tid = tid ∧ valid c.ref ∧ s.arrayStopped cl = false ∧ c.kind = 0 ∧ q.started = true ∧ q.phase = 1 ∧ q.slab = [] ∧ m.bgeom ≠ 3) ∧
    (let s : State := tiled (seqAt 1 true) (tmmaCmd 16 4 14 10 0 3) one
     let tid : Nat := 0
     let cl : Nat := 0
     let T : Team := (tiled (seqAt 1 true) (tmmaCmd 16 4 14 10 0 3) one).team 0
     let c : TileCmd := tmmaCmd 16 4 14 10 0 3
     let rest : List TileCmd := [{ cmdOf 1 [] with id := 9 }]
     let q := T.seq
     let m := tmmaOf c.block
     s.mem.ops = [] ∧ s.teams = [(tid, T)] ∧ s.mem.ranges = [] ∧ s.mem.migs = [] ∧ T.cluster = cl ∧ T.desc.pair = false ∧ T.ended = false ∧ T.stopped = false ∧ T.held = false ∧ T.away = false ∧ T.tileQ = c :: rest ∧ c.ref.tid = tid ∧ valid c.ref ∧ s.arrayStopped cl = false ∧ c.kind = 0 ∧ q.started = true ∧ q.phase = 1 ∧ q.slab = [] ∧ m.bgeom = 3 ∧ (∃ x ∈ T.slabColumns 0 m q.chunk, svbMalformed x = true)) ∧
    (let s : State := tiled (seqAt 2 true) (tmmaCmd 16 4 8 10 0 0) one
     let tid : Nat := 0
     let cl : Nat := 0
     let T : Team := (tiled (seqAt 2 true) (tmmaCmd 16 4 8 10 0 0) one).team 0
     let c : TileCmd := tmmaCmd 16 4 8 10 0 0
     let rest : List TileCmd := [{ cmdOf 1 [] with id := 9 }]
     let q := T.seq
     let m := tmmaOf c.block
     let half : (Nat → Nat) := (fun _ => 0)
     let off : (Nat → Nat) := (fun i => if i < 16 then 0x400 + 256 * (i + 0) else 0)
     let n := chunkLen m.tyA m.ageom (m.len q.chunk)
     s.mem.ops = [] ∧ s.teams = [(tid, T)] ∧ s.mem.ranges = [] ∧ s.mem.migs = [] ∧ T.cluster = cl ∧ T.desc.pair = false ∧ T.ended = false ∧ T.stopped = false ∧ T.held = false ∧ T.away = false ∧ T.tileQ = c :: rest ∧ c.ref.tid = tid ∧ valid c.ref ∧ s.arrayStopped cl = false ∧ c.kind = 0 ∧ q.started = true ∧ q.phase = 2 ∧ m.vault = false ∧ m.ageom ≠ 3 ∧ (∀ i < 16, scratchAt T c.ref.bent n (m.rowAt q.chunk (16 * q.group + i)) = some (half i, off i))) ∧
    (let s : State := tiled ({ seqAt 3 true with group := 0, chunk := 0, rows := ((List.range 16).map fun i => [FVal.fin { neg := false, m := i, e := 0 }, .fin { neg := true, m := 3, e := 1 }, .inf false, .fin { neg := false, m := 1, e := 0 }]), slab := ((List.range 128).map fun j => [BitVec.ofNat 8 j, 0x3C, 0, 0x40, 0, 0, 0, 0x3C]), next := [[7]] }) (tmmaCmd 16 4 8 10 0 0) one
     let tid : Nat := 0
     let cl : Nat := 0
     let T : Team := (tiled ({ seqAt 3 true with group := 0, chunk := 0, rows := ((List.range 16).map fun i => [FVal.fin { neg := false, m := i, e := 0 }, .fin { neg := true, m := 3, e := 1 }, .inf false, .fin { neg := false, m := 1, e := 0 }]), slab := ((List.range 128).map fun j => [BitVec.ofNat 8 j, 0x3C, 0, 0x40, 0, 0, 0, 0x3C]), next := [[7]] }) (tmmaCmd 16 4 8 10 0 0) one).team 0
     let c : TileCmd := tmmaCmd 16 4 8 10 0 0
     let rest : List TileCmd := [{ cmdOf 1 [] with id := 9 }]
     let q := T.seq
     let m := tmmaOf c.block
     s.mem.ops = [] ∧ s.teams = [(tid, T)] ∧ s.mem.ranges = [] ∧ s.mem.migs = [] ∧ T.cluster = cl ∧ T.desc.pair = false ∧ T.ended = false ∧ T.stopped = false ∧ T.held = false ∧ T.away = false ∧ T.tileQ = c :: rest ∧ c.ref.tid = tid ∧ valid c.ref ∧ s.arrayStopped cl = false ∧ c.kind = 0 ∧ q.started = true ∧ q.phase = 3 ∧ q.slab.length = 128 ∧ q.rows.length = 16 ∧ q.group < 8 ∧ m.tile < 16) ∧
    (let s : State := sliceAt 0 (fun x => { x with tokens := 3 }) (tiled (seqAt 4 true) (tmmaCmd 16 4 8 10 0 0) one)
     let tid : Nat := 0
     let cl : Nat := 0
     let T : Team := (sliceAt 0 (fun x => { x with tokens := 3 }) (tiled (seqAt 4 true) (tmmaCmd 16 4 8 10 0 0) one)).team 0
     let c : TileCmd := tmmaCmd 16 4 8 10 0 0
     let rest : List TileCmd := [{ cmdOf 1 [] with id := 9 }]
     let q := T.seq
     let m := tmmaOf c.block
     s.mem.ops = [] ∧ s.teams = [(tid, T)] ∧ s.mem.ranges = [] ∧ s.mem.migs = [] ∧ T.cluster = cl ∧ T.desc.pair = false ∧ T.ended = false ∧ T.stopped = false ∧ T.held = false ∧ T.away = false ∧ T.tileQ = c :: rest ∧ c.ref.tid = tid ∧ valid c.ref ∧ s.arrayStopped cl = false ∧ c.kind = 0 ∧ q.started = true ∧ q.phase = 4 ∧ c.bar = none ∧ m.bar = false) ∧
    (let s : State := sliceAt 0 (fun x => { x with tokens := 3, fflags := 2 }) (tiled ({ seqAt 4 true with flags := 5 }) (cmdOf 4 [3 + 256, 0, 0x20200, 0]) one)
     let tid : Nat := 0
     let cl : Nat := 0
     let T : Team := (sliceAt 0 (fun x => { x with tokens := 3, fflags := 2 }) (tiled ({ seqAt 4 true with flags := 5 }) (cmdOf 4 [3 + 256, 0, 0x20200, 0]) one)).team 0
     let c : TileCmd := cmdOf 4 [3 + 256, 0, 0x20200, 0]
     let rest : List TileCmd := [{ cmdOf 1 [] with id := 9 }]
     let q := T.seq
     let k : Nat := 1
     s.mem.ops = [] ∧ s.teams = [(tid, T)] ∧ s.mem.ranges = [] ∧ s.mem.migs = [] ∧ T.cluster = cl ∧ T.desc.pair = false ∧ T.ended = false ∧ T.stopped = false ∧ T.held = false ∧ T.away = false ∧ T.tileQ = c :: rest ∧ c.ref.tid = tid ∧ valid c.ref ∧ c.kind = 4 ∧ q.phase = 4 ∧ c.token = some k ∧ (∀ x ∈ s.mem.xfers, x.client ≠ .copy c.id)) := by
  refine ⟨?_, ?_, ?_, ?_, ?_, ?_, ?_, ?_, ?_, ?_, ?_, ?_, ?_, ?_, ?_⟩
  · exact decided (by have := @validDec; infer_instance) (by decide +kernel)
  · exact decided (by have := @validDec; infer_instance) (by decide +kernel)
  · exact decided (by have := @validDec; infer_instance) (by decide +kernel)
  · exact decided (by have := @validDec; infer_instance) (by decide +kernel)
  · exact decided (by have := @validDec; infer_instance) (by decide +kernel)
  · exact decided (by have := @validDec; infer_instance) (by decide +kernel)
  · exact decided (by have := @validDec; infer_instance) (by decide +kernel)
  · exact decided (by have := @servesDec; have := @validDec; infer_instance) (by decide +kernel)
  · exact decided (by have := @validDec; infer_instance) (by decide +kernel)
  · exact decided (by have := @validDec; infer_instance) (by decide +kernel)
  · exact decided (by have := @validDec; infer_instance) (by decide +kernel)
  · exact decided (by have := @validDec; infer_instance) (by decide +kernel)
  · exact decided (by have := @validDec; infer_instance) (by decide +kernel)
  · exact decided (by have := @validDec; infer_instance) (by decide +kernel)
  · exact decided (by have := @validDec; infer_instance) (by decide +kernel)

theorem witness_CollectiveSteps :
    (let s : State := listed (0) (4294967296) (inColl (collOf 0 2 1 4 0) one)
     let o : CollOp := collOf 0 2 1 4 0
     let hd : List Byte := (bytesOfNat 64 (0))
     s.coll.ops = [o] ∧ s.mem.ops = [] ∧ s.mem.migs = [] ∧ o.waits = [] ∧ o.fab = false ∧ valid o.ref ∧ o.eid.isSome = true ∧ o.stage = 0 ∧ hd.length = 64 ∧ Holds s o.hp o.ctx (o.memb % 2 ^ 64) hd ∧ o.memb % 4096 + 64 ≤ 4096 ∧ (natOfBytes hd % 65536 = 0 ∨ 1024 < natOfBytes hd % 65536 ∨ o.memb % 64 ≠ 0)) ∧
    (let s : State := listed (2) (4294967296) (inColl (collOf 0 2 1 4 0) one)
     let o : CollOp := collOf 0 2 1 4 0
     let hd : List Byte := (bytesOfNat 64 (2))
     let es : List Byte := (bytesOfNat 8 (4294967296))
     let ms := [natOfBytes (es.take 4), natOfBytes (es.drop 4)]
     let o' := s.withList o (natOfBytes hd) ms
     s.coll.ops = [o] ∧ s.mem.ops = [] ∧ s.mem.migs = [] ∧ o.waits = [] ∧ o.fab = false ∧ valid o.ref ∧ o.eid.isSome = true ∧ o.stage = 0 ∧ hd.length = 64 ∧ Holds s o.hp o.ctx (o.memb % 2 ^ 64) hd ∧ o.memb % 4096 + 64 ≤ 4096 ∧ es.length = 8 ∧ natOfBytes hd % 65536 = 2 ∧ bitOf (natOfBytes hd) 16 = false ∧ o.memb % 64 = 0 ∧ o.memb % 4096 + 72 ≤ 4096 ∧ Holds s o.hp o.ctx (o.memb % 2 ^ 64) (hd ++ es) ∧ o.dove = false ∧ s.coll.held = [] ∧ o.rank < 2 ∧ o.csets = [] ∧ s.listBad o.hp (natOfBytes hd) ms = false ∧ s.collBad o' = false) ∧
    (let s : State := inColl (collOf 1 2 1 4 0) one
     let o : CollOp := collOf 1 2 1 4 0
     let m : Msg := collMsg 13 0 1 0 (bytesOfNat 8 6)
     let r := m.tag.toNat
     s.coll.ops = [o] ∧ s.mem.ops = [] ∧ s.mem.migs = [] ∧ o.waits = [] ∧ o.fab = false ∧ valid o.ref ∧ s.collTakes m o = true ∧ msgHashOk m = true ∧ o.members.length = 2 ∧ o.rank < 2 ∧ m.mtype = 13 ∧ o.stage = 1 ∧ r = 1 - o.rank ∧ BitVec.ofNat 64 (natOfBytes m.data) ≠ o.hash) ∧
    (let s : State := inColl (collOf 1 2 1 4 0) one
     let o : CollOp := collOf 1 2 1 4 0
     let m : Msg := collMsg 13 0 1 0 (bytesOfNat 8 5)
     let r := m.tag.toNat
     s.coll.ops = [o] ∧ s.mem.ops = [] ∧ s.mem.migs = [] ∧ o.waits = [] ∧ o.fab = false ∧ valid o.ref ∧ s.collTakes m o = true ∧ msgHashOk m = true ∧ o.members.length = 2 ∧ o.rank < 2 ∧ m.mtype = 13 ∧ o.stage = 1 ∧ r = 1 - o.rank ∧ BitVec.ofNat 64 (natOfBytes m.data) = o.hash ∧ o.dove = false ∧ o.insw = false ∧ o.op = 2 ∧ o.root = r ∧ 0 < o.count ∧ 0 < o.es) ∧
    (let s : State := inColl ({ collOf 2 2 1 4 0 with sent := true }) one
     let o : CollOp := { collOf 2 2 1 4 0 with sent := true }
     let m : Msg := collMsg 14 0 1 8 (bytesOfNat 4 5)
     let e : TlbEntry := tlbOf 0 0 0x20000 0x2006F true
     let n := m.data.length
     let va := o.dst + m.offset.toNat
     s.coll.ops = [o] ∧ s.mem.ops = [] ∧ s.mem.migs = [] ∧ o.waits = [] ∧ o.fab = false ∧ valid o.ref ∧ s.collTakes m o = true ∧ msgHashOk m = true ∧ o.members.length = 2 ∧ o.rank < 2 ∧ m.mtype = 14 ∧ o.stage = 2 ∧ o.sent = true ∧ o.early = [] ∧ (o.dove = true ∨ 2 ≤ o.op) ∧ o.inSwitch = false ∧ m.interval = 0 ∧ 0 < n ∧ va % 4096 + n ≤ 4096 ∧ Serves s o.hp o.ctx .write (va % 2 ^ 64) e ∧ s.poisoned (physical e (va % 2 ^ 64)) n = false) ∧
    (let s : State := inColl (collOf 1 2 1 4 0) one
     let o : CollOp := collOf 1 2 1 4 0
     let m : Msg := collMsg 15 1 1 0 []
     s.coll.ops = [o] ∧ s.mem.ops = [] ∧ s.mem.migs = [] ∧ o.waits = [] ∧ o.fab = false ∧ valid o.ref ∧ s.collTakes m o = true ∧ msgHashOk m = true ∧ o.members.length = 2 ∧ o.rank < 2 ∧ m.mtype = 15 ∧ m.aopst = 1) ∧
    (let s : State := inColl (collOf 1 2 1 4 0) one
     let o : CollOp := collOf 1 2 1 4 0
     let m : Msg := collMsg 15 2 1 0 []
     s.coll.ops = [o] ∧ s.mem.ops = [] ∧ s.mem.migs = [] ∧ o.waits = [] ∧ o.fab = false ∧ valid o.ref ∧ s.collTakes m o = true ∧ msgHashOk m = true ∧ o.members.length = 2 ∧ o.rank < 2 ∧ m.mtype = 15 ∧ m.aopst = 2 ∧ o.inSwitch = false) ∧
    (let s : State := inColl (collOf 1 2 1 4 0) one
     let o : CollOp := collOf 1 2 1 4 0
     let m : Msg := collMsg 15 3 1 0 []
     s.coll.ops = [o] ∧ s.mem.ops = [] ∧ s.mem.migs = [] ∧ o.waits = [] ∧ o.fab = false ∧ valid o.ref ∧ s.collTakes m o = true ∧ msgHashOk m = true ∧ o.members.length = 2 ∧ o.rank < 2 ∧ m.mtype = 15 ∧ m.aopst = 3) ∧
    (let s : State := inColl (collOf 1 2 1 4 0) one
     let o : CollOp := collOf 1 2 1 4 0
     let m : Msg := collMsg 15 4 1 0 []
     s.coll.ops = [o] ∧ s.mem.ops = [] ∧ s.mem.migs = [] ∧ o.waits = [] ∧ o.fab = false ∧ valid o.ref ∧ s.collTakes m o = true ∧ msgHashOk m = true ∧ o.members.length = 2 ∧ o.rank < 2 ∧ m.mtype = 15 ∧ m.aopst = 4 ∧ o.stage = 1) ∧
    (let s : State := inColl ({ collOf 3 2 1 4 0 with status := 0x13, missing := [1] }) one
     let o : CollOp := { collOf 3 2 1 4 0 with status := 0x13, missing := [1] }
     let eid : Nat := 9
     let e : Entry := entryOf 9 2 4 []
     let w : TlbEntry := tlbOf 0 0 0x20000 0x2006F true
     s.coll.ops = [o] ∧ s.mem.ops = [] ∧ s.mem.migs = [] ∧ o.waits = [] ∧ o.fab = false ∧ valid o.ref ∧ o.finished = true ∧ o.eid = some eid ∧ s.entry? eid = some e ∧ e.eid = eid ∧ Plain e ∧ o.statrec ≠ 0 ∧ o.statrec % 64 = 0 ∧ o.statrec < 2 ^ 64 ∧ o.statrec % 4096 + 192 ≤ 4096 ∧ Serves s o.hp o.ctx .write o.statrec w) ∧
    (let s : State := inColl ({ collOf 3 2 1 4 0 with eid := none, rec_ := (collBody 2 1 4 0) - 0x20800 * 2 ^ 320 }) one
     let o : CollOp := { collOf 3 2 1 4 0 with eid := none, rec_ := (collBody 2 1 4 0) - 0x20800 * 2 ^ 320 }
     let status := if o.status = 0 ∧ o.poison = true then 0x17 else o.status
     s.coll.ops = [o] ∧ s.mem.ops = [] ∧ s.mem.migs = [] ∧ o.waits = [] ∧ o.fab = false ∧ valid o.ref ∧ o.finished = true ∧ o.eid = none ∧ o.statrec = 0 ∧ o.tlid = 0 ∧ status = 0 ∧ o.token < 8) ∧
    (let s : State := inColl (collOf 1 2 1 4 0) one
     let o : CollOp := collOf 1 2 1 4 0
     s.coll.ops = [o] ∧ s.mem.ops = [] ∧ s.mem.migs = [] ∧ o.waits = [] ∧ o.fab = false ∧ valid o.ref ∧ o.finished = false ∧ (o.stage = 1 ∨ o.stage = 2) ∧ o.timeout ≠ 0) ∧
    (let s : State := { inColl (collOf 1 2 1 4 0) one with coll := { ops := [collOf 1 2 1 4 0], held := [{ half := 2, m := collMsg 13 0 1 0 [], since := 5 }] } }
     let o : CollOp := collOf 1 2 1 4 0
     let h : HeldColl := ({ half := 2, m := collMsg 13 0 1 0 [], since := 5 } : HeldColl)
     s.coll.ops = [o] ∧ s.mem.ops = [] ∧ s.mem.migs = [] ∧ o.waits = [] ∧ o.fab = false ∧ valid o.ref ∧ s.coll.held = [h]) := by
  refine ⟨?_, ?_, ?_, ?_, ?_, ?_, ?_, ?_, ?_, ?_, ?_, ?_, ?_⟩
  · exact decided (by have := @holdsDec; have := @validDec; infer_instance) (by decide +kernel)
  · exact decided (by have := @holdsDec; have := @validDec; infer_instance) (by decide +kernel)
  · exact decided (by have := @validDec; infer_instance) (by decide +kernel)
  · exact decided (by have := @validDec; infer_instance) (by decide +kernel)
  · exact decided (by have := @servesDec; have := @validDec; infer_instance) (by decide +kernel)
  · exact decided (by have := @validDec; infer_instance) (by decide +kernel)
  · exact decided (by have := @validDec; infer_instance) (by decide +kernel)
  · exact decided (by have := @validDec; infer_instance) (by decide +kernel)
  · exact decided (by have := @validDec; infer_instance) (by decide +kernel)
  · exact decided (by have := @servesDec; have := @plainDec; have := @validDec; infer_instance) (by decide +kernel)
  · exact decided (by have := @validDec; infer_instance) (by decide +kernel)
  · exact decided (by have := @validDec; infer_instance) (by decide +kernel)
  · exact decided (by have := @validDec; infer_instance) (by decide +kernel)

theorem witness_ContextSteps :
    (let s : State := contextIn 0 false one
     let hp : Nat := 0
     let ctx : Nat := 0
     let v : Quad := (1 : Quad)
     let c := s.ccb hp ctx
     ctx < 64 ∧ c.state = 0 ∧ v.getLsbD 0 = true ∧ c.en = false ∧ c.qcnt = 0) ∧
    (let s : State := ccbOf (fun c => { c with qcnt := 1 }) (contextIn 0 false (store 0x20600 16 (0x20700 + 2 ^ 69) (store 0x20700 256 (0x21000 - 0x21000 + 4 * 2 ^ 64) one)))
     let hp : Nat := 0
     let ctx : Nat := 0
     let v : Quad := (1 : Quad)
     let c := s.ccb hp ctx
     let qe : List Byte := (bytesOfNat 16 (0x20700 + 2 ^ 69))
     let hd : List Byte := (bytesOfNat 256 (4 * 2 ^ 64))
     let x : QueueReg := ({ hdr := 0x20700, rbase := 0, log2n := 4, bind := false, engine := 0, vec := 0, fn := 0, port := 0, prev := none } : QueueReg)
     ctx < 64 ∧ c.state = 0 ∧ v.getLsbD 0 = true ∧ c.en = false ∧ c.qcnt = 1 ∧ s.userQueue hp ctx 0 = none ∧ qe.length = 16 ∧ hd.length = 256 ∧ Holds s hp ctx c.qtab.toNat qe ∧ bitOf (natOfBytes qe) 69 = true ∧ natOfBytes qe % 256 = 0 ∧ Holds s hp ctx (natOfBytes qe % 2 ^ 64) hd ∧ headerQueue (natOfBytes qe % 2 ^ 64) (natOfBytes qe) (natOfBytes hd) = .ok x) ∧
    (let s : State := contextIn 0 false one
     let hp : Nat := 0
     let ctx : Nat := 0
     let v : Quad := (0x3E : Quad)
     let c := s.ccb hp ctx
     ctx < 64 ∧ c.state = 0 ∧ (v.getLsbD 0 = false ∨ c.en = true)) ∧
    (let s : State := contextIn 3 true one
     let hp : Nat := 0
     let ctx : Nat := 0
     let c := s.ccb hp ctx
     ctx < 64 ∧ c.state = 3) ∧
    (let s : State := contextIn 1 true one
     let hp : Nat := 0
     let ctx : Nat := 0
     let c := s.ccb hp ctx
     ctx < 64 ∧ (c.state = 1 ∨ c.state = 2)) ∧
    (let s : State := contextIn 0 false one
     let hp : Nat := 0
     let ctx : Nat := 0
     let w : Word := (15 : Word)
     let c := s.ccb hp ctx
     ctx < 64 ∧ (c.fqwr - w).toNat ≤ 2 ^ c.fqlog) ∧
    (let s : State := contextIn 1 true one
     let hp : Nat := 0
     let ctx : Nat := 0
     let w : Word := (3 : Word)
     let c := s.ccb hp ctx
     ctx < 64 ∧ 2 ^ c.fqlog < (c.fqwr - w).toNat) ∧
    (let s : State := contextIn 0 false one
     let hp : Nat := 0
     let ctx : Nat := 0
     let c := s.ccb hp ctx
     ctx < 64 ∧ c.state ≤ 1 ∧ s.imageNeed hp ctx ≤ c.imglen.toNat) ∧
    (let s : State := contextIn 3 true one
     let hp : Nat := 0
     let ctx : Nat := 0
     let c := s.ccb hp ctx
     ctx < 64 ∧ (2 ≤ c.state ∨ c.imglen.toNat < s.imageNeed hp ctx)) ∧
    (let s : State := savingAt 0 (contextIn 2 true empty_)
     let hp : Nat := 0
     let ctx : Nat := 0
     let c := s.ccb hp ctx
     let key := 64 * hp + ctx
     let saving := fun (t : State) => smGet 0 key t.dist.saving
     ctx < 64 ∧ c.state = 2 ∧ saving s = 0 ∧ s.drained hp ctx = true) ∧
    (let s : State := contextIn 2 true one
     let hp : Nat := 0
     let ctx : Nat := 0
     let c := s.ccb hp ctx
     let key := 64 * hp + ctx
     let saving := fun (t : State) => smGet 0 key t.dist.saving
     ctx < 64 ∧ c.state = 2 ∧ saving s = 0 ∧ s.drained hp ctx = false) ∧
    (let s : State := contextIn 2 true one
     let hp : Nat := 0
     let ctx : Nat := 0
     let c := s.ccb hp ctx
     let key := 64 * hp + ctx
     let saving := fun (t : State) => smGet 0 key t.dist.saving
     ctx < 64 ∧ c.state = 2 ∧ saving s = 0) ∧
    (let s : State := savingAt 2 (contextIn 2 true empty_)
     let hp : Nat := 0
     let ctx : Nat := 0
     let c := s.ccb hp ctx
     let key := 64 * hp + ctx
     let saving := fun (t : State) => smGet 0 key t.dist.saving
     ctx < 64 ∧ c.state = 2 ∧ s.dev.irqvec0.getLsbD 48 = true ∧ s.dev.irqvec1.getLsbD 48 = false ∧ saving s = 2) ∧
    (let s : State := savingAt 1 (contextIn 2 true one)
     let hp : Nat := 0
     let ctx : Nat := 0
     let c := s.ccb hp ctx
     let key := 64 * hp + ctx
     let saving := fun (t : State) => smGet 0 key t.dist.saving
     ctx < 64 ∧ c.state = 2 ∧ s.dev.irqvec0.getLsbD 48 = true ∧ s.dev.irqvec1.getLsbD 48 = false ∧ saving s = 1 ∧ s.forcedReady hp ctx = true ∧ s.savedOf hp ctx = []) ∧
    (let s : State := contextIn 0 false one
     let hp : Nat := 0
     let ctx : Nat := 0
     let c := s.ccb hp ctx
     ctx < 64 ∧ c.state ≠ 3) ∧
    (let s : State := contextIn 3 false (store 0x20000 256 (0) empty_)
     let hp : Nat := 0
     let ctx : Nat := 0
     let c := s.ccb hp ctx
     let hd : List Byte := (bytesOfNat 256 0)
     let n := natOfBytes hd
     ctx < 64 ∧ c.state = 3 ∧ hd.length = 256 ∧ Holds s hp ctx c.imgbase.toNat hd ∧ (n % 2 ^ 32 ≠ 0x4B533943 ∨ n / 2 ^ 32 % 2 ^ 16 ≠ 1 ∨ c.imglen.toNat < n / 2 ^ 64 % 2 ^ 64)) ∧
    (let s : State := contextIn 3 false (store 0x20000 256 (0x4B533943 + 2 ^ 32 + 512 * 2 ^ 64) empty_)
     let hp : Nat := 0
     let ctx : Nat := 0
     let c := s.ccb hp ctx
     let key := 64 * hp + ctx
     let hd : List Byte := (bytesOfNat 256 (0x4B533943 + 2 ^ 32 + 512 * 2 ^ 64))
     let n := natOfBytes hd
     ctx < 64 ∧ c.state = 3 ∧ hd.length = 256 ∧ Holds s hp ctx c.imgbase.toNat hd ∧ n % 2 ^ 32 = 0x4B533943 ∧ n / 2 ^ 32 % 2 ^ 16 = 1 ∧ n / 2 ^ 64 % 2 ^ 64 ≤ c.imglen.toNat ∧ c.qcnt = 0 ∧ s.ctxLaunches hp ctx = [] ∧ s.savedOf hp ctx = [] ∧ smGet [] key s.dist.savedCopies = []) ∧
    (let s : State := contextIn 0 false one
     let hp : Nat := 0
     let ctx : Nat := 0
     let c := s.ccb hp ctx
     ctx < 64 ∧ c.state = 0) ∧
    (let s : State := contextIn 3 true one
     let hp : Nat := 0
     let ctx : Nat := 0
     let c := s.ccb hp ctx
     let key := 64 * hp + ctx
     ctx < 64 ∧ c.state ≠ 0 ∧ smGet [] key s.dist.savedCopies = [] ∧ s.savedOf hp ctx = [] ∧ s.dist.entries = [] ∧ s.dist.graphs = [] ∧ s.dist.queues = [] ∧ s.coll.ops = []) := by
  refine ⟨?_, ?_, ?_, ?_, ?_, ?_, ?_, ?_, ?_, ?_, ?_, ?_, ?_, ?_, ?_, ?_, ?_, ?_, ?_⟩
  · decide +kernel
  · exact decided (by have := @holdsDec; infer_instance) (by decide +kernel)
  · decide +kernel
  · decide +kernel
  · decide +kernel
  · decide +kernel
  · decide +kernel
  · decide +kernel
  · decide +kernel
  · decide +kernel
  · decide +kernel
  · decide +kernel
  · decide +kernel
  · decide +kernel
  · decide +kernel
  · exact decided (by have := @holdsDec; infer_instance) (by decide +kernel)
  · exact decided (by have := @holdsDec; infer_instance) (by decide +kernel)
  · decide +kernel
  · decide +kernel

theorem witness_RemoteAnswers :
    (let s : State := requested (remoteOp 0 (none)) (reqFor 1 4) one
     let m : Msg := answerTo (reqFor 1 4) 8 0 [5, 6, 7, 8]
     let r : Req := reqFor 1 4
     s.hpOfPeer m.dpeer.toNat = some r.hp ∧ m.dinc.toNat = (s.hpFab r.hp).inc ∧ s.reqOf r.hp m.tag.toNat = some r ∧ r.m.mtype = 1) ∧
    (let s : State := requested (remoteOp 1 (none)) (reqFor 2 4) one
     let m : Msg := answerTo (reqFor 2 4) 9 0 []
     let r : Req := reqFor 2 4
     s.hpOfPeer m.dpeer.toNat = some r.hp ∧ m.dinc.toNat = (s.hpFab r.hp).inc ∧ s.reqOf r.hp m.tag.toNat = some r ∧ r.m.mtype = 2) ∧
    (let s : State := requested (remoteOp 2 (none)) (reqFor 3 4) one
     let m : Msg := answerTo (reqFor 3 4) 10 0 [5, 6, 7, 8]
     let r : Req := reqFor 3 4
     s.hpOfPeer m.dpeer.toNat = some r.hp ∧ m.dinc.toNat = (s.hpFab r.hp).inc ∧ s.reqOf r.hp m.tag.toNat = some r ∧ r.m.mtype = 3) ∧
    (let s : State := requested (remoteOp 3 (none)) (reqFor 4 4) one
     let m : Msg := answerTo (reqFor 4 4) 11 0 []
     let r : Req := reqFor 4 4
     s.hpOfPeer m.dpeer.toNat = some r.hp ∧ m.dinc.toNat = (s.hpFab r.hp).inc ∧ s.reqOf r.hp m.tag.toNat = some r ∧ r.m.mtype = 4) ∧
    (let s : State := requested (remoteOp 0 (none)) (reqFor 1 4) one
     let m : Msg := answerTo (reqFor 1 4) 8 0 [5, 6, 7, 8]
     let r : Req := reqFor 1 4
     s.hpOfPeer m.dpeer.toNat = some r.hp ∧ m.dinc.toNat = (s.hpFab r.hp).inc ∧ s.reqOf r.hp m.tag.toNat = some r) ∧
    (let s : State := requested (remoteOp 0 (none)) (reqFor 1 4) one
     let r : Req := reqFor 1 4
     let die : Nat := 0
     let tag : Nat := 4
     (s.fab.reqs.find? (fun q => q.die == die && q.tag == tag) = some r)) ∧
    (let s : State := wants (remoteOp 1 none) (reqFor 2 0) one
     let r : Req := reqFor 2 0
     let die : Nat := 0
     let tag : Nat := 0
     s.freeReqTag die = some tag ∧ (s.fab.waiting.find? (fun q => q.die == die && s.mayGo q) = some r) ∧ (r.m.dpeer.toNat = (s.hpFab r.hp).peer ∨ (s.routeOf r.hp r.m.dpeer.toNat).isSome = true)) ∧
    (let s : State := requested (remoteOp 0 (none)) (reqFor 1 4) one
     let o : Op := remoteOp 0 (none)
     let e : Elem := (remoteOp 0 (none)).elems.headD (elemOf 4 [])
     let r : Req := reqFor 1 4
     let op : Nat := 0
     let dst : Nat := 4
     let ty : Ty := Ty.i32
     let sp : Option Nat := (none : Option Nat)
     let m : Msg := answerTo (reqFor 1 4) 8 0 [5, 6, 7, 8]
     s.mem.ops = [o] ∧ o.elems = [e] ∧ o.kind = .remote op dst ty sp ∧ o.stat = [] ∧ o.got = [] ∧ valid o.ref ∧ e.lane < 4 ∧ o.pid.isSome = true ∧ r.parts = [{ op := o.id, lane := e.lane, off := 0, n := e.size }] ∧ s.fab.reqs = [r] ∧ s.hpOfPeer m.dpeer.toNat = some r.hp ∧ m.dinc.toNat = (s.hpFab r.hp).inc ∧ m.tag.toNat = r.tag ∧ r.m.mtype = 1 ∧ msgHashOk m = true) ∧
    (let s : State := requested (remoteOp 0 (none)) (reqFor 1 4) one
     let o : Op := remoteOp 0 (none)
     let e : Elem := (remoteOp 0 (none)).elems.headD (elemOf 4 [])
     let r : Req := reqFor 1 4
     let op : Nat := 0
     let dst : Nat := 4
     let ty : Ty := Ty.i32
     let sp : Option Nat := (none : Option Nat)
     let x := s.slice o.ref
     let m : Msg := { answerTo (reqFor 1 4) 8 0 [5, 6, 7, 8] with hash := 1 }
     s.mem.ops = [o] ∧ o.elems = [e] ∧ o.kind = .remote op dst ty sp ∧ o.stat = [] ∧ o.got = [] ∧ valid o.ref ∧ e.lane < 4 ∧ o.pid.isSome = true ∧ r.parts = [{ op := o.id, lane := e.lane, off := 0, n := e.size }] ∧ s.fab.reqs = [r] ∧ s.hpOfPeer m.dpeer.toNat = some r.hp ∧ m.dinc.toNat = (s.hpFab r.hp).inc ∧ m.tag.toNat = r.tag ∧ r.m.mtype = 1 ∧ msgHashOk m = false ∧ (s.check r.hp).scobs = false ∧ x.taint = none) ∧
    (let s : State := { requested (remoteOp 0 (none)) (reqFor 1 4) one with checks := [(0, { HpCheck.reset with scobs := true })] }
     let o : Op := remoteOp 0 (none)
     let e : Elem := (remoteOp 0 (none)).elems.headD (elemOf 4 [])
     let r : Req := reqFor 1 4
     let op : Nat := 0
     let dst : Nat := 4
     let ty : Ty := Ty.i32
     let sp : Option Nat := (none : Option Nat)
     let m : Msg := { answerTo (reqFor 1 4) 8 0 [5, 6, 7, 8] with hash := 1 }
     s.mem.ops = [o] ∧ o.elems = [e] ∧ o.kind = .remote op dst ty sp ∧ o.stat = [] ∧ o.got = [] ∧ valid o.ref ∧ e.lane < 4 ∧ o.pid.isSome = true ∧ r.parts = [{ op := o.id, lane := e.lane, off := 0, n := e.size }] ∧ s.fab.reqs = [r] ∧ s.hpOfPeer m.dpeer.toNat = some r.hp ∧ m.dinc.toNat = (s.hpFab r.hp).inc ∧ m.tag.toNat = r.tag ∧ r.m.mtype = 1 ∧ msgHashOk m = false ∧ (s.check r.hp).scobs = true) ∧
    (let s : State := requested (remoteOp 1 (none)) (reqFor 2 4) one
     let o : Op := remoteOp 1 (none)
     let e : Elem := (remoteOp 1 (none)).elems.headD (elemOf 4 [])
     let r : Req := reqFor 2 4
     let op : Nat := 1
     let dst : Nat := 4
     let ty : Ty := Ty.i32
     let sp : Option Nat := (none : Option Nat)
     let loads := op = 0 ∨ op = 2
     let m : Msg := answerTo (reqFor 2 4) 9 0 []
     s.mem.ops = [o] ∧ o.elems = [e] ∧ o.kind = .remote op dst ty sp ∧ o.stat = [] ∧ o.got = [] ∧ valid o.ref ∧ e.lane < 4 ∧ o.pid.isSome = true ∧ r.parts = [{ op := o.id, lane := e.lane, off := 0, n := e.size }] ∧ s.fab.reqs = [r] ∧ s.hpOfPeer m.dpeer.toNat = some r.hp ∧ m.dinc.toNat = (s.hpFab r.hp).inc ∧ m.tag.toNat = r.tag ∧ r.m.mtype = 2 ∧ m.aopst = 0 ∧ ¬ loads) ∧
    (let s : State := requested (remoteOp 2 (none)) (reqFor 3 4) one
     let o : Op := remoteOp 2 (none)
     let e : Elem := (remoteOp 2 (none)).elems.headD (elemOf 4 [])
     let r : Req := reqFor 3 4
     let op : Nat := 2
     let dst : Nat := 4
     let ty : Ty := Ty.i32
     let sp : Option Nat := (none : Option Nat)
     let m : Msg := answerTo (reqFor 3 4) 10 0 [5, 6, 7, 8]
     s.mem.ops = [o] ∧ o.elems = [e] ∧ o.kind = .remote op dst ty sp ∧ o.stat = [] ∧ o.got = [] ∧ valid o.ref ∧ e.lane < 4 ∧ o.pid.isSome = true ∧ r.parts = [{ op := o.id, lane := e.lane, off := 0, n := e.size }] ∧ s.fab.reqs = [r] ∧ s.hpOfPeer m.dpeer.toNat = some r.hp ∧ m.dinc.toNat = (s.hpFab r.hp).inc ∧ m.tag.toNat = r.tag ∧ r.m.mtype = 3 ∧ m.aopst = 0 ∧ msgHashOk m = true ∧ (∀ k, smFind (knownKey r.line (s.reqDie r)) s.mem.known = some k → intervalBefore m.interval k = false)) ∧
    (let s : State := requested (remoteOp 3 (none)) (reqFor 4 4) one
     let o : Op := remoteOp 3 (none)
     let e : Elem := (remoteOp 3 (none)).elems.headD (elemOf 4 [])
     let r : Req := reqFor 4 4
     let op : Nat := 3
     let dst : Nat := 4
     let ty : Ty := Ty.i32
     let sp : Option Nat := (none : Option Nat)
     let loads := op = 0 ∨ op = 2
     let m : Msg := answerTo (reqFor 4 4) 11 0 []
     s.mem.ops = [o] ∧ o.elems = [e] ∧ o.kind = .remote op dst ty sp ∧ o.stat = [] ∧ o.got = [] ∧ valid o.ref ∧ e.lane < 4 ∧ o.pid.isSome = true ∧ r.parts = [{ op := o.id, lane := e.lane, off := 0, n := e.size }] ∧ s.fab.reqs = [r] ∧ s.hpOfPeer m.dpeer.toNat = some r.hp ∧ m.dinc.toNat = (s.hpFab r.hp).inc ∧ m.tag.toNat = r.tag ∧ r.m.mtype = 4 ∧ m.mseq = r.m.mseq ∧ ¬ loads) ∧
    (let s : State := requested (remoteOp 0 (none)) (reqFor 1 4) one
     let o : Op := remoteOp 0 (none)
     let e : Elem := (remoteOp 0 (none)).elems.headD (elemOf 4 [])
     let r : Req := reqFor 1 4
     let op : Nat := 0
     let dst : Nat := 4
     let ty : Ty := Ty.i32
     let sp : Option Nat := (none : Option Nat)
     let m : Msg := answerTo (reqFor 1 4) 12 3 []
     s.mem.ops = [o] ∧ o.elems = [e] ∧ o.kind = .remote op dst ty sp ∧ o.stat = [] ∧ o.got = [] ∧ valid o.ref ∧ e.lane < 4 ∧ o.pid.isSome = true ∧ r.parts = [{ op := o.id, lane := e.lane, off := 0, n := e.size }] ∧ s.fab.reqs = [r] ∧ s.hpOfPeer m.dpeer.toNat = some r.hp ∧ m.dinc.toNat = (s.hpFab r.hp).inc ∧ m.tag.toNat = r.tag ∧ m.aopst ≠ 0 ∧ m.aopst ≠ 7) ∧
    (let s : State := requested (remoteOp 1 (some 2)) (reqFor 2 4) one
     let o : Op := remoteOp 1 (some 2)
     let e : Elem := (remoteOp 1 (some 2)).elems.headD (elemOf 4 [])
     let r : Req := reqFor 2 4
     let op : Nat := 1
     let dst : Nat := 4
     let ty : Ty := Ty.i32
     let sp : Option Nat := (some 2 : Option Nat)
     let m : Msg := answerTo (reqFor 2 4) 12 7 []
     s.mem.ops = [o] ∧ o.elems = [e] ∧ o.kind = .remote op dst ty sp ∧ o.stat = [] ∧ o.got = [] ∧ valid o.ref ∧ e.lane < 4 ∧ o.pid.isSome = true ∧ r.parts = [{ op := o.id, lane := e.lane, off := 0, n := e.size }] ∧ s.fab.reqs = [r] ∧ s.hpOfPeer m.dpeer.toNat = some r.hp ∧ m.dinc.toNat = (s.hpFab r.hp).inc ∧ m.tag.toNat = r.tag ∧ m.aopst = 7 ∧ s.coll.ops = [] ∧ (r.hp, r.m.dpeer.toNat, r.m.dinc.toNat) ∉ s.fab.isolated) ∧
    (let s : State := requested (remoteOp 0 (none)) (reqFor 1 4) one
     let o : Op := remoteOp 0 (none)
     let e : Elem := (remoteOp 0 (none)).elems.headD (elemOf 4 [])
     let r : Req := reqFor 1 4
     let op : Nat := 0
     let dst : Nat := 4
     let ty : Ty := Ty.i32
     let sp : Option Nat := (none : Option Nat)
     s.mem.ops = [o] ∧ o.elems = [e] ∧ o.kind = .remote op dst ty sp ∧ o.stat = [] ∧ o.got = [] ∧ valid o.ref ∧ e.lane < 4 ∧ o.pid.isSome = true ∧ r.parts = [{ op := o.id, lane := e.lane, off := 0, n := e.size }] ∧ s.fab.reqs = [r]) ∧
    (let s : State := wants (remoteOp 1 none) (reqFor 2 0) one
     let o : Op := remoteOp 1 none
     let e : Elem := (remoteOp 1 none).elems.headD (elemOf 4 [])
     let r : Req := reqFor 2 0
     let op : Nat := 1
     let dst : Nat := 4
     let ty : Ty := Ty.i32
     let sp : Option Nat := (none : Option Nat)
     let n := if r.m.num then smGet 1 (msgPair r.m) s.fab.txSeq else 0
     s.mem.ops = [o] ∧ o.elems = [e] ∧ o.kind = .remote op dst ty sp ∧ o.stat = [] ∧ o.got = [] ∧ valid o.ref ∧ e.lane < 4 ∧ o.pid.isSome = true ∧ r.parts = [{ op := o.id, lane := e.lane, off := 0, n := e.size }] ∧ s.fab.reqs = [] ∧ s.fab.waiting = [r] ∧ s.mayGo r = true ∧ (s.routeOf r.hp r.m.dpeer.toNat).isSome = true) := by
  refine ⟨?_, ?_, ?_, ?_, ?_, ?_, ?_, ?_, ?_, ?_, ?_, ?_, ?_, ?_, ?_, ?_, ?_⟩
  · decide +kernel
  · decide +kernel
  · decide +kernel
  · decide +kernel
  · decide +kernel
  · decide +kernel
  · decide +kernel
  · exact decided (by have := @validDec; infer_instance) (by decide +kernel)
  · exact decided (by have := @validDec; infer_instance) (by decide +kernel)
  · exact decided (by have := @validDec; infer_instance) (by decide +kernel)
  · exact decided (by have := @validDec; infer_instance) (by decide +kernel)
  · exact decided (by have := @validDec; have := @allSomeDec; infer_instance) (by decide +kernel)
  · exact decided (by have := @validDec; infer_instance) (by decide +kernel)
  · exact decided (by have := @validDec; infer_instance) (by decide +kernel)
  · exact decided (by have := @validDec; infer_instance) (by decide +kernel)
  · exact decided (by have := @validDec; infer_instance) (by decide +kernel)
  · exact decided (by have := @validDec; infer_instance) (by decide +kernel)

theorem witness_RemoteService :
    (let s : State := exporting (exportOf 1 7 0x55) one
     let m : Msg := msgOf 1 7 6 8 []
     let hp : Nat := 0
     let x : Nat := exportOf 1 7 0x55
     let next := smGet 1 (msgPair m) s.fab.rxSeq
     let turn := m.num = true → m.mseq.toNat = next
     let va := (bitsOf x 127 64 + m.offset.toNat) % 2 ^ 64
     let good := fun (n : Nat) => bitOf x 0 = true ∧ bitsOf x 223 192 = m.wkey.toNat ∧ m.offset.toNat + n ≤ bitsOf x 191 128 ∧ bitOf x m.mtype.toNat = true
     let e : TlbEntry := tlbOf 0 0 0x20000 0x2006F true
     let n : Nat := 8
     s.hpOfPeer m.dpeer.toNat = some hp ∧ s.replaced hp m = false ∧ m.dinc.toNat = (s.hpFab hp).inc ∧ s.fab.held = [] ∧ s.fab.cache = [] ∧ s.mem.migs = [] ∧ s.mem.ops = [] ∧ (s.ctxFab hp m.rctx.toNat).rxen = true ∧ smFind (winKeyOf hp m.rctx.toNat m.win.toNat) s.fab.exports = some x ∧ turn ∧ m.mtype = 1 ∧ m.num = false ∧ n = m.len.toNat ∧ good n ∧ Serves s hp m.rctx.toNat .read va e ∧ s.poisoned (physical e va) n = false ∧ s.openWindows none = [] ∧ (∀ l, (s.line l).narrow = [])) ∧
    (let s : State := exporting (exportOf 1 7 0x55) one
     let m : Msg := msgOf 2 7 6 4 [5, 6, 7, 8]
     let hp : Nat := 0
     let x : Nat := exportOf 1 7 0x55
     let next := smGet 1 (msgPair m) s.fab.rxSeq
     let turn := m.num = true → m.mseq.toNat = next
     let va := (bitsOf x 127 64 + m.offset.toNat) % 2 ^ 64
     let good := fun (n : Nat) => bitOf x 0 = true ∧ bitsOf x 223 192 = m.wkey.toNat ∧ m.offset.toNat + n ≤ bitsOf x 191 128 ∧ bitOf x m.mtype.toNat = true
     let e : TlbEntry := tlbOf 0 0 0x20000 0x2006F true
     s.hpOfPeer m.dpeer.toNat = some hp ∧ s.replaced hp m = false ∧ m.dinc.toNat = (s.hpFab hp).inc ∧ s.fab.held = [] ∧ s.fab.cache = [] ∧ s.mem.migs = [] ∧ s.mem.ops = [] ∧ (s.ctxFab hp m.rctx.toNat).rxen = true ∧ smFind (winKeyOf hp m.rctx.toNat m.win.toNat) s.fab.exports = some x ∧ turn ∧ m.mtype = 2 ∧ m.num = true ∧ m.data.length = m.len.toNat ∧ good m.data.length ∧ msgHashOk m = true ∧ Serves s hp m.rctx.toNat .write va e) ∧
    (let s : State := exporting (exportOf 1 7 0x55) one
     let m : Msg := { msgOf 3 7 6 4 [5,6,7,8,9,9,9,9] with speer := 6, aopst := 0 }
     let hp : Nat := 0
     let x : Nat := exportOf 1 7 0x55
     let next := smGet 1 (msgPair m) s.fab.rxSeq
     let turn := m.num = true → m.mseq.toNat = next
     let va := (bitsOf x 127 64 + m.offset.toNat) % 2 ^ 64
     let good := fun (n : Nat) => bitOf x 0 = true ∧ bitsOf x 223 192 = m.wkey.toNat ∧ m.offset.toNat + n ≤ bitsOf x 191 128 ∧ bitOf x m.mtype.toNat = true
     let e : TlbEntry := tlbOf 0 0 0x20000 0x2006F true
     let t' := Ty.ofCode m.ty
     let n := tyBytes t'
     s.hpOfPeer m.dpeer.toNat = some hp ∧ s.replaced hp m = false ∧ m.dinc.toNat = (s.hpFab hp).inc ∧ s.fab.held = [] ∧ s.fab.cache = [] ∧ s.mem.migs = [] ∧ s.mem.ops = [] ∧ (s.ctxFab hp m.rctx.toNat).rxen = true ∧ smFind (winKeyOf hp m.rctx.toNat m.win.toNat) s.fab.exports = some x ∧ turn ∧ m.mtype = 3 ∧ m.num = true ∧ msgHashOk m = true ∧ Serves s hp m.rctx.toNat .atomic va e ∧ good n ∧ s.poisoned (physical e va) n = false ∧ s.openWindows none = [] ∧ (∀ l, (s.line l).narrow = [])) ∧
    (let s : State := exporting (exportOf 1 7 0x55) one
     let m : Msg := msgOf 4 7 6 0 []
     let hp : Nat := 0
     let x : Nat := exportOf 1 7 0x55
     let next := smGet 1 (msgPair m) s.fab.rxSeq
     let turn := m.num = true → m.mseq.toNat = next
     s.hpOfPeer m.dpeer.toNat = some hp ∧ s.replaced hp m = false ∧ m.dinc.toNat = (s.hpFab hp).inc ∧ s.fab.held = [] ∧ s.fab.cache = [] ∧ s.mem.migs = [] ∧ s.mem.ops = [] ∧ (s.ctxFab hp m.rctx.toNat).rxen = true ∧ smFind (winKeyOf hp m.rctx.toNat m.win.toNat) s.fab.exports = some x ∧ turn ∧ m.mtype = 4 ∧ m.num = true) ∧
    (let s : State := exporting (exportOf 1 7 0x55) one
     let m : Msg := msgOf 5 7 6 0 []
     let hp : Nat := 0
     let x : Nat := exportOf 1 7 0x55
     let next := smGet 1 (msgPair m) s.fab.rxSeq
     let turn := m.num = true → m.mseq.toNat = next
     s.hpOfPeer m.dpeer.toNat = some hp ∧ s.replaced hp m = false ∧ m.dinc.toNat = (s.hpFab hp).inc ∧ s.fab.held = [] ∧ s.fab.cache = [] ∧ s.mem.migs = [] ∧ s.mem.ops = [] ∧ (s.ctxFab hp m.rctx.toNat).rxen = true ∧ smFind (winKeyOf hp m.rctx.toNat m.win.toNat) s.fab.exports = some x ∧ turn ∧ m.mtype = 5 ∧ m.num = true) ∧
    (let s : State := exporting (exportOf 0 7 0x55) one
     let m : Msg := { msgOf 1 7 6 8 [] with speer := 6 }
     let hp : Nat := 0
     let x : Nat := exportOf 0 7 0x55
     let next := smGet 1 (msgPair m) s.fab.rxSeq
     let turn := m.num = true → m.mseq.toNat = next
     let p : Nat × Instr := (1, (Instr.evRdreq ({ msgOf 1 7 6 8 [] with speer := 6 })))
     s.hpOfPeer m.dpeer.toNat = some hp ∧ s.replaced hp m = false ∧ m.dinc.toNat = (s.hpFab hp).inc ∧ s.fab.held = [] ∧ s.fab.cache = [] ∧ s.mem.migs = [] ∧ s.mem.ops = [] ∧ (s.ctxFab hp m.rctx.toNat).rxen = true ∧ smFind (winKeyOf hp m.rctx.toNat m.win.toNat) s.fab.exports = some x ∧ turn ∧ p ∈ ([(1, .evRdreq m), (2, .evWrreq m), (3, .evAtreq m)] : List (Nat × Instr)) ∧ m.mtype.toNat = p.1 ∧ m.num = (p.1 != 1)) ∧
    (let s : State := fabric (fun f => { f with held := [({ hp := 0, m := msgOf 2 7 6 4 [1,2,3,4], since := 50 } : HeldReq)] }) one
     let hp : Nat := 0
     let h : HeldReq := ({ hp := 0, m := msgOf 2 7 6 4 [1,2,3,4], since := 50 } : HeldReq)
     s.fab.held = [h] ∧ h.hp = hp ∧ h.m.num = true ∧ (s.check hp).scobs = false ∧ (∀ i < 4, planDies s.dev.plan i ≠ 0 → (s.check i).scobs = false) ∧ (∃ i < 4, planDies s.dev.plan i ≠ 0)) ∧
    (let s : State := fabric (fun f => { f with cache := [({ die := 0, m := msgOf 8 6 7 0 [], until_ := 900 } : CachedRsp)] }) one
     let c : CachedRsp := ({ die := 0, m := msgOf 8 6 7 0 [], until_ := 900 } : CachedRsp)
     s.fab.cache = [c]) := by
  refine ⟨?_, ?_, ?_, ?_, ?_, ?_, ?_, ?_⟩
  · intro s m hp x next turn va good e n
    refine ⟨by decide +kernel, by decide +kernel, by decide +kernel, rfl, rfl, rfl, rfl, by decide +kernel, by decide +kernel, by decide +kernel, rfl, rfl, rfl, by decide +kernel,
      decided (by have := @servesDec; infer_instance) (by decide +kernel), by decide +kernel, by decide +kernel, fun _ => rfl⟩
  · exact decided (by have := @servesDec; infer_instance) (by decide +kernel)
  · intro s m hp x next turn va good e t' n
    refine ⟨by decide +kernel, by decide +kernel, by decide +kernel, rfl, rfl, rfl, rfl, by decide +kernel, by decide +kernel, by decide +kernel, rfl, rfl, by decide +kernel,
      decided (by have := @servesDec; infer_instance) (by decide +kernel), by decide +kernel, by decide +kernel, by decide +kernel, fun _ => rfl⟩
  · decide +kernel
  · decide +kernel
  · decide +kernel
  · decide +kernel
  · decide +kernel

theorem witness_Links :
    (let g : Nat := 0
     g < 16) ∧
    (let g : Nat := 0
     let v : Quad := (0 : Quad)
     let ctx : Nat := 0
     g < 16 ∧ ctx < 64 ∧ v.getLsbD 17 = false) ∧
    (let g : Nat := 0
     let v : Quad := (0x30000 : Quad)
     let ctx : Nat := 0
     g < 16 ∧ ctx < 64 ∧ v.getLsbD 17 = true ∧ v.getLsbD 16 = true) ∧
    (let g : Nat := 0
     let v : Quad := (0x20006 : Quad)
     let ctx : Nat := 0
     g < 16 ∧ ctx < 64 ∧ v.getLsbD 17 = true ∧ v.getLsbD 16 = false) ∧
    (let s : State := portOf (fun p => p) one
     let g : Nat := 0
     let p := s.lport g
     let idle := p.queue = [] ∧ p.part = [] ∧ p.rest = [] ∧ p.window.length < 1024 ∧ ∀ w ∈ p.window, w.lost = false
     let f : Flit := { flitOf 0 (List.replicate 240 0) with crc := 0 }
     g < 16 ∧ p.state = 2 ∧ idle ∧ p.window = [] ∧ f.mapv = false ∧ f.nak = false ∧ flitOk f = false) ∧
    (let s : State := portOf (fun p => p) one
     let g : Nat := 0
     let p := s.lport g
     let idle := p.queue = [] ∧ p.part = [] ∧ p.rest = [] ∧ p.window.length < 1024 ∧ ∀ w ∈ p.window, w.lost = false
     let f : Flit := flitOf 0 (msgBytes ({ msgOf 1 7 6 4 [] with hash := 0 }) ++ List.replicate 192 0)
     let m : Msg := { msgOf 1 7 6 4 [] with hash := 0 }
     g < 16 ∧ p.state = 2 ∧ idle ∧ p.window = [] ∧ f.mapv = false ∧ f.nak = false ∧ flitOk f = true ∧ f.null = false ∧ f.hole = false ∧ f.fseq.toNat = (p.good + 1) % 4096 ∧ p.rxBytes = [] ∧ m.data = [] ∧ (m.len = 0 ∨ m.mtype = 1) ∧ m.mtype ≠ 0 ∧ m.mtype ≠ 6 ∧ m.mtype ≠ 7 ∧ f.space = msgBytes m ++ List.replicate 192 0) ∧
    (let s : State := portOf (fun p => { p with good := 9 }) one
     let g : Nat := 0
     let p := s.lport g
     let idle := p.queue = [] ∧ p.part = [] ∧ p.rest = [] ∧ p.window.length < 1024 ∧ ∀ w ∈ p.window, w.lost = false
     let f : Flit := flitOf 11 (List.replicate 240 0)
     g < 16 ∧ p.state = 2 ∧ idle ∧ p.window = [] ∧ f.mapv = false ∧ f.nak = false ∧ flitOk f = true ∧ f.null = false ∧ f.fseq.toNat ≠ (p.good + 1) % 4096 ∧ seqUpTo f.fseq.toNat p.good = false) ∧
    (let s : State := portOf (fun p => { p with window := [sentFlit 3, sentFlit 4], nextSeq := 5, good := 9 }) one
     let g : Nat := 0
     let p := s.lport g
     let idle := p.queue = [] ∧ p.part = [] ∧ p.rest = [] ∧ p.window.length < 1024 ∧ ∀ w ∈ p.window, w.lost = false
     g < 16 ∧ p.state = 2 ∧ idle) ∧
    (let s : State := portOf (fun p => { p with nak := 2 }) one
     let g : Nat := 0
     let p := s.lport g
     g < 16 ∧ p.nak = 2) ∧
    (let s : State := portOf (fun p => { p with nak := 2, nakAt := 77 }) one
     let g : Nat := 0
     let p := s.lport g
     let t : State := (match execEvNakRepeat 0 (portOf (fun p => { p with nak := 2, nakAt := 77 }) one) with | .next t => t | _ => one)
     g < 16 ∧ p.nak = 2 ∧ exec (.evNakRepeat g) s = .next t) ∧
    (let s : State := portOf (fun p => { p with nak := 1, nakAt := 77 }) one
     let g : Nat := 0
     let p := s.lport g
     g < 16 ∧ p.nak = 1) ∧
    (let s : State := portOf (fun p => { p with nak := 1, nakAt := 77 }) one
     let g : Nat := 0
     let p := s.lport g
     let t : State := (match execEvNakHoldExpiry 0 (portOf (fun p => { p with nak := 1, nakAt := 77 }) one) with | .next t => t | _ => one)
     g < 16 ∧ p.nak = 1 ∧ exec (.evNakHoldExpiry g) s = .next t) ∧
    (let s : State := portOf (fun p => { p with part := [1,2,3], good := 4 }) one
     let g : Nat := 0
     let p := s.lport g
     g < 16 ∧ p.state = 2 ∧ p.part ≠ [] ∧ p.part.length ≤ 240 ∧ p.queue = [] ∧ p.rest = [] ∧ p.window.length < 1024) ∧
    (let s : State := portOf (fun p => p) one
     let g : Nat := 0
     let p := s.lport g
     g < 16 ∧ p.state = 2) ∧
    (let s : State := portOf (fun p => { p with lastSent := 900 }) one
     let g : Nat := 0
     let p := s.lport g
     let t : State := (match execEvNullFlit 0 (portOf (fun p => { p with lastSent := 900 }) one) with | .next t => t | _ => one)
     g < 16 ∧ p.state = 2 ∧ exec (.evNullFlit g) s = .next t) ∧
    (let s : State := portOf (fun p => p) one
     let g : Nat := 0
     let p := s.lport g
     let wave : Nat := 3
     let map := p.rxmap &&& ~~~(1#16 <<< wave)
     g < 16 ∧ wave < 16 ∧ p.state = 2 ∧ p.rxmap.getLsbD wave = true ∧ 4 ≤ waveCount map) ∧
    (let s : State := portOf (fun p => { p with rxmap := 0xF, nak := 1 }) one
     let g : Nat := 0
     let p := s.lport g
     let wave : Nat := 3
     let map := p.rxmap &&& ~~~(1#16 <<< wave)
     g < 16 ∧ wave < 16 ∧ p.state = 2 ∧ p.rxmap.getLsbD wave = true ∧ waveCount map < 4) ∧
    (let s : State := portOf (fun p => { p with rxmap := 0xF }) one
     let g : Nat := 0
     let p := s.lport g
     let wave : Nat := 5
     g < 16 ∧ wave < 16 ∧ p.state = 2 ∧ p.rxmap.getLsbD wave = false) ∧
    (let s : State := portOf (fun p => { p with window := [sentFlit 3, sentFlit 4], nextSeq := 5, good := 9 }) one
     let g : Nat := 0
     let p := s.lport g
     let idle := p.queue = [] ∧ p.part = [] ∧ p.rest = [] ∧ p.window.length < 1024 ∧ ∀ w ∈ p.window, w.lost = false
     let map : Half := (0xFFFF : Half)
     g < 16 ∧ p.state = 2 ∧ idle ∧ map &&& p.txen = p.txmap) ∧
    (let s : State := portOf (fun p => { p with window := [sentFlit 3, sentFlit 4], nextSeq := 5, good := 9 }) one
     let g : Nat := 0
     let p := s.lport g
     let idle := p.queue = [] ∧ p.part = [] ∧ p.rest = [] ∧ p.window.length < 1024 ∧ ∀ w ∈ p.window, w.lost = false
     let map : Half := (0x00FF : Half)
     g < 16 ∧ p.state = 2 ∧ idle ∧ map &&& p.txen ≠ p.txmap ∧ 4 ≤ waveCount (map &&& p.txen)) ∧
    (let s : State := portOf (fun p => { p with window := [sentFlit 3, sentFlit 4], nextSeq := 5, good := 9 }) one
     let g : Nat := 0
     let p := s.lport g
     let idle := p.queue = [] ∧ p.part = [] ∧ p.rest = [] ∧ p.window.length < 1024 ∧ ∀ w ∈ p.window, w.lost = false
     let map : Half := (7 : Half)
     g < 16 ∧ p.state = 2 ∧ idle ∧ map &&& p.txen ≠ p.txmap ∧ waveCount (map &&& p.txen) < 4) ∧
    (let s : State := portOf (fun p => p) one
     let g : Nat := 0
     let p := s.lport g
     g < 16 ∧ p.state ≠ 0) ∧
    (let s : State := portOf (fun p => { p with state := 0, txmap := 0, txen := 0xFF }) one
     let g : Nat := 0
     let p := s.lport g
     g < 16 ∧ p.state ≠ 2 ∧ p.queue = []) ∧
    (let s : State := portOf (fun p => { p with window := [sentFlit 3, sentFlit 4], nextSeq := 5, good := 9 }) one
     let g : Nat := 0
     let p := s.lport g
     let w : WinFlit := sentFlit 3
     g < 16 ∧ w ∈ p.window ∧ w.lost = false) ∧
    (let g : Nat := 0
     let v : Quad := (0x2000000 : Quad)
     let en : Half := v.setWidth 16
     g < 16 ∧ waveCount en < 4) ∧
    (let s : State := portOf (fun p => { p with state := 0 }) one
     let g : Nat := 0
     let v : Quad := (0xF0 : Quad)
     let p := s.lport g
     let en : Half := v.setWidth 16
     g < 16 ∧ 4 ≤ waveCount en ∧ p.state ≠ 2) ∧
    (let s : State := portOf (fun p => { p with window := [sentFlit 3, sentFlit 4], nextSeq := 5, good := 9 }) one
     let g : Nat := 0
     let v : Quad := (0xFF : Quad)
     let p := s.lport g
     let idle := p.queue = [] ∧ p.part = [] ∧ p.rest = [] ∧ p.window.length < 1024 ∧ ∀ w ∈ p.window, w.lost = false
     let en : Half := v.setWidth 16
     g < 16 ∧ 4 ≤ waveCount en ∧ p.state = 2 ∧ idle ∧ en &&& p.peerMap ≠ p.txmap ∧ 4 ≤ waveCount (en &&& p.peerMap)) := by
  refine ⟨?_, ?_, ?_, ?_, ?_, ?_, ?_, ?_, ?_, ?_, ?_, ?_, ?_, ?_, ?_, ?_, ?_, ?_, ?_, ?_, ?_, ?_, ?_, ?_, ?_, ?_, ?_⟩
  · decide +kernel
  · decide +kernel
  · decide +kernel
  · decide +kernel
  · decide +kernel
  · decide +kernel
  · decide +kernel
  · decide +kernel
  · decide +kernel
  · exact ⟨by decide +kernel, by decide +kernel, rfl⟩
  · decide +kernel
  · exact ⟨by decide +kernel, by decide +kernel, rfl⟩
  · decide +kernel
  · decide +kernel
  · exact ⟨by decide +kernel, by decide +kernel, rfl⟩
  · decide +kernel
  · decide +kernel
  · decide +kernel
  · decide +kernel
  · decide +kernel
  · decide +kernel
  · decide +kernel
  · decide +kernel
  · decide +kernel
  · decide +kernel
  · decide +kernel
  · decide +kernel

theorem witness_DeviceSteps :
    (let s : State := devOf (fun d => { d with relock := [(1, true)], steps := [(1, 2)] }) (idle)
     let d := s.dev
     let k : Nat := 1
     smGet false k d.relock = true) ∧
    (let die : Nat := 3
     let temp : Half := (1759 : Half)
     die < 26 ∧ temp.toNat < 1760) ∧
    (let die : Nat := 3
     let temp : Half := (1760 : Half)
     die < 26 ∧ 1760 ≤ temp.toNat) ∧
    (let s : State := one
     let d := s.dev
     ((∃ p ∈ s.ccbs, p.2.state ≠ 0) ∨ (∃ p ∈ s.mem.vaults, p.2.vault ≠ 0) ∨ d.planBusy = true)) ∧
    (let s : State := idle
     let v : Quad := (4 : Quad)
     let d := s.dev
     let n := v.toNat
     (∀ p ∈ s.ccbs, p.2.state = 0) ∧ (∀ p ∈ s.mem.vaults, p.2.vault = 0) ∧ d.planBusy = false ∧ n % 8 = d.plan ∧ d.plan ≤ 4) ∧
    (let s : State := idle
     let v : Quad := (0 : Quad)
     let d := s.dev
     let n := v.toNat
     (∀ p ∈ s.ccbs, p.2.state = 0) ∧ (∀ p ∈ s.mem.vaults, p.2.vault = 0) ∧ d.planBusy = false ∧ n % 8 ≤ 4 ∧ n % 8 ≠ d.plan) ∧
    (let s : State := devOf (fun d => { d with stepErr := true }) (idle)
     let v : Quad := (0x100000007 : Quad)
     let d := s.dev
     let n := v.toNat
     (∀ p ∈ s.ccbs, p.2.state = 0) ∧ (∀ p ∈ s.mem.vaults, p.2.vault = 0) ∧ d.planBusy = false ∧ 4 < n % 8) ∧
    (let s : State := devOf (fun d => { d with planBusy := true }) (idle)
     let d := s.dev
     d.planBusy = true) ∧
    (let s : State := idle
     let v : Quad := (0 : Quad)
     let d := s.dev
     let n := v.toNat
     let slot := n % 8192
     let part := n / 2 ^ 16 % 4
     let x := s.keySlot slot
     let barred := slot = 0 ∨ d.keyBusy = true
     (barred ∨ planDies d.plan part = 0 ∨ x.st ≠ 0)) ∧
    (let s : State := idle
     let v : Quad := (0 : Quad)
     let d := s.dev
     let n := v.toNat
     let slot := n % 8192
     let x := s.keySlot slot
     let barred := slot = 0 ∨ d.keyBusy = true
     let bound := s.boundInRun slot = true
     (barred ∨ x.st ≠ 1 ∨ bound)) ∧
    (let s : State := idle
     let v : Quad := (0 : Quad)
     let d := s.dev
     let n := v.toNat
     let slot := n % 8192
     let x := s.keySlot slot
     let barred := slot = 0 ∨ d.keyBusy = true
     let bound := s.boundInRun slot = true
     (barred ∨ x.st ≠ 2 ∨ bound)) ∧
    (let s : State := idle
     let v : Quad := (0x543210 : Quad)
     let d := s.dev
     let n := v.toNat
     let slot := n % 8192
     let part := n / 2 ^ 16 % 4
     let x := s.keySlot slot
     let barred := slot = 0 ∨ d.keyBusy = true
     ¬ barred ∧ planDies d.plan part ≠ 0 ∧ x.st = 0) ∧
    (let s : State := devOf (fun d => { d with handles := [7] }) (slotOf 0 idle)
     let v : Quad := (30064771077 : Quad)
     let d := s.dev
     let n := v.toNat
     let slot := n % 8192
     let part := n / 2 ^ 16 % 4
     let hnd := n / 2 ^ 32 % 2 ^ 16
     let x := s.keySlot slot
     let barred := slot = 0 ∨ d.keyBusy = true
     ¬ barred ∧ planDies d.plan part ≠ 0 ∧ x.st = 0 ∧ hnd ∈ d.handles) ∧
    (let s : State := idle
     let v : Quad := (0x543210 : Quad)
     let d := s.dev
     let n := v.toNat
     let slot := n % 8192
     let part := n / 2 ^ 16 % 4
     let hnd := n / 2 ^ 32 % 2 ^ 16
     let x := s.keySlot slot
     let barred := slot = 0 ∨ d.keyBusy = true
     ¬ barred ∧ planDies d.plan part ≠ 0 ∧ x.st = 0 ∧ hnd ∉ d.handles) ∧
    (let s : State := slotOf 1 idle
     let v : Quad := (5 : Quad)
     let d := s.dev
     let n := v.toNat
     let slot := n % 8192
     let x := s.keySlot slot
     let barred := slot = 0 ∨ d.keyBusy = true
     let bound := s.boundInRun slot = true
     ¬ barred ∧ ¬ bound ∧ x.st = 1) ∧
    (let s : State := slotOf 2 idle
     let v : Quad := (5 : Quad)
     let d := s.dev
     let n := v.toNat
     let slot := n % 8192
     let x := s.keySlot slot
     let barred := slot = 0 ∨ d.keyBusy = true
     let bound := s.boundInRun slot = true
     ¬ barred ∧ ¬ bound ∧ x.st = 2) ∧
    (let s : State := devOf (fun d => { d with keyBusy := true }) (slotOf 1 idle)
     let d := s.dev
     d.keyBusy = true) ∧
    (let s : State := tdiOf 0 (slotOf 1 idle)
     let port : Nat := 1
     let vf : Nat := 3
     let x := s.tdi port vf
     port < 2 ∧ 1 ≤ vf ∧ vf < 128 ∧ x.st = 0) ∧
    (let s : State := tdiOf 1 (slotOf 1 idle)
     let port : Nat := 1
     let vf : Nat := 3
     let x := s.tdi port vf
     port < 2 ∧ 1 ≤ vf ∧ vf < 128 ∧ x.st = 1) ∧
    (let s : State := tdiOf 0 (slotOf 1 idle)
     let port : Nat := 1
     let vf : Nat := 3
     let x := s.tdi port vf
     port < 2 ∧ 1 ≤ vf ∧ vf < 128 ∧ x.st ≠ 1) ∧
    (let s : State := tdiOf 2 (slotOf 1 idle)
     let port : Nat := 1
     let vf : Nat := 3
     let x := s.tdi port vf
     port < 2 ∧ 1 ≤ vf ∧ vf < 128 ∧ x.st = 2) ∧
    (let s : State := State.reset
     let d := s.dev
     let images : List BootImage := [({ ecdsaOk := true, lmsOk := true, version := 9 } : BootImage), ({ ecdsaOk := false, lmsOk := true, version := 9 } : BootImage)]
     let sound := images ≠ [] ∧ ∀ b ∈ images, b.ecdsaOk = true ∧ b.lmsOk = true ∧ Config.fusedVersion ≤ b.version
     d.booted = false ∧ d.bootFail = false ∧ d.alarmHold = false ∧ ¬ sound) ∧
    (let s : State := State.reset
     let d := s.dev
     let images : List BootImage := [({ ecdsaOk := true, lmsOk := true, version := Config.fusedVersion } : BootImage)]
     let sound := images ≠ [] ∧ ∀ b ∈ images, b.ecdsaOk = true ∧ b.lmsOk = true ∧ Config.fusedVersion ≤ b.version
     d.booted = false ∧ d.bootFail = false ∧ d.alarmHold = false ∧ sound) ∧
    (let s : State := devOf (fun d => { d with glpol := 0x155 }) (slotOf 1 idle)
     let d := s.dev
     d.glpol.getLsbD 8 = true) ∧
    (let s : State := idle
     let d := s.dev
     d.glpol.getLsbD 8 = false) ∧
    (let c : Nat := 7
     c < 768) ∧
    (let s : State := chanOf 1 false idle
     let c : Nat := 7
     let x := s.chan c
     c < 768 ∧ x.mode = 1 ∧ x.insr = false) ∧
    (let s : State := chanOf 0 true idle
     let c : Nat := 7
     let x := s.chan c
     c < 768 ∧ x.insr = true) ∧
    (let s : State := { chanOf 1 false idle with clk := { idle.clk with ticks := ((chanOf 1 false idle).chan 7).expiry } }
     let c : Nat := 7
     let x := s.chan c
     c < 768 ∧ x.mode = 1 ∧ x.insr = false ∧ x.expiry = s.clk.ticks) := by
  refine ⟨?_, ?_, ?_, ?_, ?_, ?_, ?_, ?_, ?_, ?_, ?_, ?_, ?_, ?_, ?_, ?_, ?_, ?_, ?_, ?_, ?_, ?_, ?_, ?_, ?_, ?_, ?_, ?_, ?_⟩
  · decide +kernel
  · decide +kernel
  · decide +kernel
  · decide +kernel
  · decide +kernel
  · decide +kernel
  · decide +kernel
  · decide +kernel
  · decide +kernel
  · decide +kernel
  · decide +kernel
  · decide +kernel
  · decide +kernel
  · decide +kernel
  · decide +kernel
  · decide +kernel
  · decide +kernel
  · decide +kernel
  · decide +kernel
  · decide +kernel
  · decide +kernel
  · exact ⟨rfl, rfl, rfl, fun h => absurd (h.2 _ (List.mem_cons_of_mem _ (List.mem_singleton.mpr rfl))).1 (by decide)⟩
  · exact ⟨rfl, rfl, rfl, List.cons_ne_nil _ _, fun b h => by rw [List.mem_singleton.mp h]; exact ⟨rfl, rfl, Nat.le_refl _⟩⟩
  · decide +kernel
  · decide +kernel
  · decide +kernel
  · decide +kernel
  · decide +kernel
  · decide +kernel

theorem witness_RegistersAndHostPorts :
    (let c : Nat := 7
     c < 768) ∧
    (let v : Quad := (0x1FFFFF0003 : Quad)
     let op := v.toNat / 2 ^ 13 % 8
     op = 0) ∧
    (let v : Quad := (8197 : Quad)
     let op := v.toNat / 2 ^ 13 % 8
     op = 1) ∧
    (let v : Quad := (16389 : Quad)
     let op := v.toNat / 2 ^ 13 % 8
     op = 2) ∧
    (let v : Quad := (24581 : Quad)
     let op := v.toNat / 2 ^ 13 % 8
     op = 3) ∧
    (let v : Quad := (32773 : Quad)
     let op := v.toNat / 2 ^ 13 % 8
     op = 4) ∧
    (let v : Quad := (40965 : Quad)
     let op := v.toNat / 2 ^ 13 % 8
     5 ≤ op) ∧
    (let q : Nat := 4095
     q < 4096) ∧
    (let hp : Nat := 3
     hp < 4) ∧
    (let g : Nat := 0
     g < 16) ∧
    (let hp : Nat := 0
     let ctx : Nat := 0
     hp < 4 ∧ ctx < 64) ∧
    (let v : Quad := (0 : Quad)
     let hp : Nat := 0
     let ctx : Nat := 0
     hp < 4 ∧ ctx < 64 ∧ v.toNat % 4 = 0) ∧
    (let v : Quad := (0x10001 : Quad)
     let hp : Nat := 0
     let ctx : Nat := 0
     hp < 4 ∧ ctx < 64 ∧ v.toNat % 4 = 1) ∧
    (let v : Quad := (2 : Quad)
     let hp : Nat := 0
     let ctx : Nat := 0
     hp < 4 ∧ ctx < 64 ∧ v.toNat % 4 = 2) ∧
    (let v : Quad := (3 : Quad)
     let hp : Nat := 0
     let ctx : Nat := 0
     hp < 4 ∧ ctx < 64 ∧ v.toNat % 4 = 3) ∧
    (let v : Quad := (0x10001 : Quad)
     let hp : Nat := 0
     let ctx : Nat := 0
     hp < 4 ∧ ctx < 64 ∧ v.getLsbD 16 = true) ∧
    (let v : Quad := (0 : Quad)
     let hp : Nat := 0
     let ctx : Nat := 0
     hp < 4 ∧ ctx < 64 ∧ v.getLsbD 16 = false) ∧
    (let s : State := contextIn 0 true one
     let v : Quad := (0x123456789 : Quad)
     let hp : Nat := 0
     let ctx : Nat := 0
     let c := s.ccb hp ctx
     let p : Nat × Ccb := (([(0x10, { (contextIn 0 true one).ccb 0 0 with fqbase := (0x123456789 : Quad) &&& ~~~0xFFF }), (0x18, { (contextIn 0 true one).ccb 0 0 with fqlog :=  (0x123456789 : Quad).toNat % 32 }), (0x38, { (contextIn 0 true one).ccb 0 0 with tltab := (0x123456789 : Quad) }), (0x40, { (contextIn 0 true one).ccb 0 0 with tlcnt :=  (0x123456789 : Quad).toNat % 2 ^ 17 }), (0x48, { (contextIn 0 true one).ccb 0 0 with qtab := (0x123456789 : Quad) }), (0x50, { (contextIn 0 true one).ccb 0 0 with qcnt :=  (0x123456789 : Quad).toNat % 2 ^ 16 }), (0x60, { (contextIn 0 true one).ccb 0 0 with ellog :=  (0x123456789 : Quad).toNat % 32 }), (0x68, { (contextIn 0 true one).ccb 0 0 with drainlim :=  (0x123456789 : Quad).setWidth 32 })].getD 0 (0, Ccb.reset) : Nat × Ccb))
     hp < 4 ∧ ctx < 64 ∧ p ∈ ([(0x10, { c with fqbase := v &&& ~~~0xFFF }), (0x18, { c with fqlog := v.toNat % 32 }), (0x38, { c with tltab := v }), (0x40, { c with tlcnt := v.toNat % 2 ^ 17 }), (0x48, { c with qtab := v }), (0x50, { c with qcnt := v.toNat % 2 ^ 16 }), (0x60, { c with ellog := v.toNat % 32 }), (0x68, { c with drainlim := v.setWidth 32 })] : List (Nat × Ccb))) ∧
    (let s : State := devOf (fun d => { d with rsBusy := true }) (one)
     let v : Quad := (1 : Quad)
     let d := s.dev
     d.rsBusy = true ∧ v.getLsbD 0 = true) ∧
    (let s : State := one
     let v : Quad := (0x1FFFFF0003 : Quad)
     let d := s.dev
     d.rsBusy = false ∧ v.getLsbD 0 = true) ∧
    (let s : State := devOf (fun d => { d with rsBusy := true, rsbase := 0x30000, irqvec0 := 0x4000700000000 }) (one)
     let d := s.dev
     let hp : Nat := 0
     hp < 4 ∧ d.rsBusy = true ∧ (s.region hp d.rsbase).backed = true) ∧
    (let v : Quad := (0x55 : Quad)
     let a : HostWrite := ({ port := 0, vf := 0, pa := 1030792151296, op := .store (bytesOfNat 8 0x55) } : HostWrite)
     a.vf = 0 ∧ a.op = .store (bytesOfNat 8 v.toNat) ∧ a.pa % 8 = 0 ∧ windowOf a.pa = 3) ∧
    (let a : HostWrite := ({ port := 0, vf := 0, pa := 1030792151296, op := .store (bytesOfNat 4 0x55) } : HostWrite)
     let x : Word := (0x55 : Word)
     a.vf = 0 ∧ a.op = .store (bytesOfNat 4 x.toNat) ∧ a.pa % 4 = 0 ∧ windowOf a.pa = 3) ∧
    (let a : HostWrite := ({ port := 0, vf := 0, pa := 1030792151040, op := .read 8 } : HostWrite)
     let n : Nat := 8
     a.vf = 0 ∧ a.op = .read n ∧ windowOf a.pa = 3 ∧ regAt (a.pa / 8 * 8) ≠ .none) ∧
    (let s : State := store 0x20010 8 0x9988776611223344 one
     let a : HostWrite := ({ port := 0, vf := 0, pa := 140737488355327, op := .read 8 } : HostWrite)
     windowOf a.pa ≠ 3 ∧ s.hostReaches a = none) ∧
    (let s : State := devOf (fun d => { d with hostq := [({ port := 0, vf := 0, pa := 131088, op := .store [1] } : HostWrite)] }) (one)
     let d := s.dev
     let a : HostWrite := ({ port := 0, vf := 0, pa := 131088, op := .store [1] } : HostWrite)
     let hp : Nat := 0
     windowOf a.pa ≠ 3 ∧ s.hostReaches a = some hp ∧ d.hostq ≠ []) ∧
    (let s : State := store 0x20010 8 0x9988776611223344 one
     let d := s.dev
     let a : HostWrite := ({ port := 0, vf := 0, pa := 131088, op := .read 8 } : HostWrite)
     let hp : Nat := 0
     windowOf a.pa ≠ 3 ∧ s.hostReaches a = some hp ∧ d.hostq = [] ∧ s.mem.migs = [] ∧ s.mem.ops = [] ∧ s.openWindows none = []) := by
  refine ⟨?_, ?_, ?_, ?_, ?_, ?_, ?_, ?_, ?_, ?_, ?_, ?_, ?_, ?_, ?_, ?_, ?_, ?_, ?_, ?_, ?_, ?_, ?_, ?_, ?_, ?_, ?_⟩
  · decide +kernel
  · decide +kernel
  · decide +kernel
  · decide +kernel
  · decide +kernel
  · decide +kernel
  · decide +kernel
  · decide +kernel
  · decide +kernel
  · decide +kernel
  · decide +kernel
  · decide +kernel
  · decide +kernel
  · decide +kernel
  · decide +kernel
  · decide +kernel
  · decide +kernel
  · decide +kernel
  · decide +kernel
  · decide +kernel
  · decide +kernel
  · decide +kernel
  · decide +kernel
  · decide +kernel
  · decide +kernel
  · decide +kernel
  · decide +kernel

end Sys2Proof.Tests
end

section
/-! What the base comparisons do (05 R151), and what becomes of a gang that fetches words that are no
instruction (03 R71, R72, 04 R139). -/

namespace Sys2Proof.Machine
open Sys2Proof.Safety

/-! ## The issue of a comparison (03 R76, 05 R151) -/

/-- What `computes` says depends on the computation only at the units that execute. -/
theorem computes_congr {i : Instr} {g : GangRef} {s : State} {units : Slice → List Nat} {f f' : Slice → Nat → List RegWrite × FFlags}
    (h : computes i g s units f) (hf : ∀ x, ∀ u ∈ units x, f x u = f' x u) : computes i g s units f' := by
  obtain ⟨t, hexec, honly, hregs⟩ := h
  refine ⟨t, hexec, honly, fun r hr => ?_⟩
  obtain ⟨hw, hfl, hc, hpc⟩ := hregs r hr
  refine ⟨?_, ?_, hc, hpc⟩
  · have e : ((units (s.slice r)).flatMap fun u => (f' (s.slice r) u).1) = (units (s.slice r)).flatMap fun u => (f (s.slice r) u).1 :=
      List.flatMap_congr fun u hu => by rw [hf _ u hu]
    rw [e]; exact hw
  · rw [hfl]
    exact List.foldl_ext _ _ _ fun fl u hu => by rw [hf _ u hu]

/-- The last write of a predicate in the lanes of a list, one write for each. -/
theorem writtenBit_lane (f : Nat → Word) (d n j : Nat) (old : Bool) (us : List Nat) (hn : us.Nodup) :
    writtenBit (us.flatMap fun u => [({ reg := .p d, lane := u, val := f u } : RegWrite)]) n j old =
      if n = 7 then true else if n = d ∧ j ∈ us then (f j).getLsbD 0 else old := by
  unfold writtenBit
  split
  · rfl
  · induction us generalizing old with
    | nil => simp
    | cons u us ih =>
      obtain ⟨hu, hus⟩ := List.nodup_cons.1 hn
      simp only [List.flatMap_cons, List.singleton_append, List.foldl_cons, ih _ hus]
      by_cases hd : n = d
      · subst hd
        by_cases e : j = u
        · subst e; simp [reaches, hu]
        · simp [reaches, e, Ne.symm e]
      · simp [reaches, hd, Ne.symm hd]

theorem boolWord_getLsbD_zero (b : Bool) : (boolWord b).getLsbD 0 = b := by cases b <;> rfl

/-- A computation that writes one predicate in each executing lane, and raises nothing. -/
theorem to_predwise {i : Instr} {g : GangRef} {s : State} {d : Nat} {f : Slice → Nat → List RegWrite × FFlags} {F : Slice → Nat → Bool}
    (h : computes i g s (fun x => (List.range 4).filter fun j => x.exec.getLsbD j) f)
    (hf : ∀ x u, f x u = ([{ reg := .p d, lane := u, val := boolWord (F x u) }], 0)) : predwise i g s d F := by
  obtain ⟨t, hexec, honly, hregs⟩ := h
  refine ⟨t, hexec, honly, fun r hr => ?_⟩
  obtain ⟨hw, hfl, hc, hpc⟩ := hregs r hr
  simp only [hf] at hw hfl
  have hreg : ∀ w ∈ ((List.range 4).filter fun j => (s.slice r).exec.getLsbD j).flatMap
      fun u => [({ reg := .p d, lane := u, val := boolWord (F (s.slice r) u) } : RegWrite)], w.reg = .p d := by
    intro w hw; simp only [List.mem_flatMap, List.mem_singleton] at hw; obtain ⟨_, _, rfl⟩ := hw; rfl
  refine ⟨fun n j hj => ?_, fun n => ?_, fun n j hn hj => ?_, ?_, hc, hpc⟩
  · rw [hw.v n j hj, written_none]; intro w hm; rw [hreg w hm]; simp
  · rw [hw.s n, written_none]; intro w hm; rw [hreg w hm]; simp
  · rw [hw.p n j hn hj, writtenBit_lane _ _ _ _ _ _ (List.Nodup.filter _ List.nodup_range)]
    simp only [List.mem_filter, List.mem_range, hj, true_and, boolWord_getLsbD_zero]
  · rw [hfl, foldl_zero _ _ _ fun _ => rfl]

section
variable {s : State} {g : GangRef} {i : Instr} {o : B3} {f : Nat → Nat → Bool × FFlags}

/-- The vector form of a comparison: every lane that EXEC enables writes predicate D. -/
theorem issueCmp_vector (h : Issues s g i { regs := [.p o.d.toNat, .v o.a.toNat] ++ B3.bRegs o false })
    (he : exec i s = issueCmp i false o f s) :
    computes i g s (fun x => (List.range 4).filter fun j => x.exec.getLsbD j) fun x j =>
      ([{ reg := .p o.d.toNat, lane := j, val := boolWord (f (x.getV o.a.toNat j).toNat (vectorB o x j).toNat).1 }],
        (f (x.getV o.a.toNat j).toNat (vectorB o x j).toNat).2) := by
  have hc := issueRegs_computes h 7 false false (fun x j =>
      ([{ reg := .p o.d.toNat, lane := j, val := boolWord (f (x.getV o.a.toNat j).toNat (B3.opB o false x j)).1 }],
        (f (x.getV o.a.toNat j).toNat (B3.opB o false x j)).2)) he (fun _ _ _ => rfl)
    (fun x u hu w hw => by rw [List.mem_singleton.1 hw]; exact hu)
  simpa only [base_units, opB_vector] using hc

/-- The scalar form of a comparison: scalar D is 1 or 0, once per slice. -/
theorem issueCmp_scalar (h : Issues s g i { regs := [.s o.d.toNat, .s o.a.toNat] ++ B3.bRegs o true })
    (he : exec i s = issueCmp i true o f s) (hfl : ∀ a b, (f a b).2 = 0) :
    slicewise i g s o.d.toNat fun x => boolWord (f (x.getS o.a.toNat).toNat (scalarB o x).toNat).1 := by
  have hc := issueRegs_computes h 7 false true (fun x j =>
      ([{ reg := .s o.d.toNat, lane := j, val := boolWord (f (x.getS o.a.toNat).toNat (B3.opB o true x j)).1 }],
        (f (x.getS o.a.toNat).toNat (B3.opB o true x j)).2)) he (fun _ _ _ => rfl)
    (fun x u hu w hw => by rw [List.mem_singleton.1 hw]; exact hu)
  refine to_slicewise (computes_congr hc fun x u hu => ?_) fun _ _ => rfl
  rw [slice_units, List.mem_singleton] at hu
  simp only [hu, opB_scalar, hfl]

end

theorem okPred_of_eight_le {o : B3} (h : 8 ≤ o.d.toNat) : o.okPred = false := by
  simp only [B3.okPred, Bool.and_eq_false_iff, decide_eq_false_iff_not]
  omega

/-- What R151 asks of an integer comparison: the vector instruction, the scalar one, and the relation that both decide. -/
def comparesIntegers (s : State) (g : GangRef) (o : B3) (p : Instr × Instr × (Word → Word → Bool)) : Prop :=
  (8 ≤ o.d.toNat → p.1.wellFormed = false) ∧
  (Issues s g p.1 { regs := [.p o.d.toNat, .v o.a.toNat] ++ B3.bRegs o false } →
    predwise p.1 g s o.d.toNat fun x j => p.2.2 (x.getV o.a.toNat j) (vectorB o x j)) ∧
  (Issues s g p.2.1 { regs := [.s o.d.toNat, .s o.a.toNat] ++ B3.bRegs o true } →
    slicewise p.2.1 g s o.d.toNat fun x => if p.2.2 (x.getS o.a.toNat) (scalarB o x) then 1 else 0)

theorem comparesIntegers_of {s : State} {g : GangRef} {o : B3} {vec sca : Instr} {rel : Word → Word → Bool} (ty : Ty) (cc : Nat)
    (hok : vec.wellFormed = o.okPred) (hv : exec vec s = issueCmp vec false o (icmp ty cc) s)
    (hs : exec sca s = issueCmp sca true o (icmp ty cc) s) (hrel : ∀ a b : Word, intCompare ty cc a.toNat b.toNat = rel a b) :
    comparesIntegers s g o (vec, sca, rel) := by
  refine ⟨fun hd => hok.trans (okPred_of_eight_le hd), fun h => ?_, fun h => ?_⟩
  · exact to_predwise (issueCmp_vector h hv) fun x u => by simp only [icmp, hrel]
  · have hc := issueCmp_scalar h hs fun _ _ => rfl
    simpa only [icmp, hrel, boolWord] using hc

theorem integer_comparisons (s : State) (g : GangRef) (o : B3) :
    ∀ p ∈ ([(.bvcIsetEq o, .bscIsetEq o, fun a b => a == b), (.bvcIsetNe o, .bscIsetNe o, fun a b => a != b),
            (.bvcIsetLt o, .bscIsetLt o, fun a b => a.slt b), (.bvcIsetLe o, .bscIsetLe o, fun a b => a.sle b),
            (.bvcIsetGt o, .bscIsetGt o, fun a b => b.slt a), (.bvcIsetGe o, .bscIsetGe o, fun a b => b.sle a),
            (.bvcIsetEqZ32 o, .bscIsetEqZ32 o, fun a b => a == b), (.bvcIsetNeZ32 o, .bscIsetNeZ32 o, fun a b => a != b),
            (.bvcIsetLtZ32 o, .bscIsetLtZ32 o, fun a b => a.ult b), (.bvcIsetLeZ32 o, .bscIsetLeZ32 o, fun a b => a.ule b),
            (.bvcIsetGtZ32 o, .bscIsetGtZ32 o, fun a b => b.ult a), (.bvcIsetGeZ32 o, .bscIsetGeZ32 o, fun a b => b.ule a)] :
            List (Instr × Instr × (Word → Word → Bool))), comparesIntegers s g o p := by
  simp only [List.forall_mem_cons]
  exact ⟨comparesIntegers_of .i32 0 rfl rfl rfl fun a b => word_compare a b 0,
    comparesIntegers_of .i32 1 rfl rfl rfl fun a b => word_compare a b 1,
    comparesIntegers_of .i32 2 rfl rfl rfl fun a b => word_compare a b 2,
    comparesIntegers_of .i32 3 rfl rfl rfl fun a b => word_compare a b 3,
    comparesIntegers_of .i32 4 rfl rfl rfl fun a b => word_compare a b 4,
    comparesIntegers_of .i32 5 rfl rfl rfl fun a b => word_compare a b 5,
    comparesIntegers_of .z32 0 rfl rfl rfl fun a b => word_compareU a b 0,
    comparesIntegers_of .z32 1 rfl rfl rfl fun a b => word_compareU a b 1,
    comparesIntegers_of .z32 2 rfl rfl rfl fun a b => word_compareU a b 2,
    comparesIntegers_of .z32 3 rfl rfl rfl fun a b => word_compareU a b 3,
    comparesIntegers_of .z32 4 rfl rfl rfl fun a b => word_compareU a b 4,
    comparesIntegers_of .z32 5 rfl rfl rfl fun a b => word_compareU a b 5, List.forall_mem_nil _⟩

/-- What R151 asks of an f32 comparison: the instruction, and its condition code. -/
def comparesFloats (s : State) (g : GangRef) (o : B3) (p : Instr × Nat) : Prop :=
  (8 ≤ o.d.toNat → p.1.wellFormed = false) ∧
  (Issues s g p.1 { regs := [.p o.d.toNat, .v o.a.toNat] ++ B3.bRegs o false } →
    computes p.1 g s (fun x => (List.range 4).filter fun j => x.exec.getLsbD j) fun x j =>
      ([{ reg := .p o.d.toNat, lane := j,
          val := if (fSet fmtF32 false p.2 (x.getV o.a.toNat j).toNat (vectorB o x j).toNat).1 then 1 else 0 }],
        (fSet fmtF32 false p.2 (x.getV o.a.toNat j).toNat (vectorB o x j).toNat).2))

theorem comparesFloats_of {s : State} {g : GangRef} {o : B3} {i : Instr} {cc : Nat} (hok : i.wellFormed = o.okPred)
    (he : exec i s = issueCmp i false o (fcmp32 cc) s) : comparesFloats s g o (i, cc) :=
  ⟨fun hd => hok.trans (okPred_of_eight_le hd), fun h => issueCmp_vector h he⟩

theorem float_comparisons (s : State) (g : GangRef) (o : B3) :
    ∀ p ∈ ([(.bvcFsetEq o, 0), (.bvcFsetNe o, 1), (.bvcFsetLt o, 2), (.bvcFsetLe o, 3), (.bvcFsetGt o, 4), (.bvcFsetGe o, 5),
            (.bvcFsetUnord o, 6)] : List (Instr × Nat)), comparesFloats s g o p := by
  simp only [List.forall_mem_cons]
  exact ⟨comparesFloats_of rfl rfl, comparesFloats_of rfl rfl, comparesFloats_of rfl rfl, comparesFloats_of rfl rfl,
    comparesFloats_of rfl rfl, comparesFloats_of rfl rfl, comparesFloats_of rfl rfl, List.forall_mem_nil _⟩

/-! ## The f32 comparisons (05 R157, R159) -/

@[simp] theorem Fmt.operand_false (f : Fmt) (a : Nat) : f.operand false a = f.decode a := by
  unfold Fmt.operand
  cases h : f.decode a <;> simp

theorem FVal.eqv_of_isNan {x y : FVal} (h : (x.isNan || y.isNan) = true) : x.eqv y = false := by
  cases x <;> cases y <;> simp_all [FVal.eqv, FVal.isNan]

theorem FVal.less_of_isNan {x y : FVal} (h : (x.isNan || y.isNan) = true) : x.less y = false := by
  cases x <;> cases y <;> simp_all [FVal.less, FVal.isNan]

/-- FSET but for UNORD is ordered: it is 0 where an operand is a NaN. -/
theorem fSet_of_isNan (f : Fmt) (a b : Nat) (h : ((f.decode a).isNan || (f.decode b).isNan) = true) :
    ∀ k < 6, (fSet f false k a b).1 = false := by
  have h' : ((f.decode b).isNan || (f.decode a).isNan) = true := by rwa [Bool.or_comm]
  intro k hk
  interval_cases k <;> simp [fSet, h, FVal.eqv_of_isNan h, FVal.less_of_isNan h, FVal.less_of_isNan h']

theorem fSet_unord (f : Fmt) (a b : Nat) : (fSet f false 6 a b).1 = ((f.decode a).isNan || (f.decode b).isNan) := by
  simp [fSet]

theorem fSet_ne (f : Fmt) (a b : Nat) (h : ((f.decode a).isNan || (f.decode b).isNan) = false) :
    (fSet f false 1 a b).1 = !(fSet f false 0 a b).1 := by
  simp [fSet, h]

/-! ## Reads of the L2s (06 R184, R187, 07 R214) -/

/-- Only what the L2s and the Sills hold of lines, the transfers and the directories has changed. -/
def LinesOnly (s t : State) : Prop :=
  { t with mem := { t.mem with l2 := s.mem.l2, sill := s.mem.sill, xfers := s.mem.xfers, lines := s.mem.lines } } = s

theorem LinesOnly.refl (s : State) : LinesOnly s s := rfl

theorem LinesOnly.trans {s t u : State} (h : LinesOnly s t) (k : LinesOnly t u) : LinesOnly s u := by
  unfold LinesOnly at *
  rw [← h, ← k]

theorem linesOnly_setSill (s : State) (m : Nat) (xs : List SillLine) : LinesOnly s (s.setSill m xs) := rfl
theorem linesOnly_setL2 (s : State) (die : Nat) (xs : List L2Line) : LinesOnly s (s.setL2 die xs) := rfl
theorem linesOnly_addXfer (s : State) (x : Xfer) : LinesOnly s (s.addXfer x) := rfl
theorem linesOnly_setL2Line (s : State) (die : Nat) (x : L2Line) : LinesOnly s (s.setL2Line die x) := rfl
theorem linesOnly_noteRead (s : State) (who pa : Nat) : LinesOnly s (s.noteRead who pa) := rfl

theorem linesOnly_fillSill (s : State) (m : Nat) (x : SillLine) : LinesOnly s (s.fillSill m x) := by
  unfold State.fillSill
  dsimp only
  split
  · exact linesOnly_setSill _ _ _
  · split
    · exact linesOnly_setSill _ _ _
    · split
      · exact linesOnly_setSill _ _ _
      · exact .refl s

theorem linesOnly_writeBack (s : State) (x : L2Line) : LinesOnly s (s.writeBack x) := by
  unfold State.writeBack
  split
  · split
    · exact (linesOnly_fillSill _ _ _).trans (linesOnly_addXfer _ _)
    · exact .refl s
  · exact .refl s

theorem linesOnly_fillL2 (s : State) (die : Nat) (x : L2Line) : LinesOnly s (s.fillL2 die x) := by
  unfold State.fillL2
  extract_lets xs slice
  split
  · exact linesOnly_setL2 _ _ _
  · split
    · exact (linesOnly_writeBack _ _).trans (linesOnly_setL2 _ _ _)
    · exact linesOnly_setL2 _ _ _

theorem linesOnly_leaveL2 (s : State) (die line : Nat) : LinesOnly s (s.leaveL2 die line) := by
  unfold State.leaveL2
  split
  · exact (linesOnly_writeBack _ _).trans (linesOnly_setL2 _ _ _)
  · exact .refl s

theorem linesOnly_shareL2 (s : State) (line : Nat) (ds : List Nat) : LinesOnly s (s.shareL2 line ds) := by
  induction ds generalizing s with
  | nil => exact .refl s
  | cons d ds ih =>
    unfold State.shareL2
    split
    · exact (linesOnly_setL2Line _ _ _).trans (ih _)
    · exact ih s

theorem linesOnly_readHome (s : State) (line key hint : Nat) (sectors : BitVec 4) : LinesOnly s (s.readHome line key hint sectors) := by
  unfold State.readHome
  split
  · exact .refl s
  · split
    · exact .refl s
    · exact linesOnly_fillSill _ _ _

/-- A read by an L2 moves lines between the caches. -/
theorem linesOnly_readL2 (s : State) (die pa n key hint : Nat) (client : Client) : LinesOnly s (s.readL2 die pa n key hint client) := by
  unfold State.readL2
  extract_lets line want hit rekeyed supplied grant others shared
  have hrekeyed : LinesOnly s rekeyed := by
    unfold rekeyed
    split
    · split
      · exact .refl s
      · exact linesOnly_leaveL2 _ _ _
    · exact .refl s
  have hsupplied : LinesOnly rekeyed supplied := by
    unfold supplied
    split
    · exact .refl _
    · exact linesOnly_readHome _ _ _ _ _
  split
  · exact .refl s
  · refine hrekeyed.trans (hsupplied.trans ?_)
    split
    · exact (linesOnly_setL2Line _ _ _).trans (linesOnly_addXfer _ _)
    · exact (linesOnly_shareL2 _ _ _).trans
        ((linesOnly_fillL2 _ _ _).trans ((linesOnly_addXfer _ _).trans (linesOnly_noteRead _ _ _)))

end Sys2Proof.Machine

/-! ## Fetch (03 R71, 07 R254) -/

namespace Sys2Proof.Safety
open Sys2Proof.Machine

theorem Fetched.refl (s : State) : Fetched s s := ⟨rfl, fun _ => rfl⟩

theorem Fetched.trans {s t u : State} (h : Fetched s t) (k : Fetched t u) : Fetched s u := by
  obtain ⟨h1, h2⟩ := h
  obtain ⟨k1, k2⟩ := k
  refine ⟨?_, fun c => ?_⟩
  · rw [← h1, ← k1]
  · rw [← h2 c, ← k2 c]

section
variable {s t : State} (h : Fetched s t)
include h

theorem Fetched.slice_eq (r : SliceRef) : t.slice r = s.slice r := congrArg (·.slice r) h.1
theorem Fetched.team_eq (tid : Nat) : t.team tid = s.team tid := congrArg (·.team tid) h.1
theorem Fetched.ccb_eq (hp ctx : Nat) : t.ccb hp ctx = s.ccb hp ctx := congrArg (·.ccb hp ctx) h.1
theorem Fetched.iss_eq : t.iss = s.iss := congrArg (·.iss) h.1
theorem Fetched.blocked_eq : t.mem.blocked = s.mem.blocked := congrArg (·.mem.blocked) h.1
theorem Fetched.bytes_eq : t.mem.bytes = s.mem.bytes := congrArg (·.mem.bytes) h.1
theorem Fetched.l1Tlb_eq (cl : Nat) : t.l1Tlb cl = s.l1Tlb cl := congrArg (·.l1Tlb cl) h.1
theorem Fetched.reachable_eq (hp key pa : Nat) : t.reachable hp key pa = s.reachable hp key pa :=
  congrArg (·.reachable hp key pa) h.1
theorem Fetched.poisoned_eq (pa n : Nat) : t.poisoned pa n = s.poisoned pa n := congrArg (·.poisoned pa n) h.1
theorem Fetched.engineAt_eq (w : Bool) (pa : Nat) : t.engineAt w pa = s.engineAt w pa := congrArg (·.engineAt w pa) h.1
theorem Fetched.mustHold_eq (w : Bool) (pa n : Nat) : t.mustHold w pa n = s.mustHold w pa n := congrArg (·.mustHold w pa n) h.1

end

end Sys2Proof.Safety

namespace Sys2Proof.Machine
open Sys2Proof.Safety

/-- Every line that a cluster's instruction cache holds is what memory has. -/
def CodeCurrent (cl : Nat) (s : State) : Prop :=
  ∀ line x, smFind line (s.l1 cl).icache = some x → x.data = memReadN s.mem.bytes (line * 128) 128

theorem smFind_dropCode {line k : Nat} {stale : Bool} {m : SMap IcLine} {x : IcLine} (h : smFind k (dropCode line stale m) = some x) :
    smFind k m = some x := by
  unfold dropCode at h
  split at h
  · rw [smFind_smDel] at h
    split at h
    · cases h
    · exact h
  · exact h

/-- A fill of the instruction cache brings in what memory has. -/
theorem fillIcache_spec (s : State) (cl key line : Nat) (hc : CodeCurrent cl s) :
    Fetched s (s.fillIcache cl key line) ∧ CodeCurrent cl (s.fillIcache cl key line) := by
  have hr := linesOnly_readL2 s (dieOfCluster cl) (line * 128) 128 key 0 .none
  unfold State.fillIcache
  dsimp only
  generalize s.readL2 (dieOfCluster cl) (line * 128) 128 key 0 .none = u at hr ⊢
  have hl1 : u.mem.l1 = s.mem.l1 := congrArg (·.mem.l1) hr
  have hbytes : u.mem.bytes = s.mem.bytes := congrArg (·.mem.bytes) hr
  have hat : ∀ c, u.l1 c = s.l1 c := fun c => by simp only [State.l1, hl1]
  refine ⟨⟨?_, fun c => ?_⟩, fun k x hx => ?_⟩
  · rw [← hl1]; exact hr
  · simp only [State.l1, State.setL1, smGet_smPut]
    split
    · subst_vars; rw [hl1]
    · rw [hl1]
  · simp only [State.l1, State.setL1, smGet_smPut_same, smFind_smSet] at hx
    split at hx
    · cases hx; subst_vars; rfl
    · have := smFind_dropCode (smFind_dropCode hx)
      rw [hl1] at this
      exact (hc k x this).trans (by rw [← hbytes]; rfl)


theorem memReadN_take (m : Memory) (a n k : Nat) (h : k ≤ n) : (memReadN m a n).take k = memReadN m a k := by
  induction k generalizing a n with
  | zero => rfl
  | succ k ih =>
    obtain ⟨n, rfl⟩ : ∃ j, n = j + 1 := ⟨n - 1, by omega⟩
    simp only [memReadN, List.take_succ_cons, ih (a + 1) n (by omega)]

theorem memReadN_drop (m : Memory) (a n k : Nat) : (memReadN m a n).drop k = memReadN m (a + k) (n - k) := by
  induction k generalizing a n with
  | zero => rfl
  | succ k ih =>
    cases n with
    | zero => simp [memReadN]
    | succ n => rw [memReadN, List.drop_succ_cons, ih, Nat.add_sub_add_right, Nat.add_right_comm, Nat.add_assoc]

theorem natOfBytes_lt (bs : List Byte) : natOfBytes bs < 2 ^ (8 * bs.length) := by
  induction bs with
  | nil => simp [natOfBytes]
  | cons b bs ih =>
    have hb := b.isLt
    rw [natOfBytes, List.length_cons, Nat.mul_succ, Nat.pow_add]
    omega

/-- A word of a line that memory has. -/
theorem codeWord_memReadN (m : Memory) {pa : Nat} (h : pa % 4 = 0) :
    codeWord (memReadN m (lineOf pa * 128) 128) pa = natOfBytes (memReadN m pa 4) := by
  have hpa : lineOf pa * 128 + pa % 128 = pa := by unfold lineOf; omega
  rw [codeWord, memReadN_drop, hpa, memReadN_take _ _ _ _ (by omega)]

theorem CodeCurrent.code_eq {cl line key : Nat} {s : State} {d : List Byte} (h : CodeCurrent cl s)
    (hd : (s.l1 cl).code line key = some d) : d = memReadN s.mem.bytes (line * 128) 128 := by
  unfold L1.code at hd
  split at hd
  · next x hx =>
    split at hd
    · rw [← h line x hx]; exact (Option.some.inj hd).symm
    · cases hd
  · cases hd

/-- A word that a cluster's fetch of an address finds: translated, aligned, clean, and nothing holds it. -/
structure WordAt (s : State) (cl hp ctx : Nat) (e : TlbEntry) (va w : Nat) : Prop where
  serves : Cached s cl hp ctx .fetch va e
  aligned : physical e va % 4 = 0
  clean : s.poisoned (physical e va) 4 = false
  there : s.engineAt false (physical e va) = physical e va
  unheld : s.mustHold false (physical e va) 4 = false
  bytes : natOfBytes (memReadN s.mem.bytes (physical e va) 4) = w

theorem WordAt.lt {s : State} {cl hp ctx va w : Nat} {e : TlbEntry} (h : WordAt s cl hp ctx e va w) : w < 2 ^ 32 := by
  have := natOfBytes_lt (memReadN s.mem.bytes (physical e va) 4)
  rwa [memReadN_length, h.bytes] at this

/-- A fetch takes no word away. -/
theorem WordAt.of_fetched {s t : State} {cl hp ctx va w : Nat} {e : TlbEntry} (hf : Fetched s t) (h : WordAt s cl hp ctx e va w) :
    WordAt t cl hp ctx e va w where
  serves := ⟨h.serves.canonical, by rw [hf.l1Tlb_eq]; exact h.serves.found, h.serves.allows, h.serves.dirty,
    by rw [hf.reachable_eq]; exact h.serves.backed⟩
  aligned := h.aligned
  clean := by rw [hf.poisoned_eq]; exact h.clean
  there := by rw [hf.engineAt_eq]; exact h.there
  unheld := by rw [hf.mustHold_eq]; exact h.unheld
  bytes := by rw [hf.bytes_eq]; exact h.bytes

/-- The fetch of one word. -/
theorem fetchWord_spec {s : State} {cl hp ctx va w : Nat} {e : TlbEntry} (h : WordAt s cl hp ctx e va w) (hc : CodeCurrent cl s) :
    ∃ t, s.fetchWord hp ctx cl va = (.ok e (physical e va), w, t) ∧ Fetched s t ∧ CodeCurrent cl t := by
  have hbacked : s.reachable hp e.keyid (physical e va) = true := h.serves.backed
  unfold State.fetchWord
  simp only [cached_xlate h.serves]
  split
  · next d hd =>
    refine ⟨s, ?_, .refl s, hc⟩
    rw [hc.code_eq hd, codeWord_memReadN _ h.aligned, h.bytes]
  · refine ⟨s.fillIcache cl e.keyid (lineOf (physical e va)), ?_, fillIcache_spec s cl _ _ hc⟩
    simp only [State.orBlock, h.unheld, h.there, hbacked, h.clean, codeWord_memReadN _ h.aligned, h.bytes, Bool.not_true,
      Bool.false_eq_true, if_false]

/-- The fetch of words that follow one another. -/
theorem fetchWords_spec {s : State} {cl hp ctx : Nat} {e : TlbEntry} (ws : List Nat) (va first : Nat) (hfit : va + 4 * ws.length ≤ 2 ^ 64)
    (hw : ∀ k (hk : k < ws.length), WordAt s cl hp ctx e (va + 4 * k) ws[k]) (hc : CodeCurrent cl s) :
    ∃ t, s.fetchWords hp ctx cl va first ws.length = (.words ws, t) ∧ Fetched s t ∧ CodeCurrent cl t := by
  induction ws generalizing s va with
  | nil => exact ⟨s, rfl, .refl s, hc⟩
  | cons w ws ih =>
    rw [List.length_cons] at hfit
    have h0 : WordAt s cl hp ctx e va w := hw 0 (by simp)
    obtain ⟨t, ht, hst, hct⟩ := fetchWord_spec h0 hc
    obtain ⟨u, hu, htu, hcu⟩ := ih (s := t) (va + 4) (by omega)
      (fun k hk => by
        have := (hw (k + 1) (by simpa using hk)).of_fetched hst
        rwa [show va + 4 * (k + 1) = va + 4 + 4 * k by omega] at this) hct
    refine ⟨u, ?_, hst.trans htu, hcu⟩
    have hlt : ¬ w ≥ 2 ^ 32 := Nat.not_le.2 h0.lt
    simp only [List.length_cons, State.fetchWords, Nat.mod_eq_of_lt (show va < 2 ^ 64 by omega), ht, hlt, if_false, hu]

section
variable {s : State} {cl hp ctx va : Nat} {e : TlbEntry} {ws : List Nat} (hwhole : ws.length = wordCount (ws.headD 0))
  (hfit : va + 4 * ws.length ≤ 2 ^ 64)
include hwhole hfit

theorem fetchOnce_spec (hw : ∀ k (hk : k < ws.length), WordAt s cl hp ctx e (va + 4 * k) ws[k]) (hc : CodeCurrent cl s) :
    ∃ t, s.fetchOnce hp ctx cl va = (.words ws, t) ∧ Fetched s t ∧ CodeCurrent cl t := by
  cases ws with
  | nil => simp [wordCount] at hwhole
  | cons w ws =>
    rw [List.length_cons] at hfit
    have hrest : wordCount w - 1 = ws.length := Nat.sub_eq_of_eq_add hwhole.symm
    obtain ⟨t, ht, hst, hct⟩ := fetchWords_spec [w] va 0 (by simp; omega) (fun k hk => by
      obtain rfl : k = 0 := by simpa using hk
      exact hw 0 (by simp)) hc
    obtain ⟨u, hu, htu, hcu⟩ := fetchWords_spec (s := t) (cl := cl) (hp := hp) (ctx := ctx) (e := e) ws (va + 4) w (by omega) (fun k hk => by
      have := (hw (k + 1) (by simpa using hk)).of_fetched hst
      rwa [show va + 4 * (k + 1) = va + 4 + 4 * k by omega] at this) hct
    refine ⟨u, ?_, hst.trans htu, hcu⟩
    have ht' : s.fetchWords hp ctx cl va 0 1 = (.words [w], t) := ht
    simp only [State.fetchOnce, ht', hrest, hu]

/-- An instruction whose words are there is fetched; where it lies in two lines it is read twice. -/
theorem fetchInstr_spec (hw : ∀ k (hk : k < ws.length), WordAt s cl hp ctx e (va + 4 * k) ws[k]) (hc : CodeCurrent cl s) :
    ∃ t, s.fetchInstr hp ctx cl va = (.words ws, t) ∧ Fetched s t := by
  obtain ⟨t, ht, hst, hct⟩ := fetchOnce_spec hwhole hfit hw hc
  simp only [State.fetchInstr, ht]
  split
  · exact ⟨t, rfl, hst⟩
  · obtain ⟨u, hu, htu, _⟩ := fetchOnce_spec hwhole hfit (fun k hk => (hw k hk).of_fetched hst) hct
    exact ⟨u, hu, hst.trans htu⟩

end

/-- The gang fetches the words that stand at its PC. -/
theorem fetchFor_spec {s : State} {g : GangRef} {e : TlbEntry} {ws : List Nat} (h : CodeAt s g e ws) :
    ∃ t, s.fetchFor g = (.words ws, t) ∧ Fetched s t := by
  refine fetchInstr_spec (e := e) h.whole h.fits (fun k hk => ?_) fun line x hx => ?_
  · exact ⟨h.serves k hk, h.aligned k hk, h.clean k hk, h.there k hk, h.unheld k hk,
      (Option.some.inj ((List.getElem?_eq_getElem hk).symm.trans (h.bytes k hk))).symm⟩
  · rw [h.cold line] at hx; cases hx

/-! ## A gang that takes ILL at its fetch (03 R72, 04 R139) -/

/-- The end of a partition's clock merges gangs. -/
theorem endClock_slices (s : State) (part : Nat) : (s.endClock part).slices = s.slices := by
  have merged : ∀ (bs : List (Nat × Nat)) (s : State) clock, (mergeAll clock s bs).slices = s.slices := by
    intro bs
    induction bs with
    | nil => exact fun _ _ => rfl
    | cons b bs ih =>
      intro s clock
      obtain ⟨tid, bent⟩ := b
      rw [mergeAll, ih]
      unfold State.mergeBent
      dsimp only
      split <;> rfl
  exact merged _ _ _

theorem endIssue_slices {s : State} (h : s.iss.fused = false) : s.endIssue.slices = s.slices := by
  simp only [State.endIssue, h, Bool.false_eq_true, if_false, endClock_slices]

/-- The slice as the entry of a trap that its team handles leaves it. -/
def Slice.entered (x : Slice) (w : TrapWait) (handler : Quad) : Slice :=
  { x with trap := x.trap.enter w x.exec, tmode := true, trapWait := none, pend := [], wait := x.wait.inTrap, pc := handler }

/-- A slice that waits for nothing of its own takes a trap that its team handles at once. -/
theorem raiseTrap_spec {s : State} {r : SliceRef} {w : TrapWait} (hidle : (s.slice r).pend = []) (hstill : (s.slice r).moveTo = none)
    (hsingle : s.iss.fused = false) (huser : (s.slice r).tmode = false) (hhandler : (s.team r.tid).desc.handler ≠ 0xFFFFFFFF)
    (hquiet : (s.ccb (s.team r.tid).hp (s.team r.tid).ctx).tlogon = false) (hfree : s.mem.blocked = false)
    (hcause : w.info.cause ≠ causeContain) :
    (s.raiseTrap r w).slice r = (s.slice r).entered w ((s.team r.tid).desc.code + BitVec.ofNat 64 (s.team r.tid).desc.handler) ∧
      (s.raiseTrap r w).iss = s.iss ∧ (s.raiseTrap r w).mem = s.mem := by
  have hlog : ∀ double fatal, s.logTrap r w double fatal = s := fun _ _ => by
    simp only [State.logTrap, hquiet, Bool.false_eq_true, if_false]
  have hfatal : ((s.slice r).tmode || w.info.cause == causeContain || (s.team r.tid).desc.handler == 0xFFFFFFFF) = false := by
    simp only [huser, Bool.false_or, Bool.or_eq_false_iff, beq_eq_false_iff_ne]
    exact ⟨hcause, hhandler⟩
  obtain ⟨clock, henter⟩ : ∃ clock, s.enterTrap r w = ((s.count r.tid 0x0B).modSlice r fun x => x.entered w
      ((s.team r.tid).desc.code + BitVec.ofNat 64 (s.team r.tid).desc.handler)).delayGang r clock := by
    simp only [State.enterTrap, hfatal, hlog, Bool.false_eq_true, if_false, Bool.false_or]
    exact ⟨_, rfl⟩
  have hmem : (s.enterTrap r w).mem = s.mem := by rw [henter]; rfl
  have hraise : s.raiseTrap r w = s.enterTrap r w := by
    simp only [State.raiseTrap, State.takeTrap, hidle, hstill, hsingle, hmem, hfree, List.isEmpty_nil, Option.isNone_none, Bool.not_false,
      Bool.and_self, if_true, Bool.false_eq_true, if_false]
  rw [hraise]
  refine ⟨?_, by rw [henter]; rfl, hmem⟩
  rw [henter]
  exact State.slice_setSlice_same _ _ _

theorem alone_of_fetched {s t : State} {g : GangRef} {r : SliceRef} (h : Alone s g r) (hf : Fetched s t) : Alone t g r where
  refs := h.refs
  idle := by rw [hf.slice_eq]; exact h.idle
  user := by rw [hf.slice_eq]; exact h.user
  handler := by rw [hf.team_eq]; exact h.handler
  quiet := by rw [hf.team_eq, hf.ccb_eq]; exact h.quiet
  still := by rw [hf.slice_eq]; exact h.still
  single := by rw [hf.iss_eq]; exact h.single
  free := by rw [hf.blocked_eq]; exact h.free

/-- A fault of a whole instruction, in a gang of one slice that may take its trap at once. -/
theorem faultGang_spec {s : State} {g : GangRef} {r : SliceRef} (h : Alone s g r) (hg : g.bent < 64) {f : FaultInfo}
    (hcause : f.cause ≠ causeContain) (inst : Nat) :
    (faultGang s g f inst).slice r = (s.slice r).entered
        { info := f, tpc := (s.slice r).pc, tfpc := (s.slice r).pc, inst := BitVec.ofNat 32 inst, gmask := g.mask }
        ((s.team r.tid).desc.code + BitVec.ofNat 64 (s.team r.tid).desc.handler) ∧
      (faultGang s g f inst).iss = s.popIssue.iss ∧ (faultGang s g f inst).mem = s.mem := by
  let v := s.popIssue.splitGang g 0 [] [1#8 <<< r.sl]
  let w : TrapWait := { info := f, tpc := (s.slice r).pc, tfpc := (s.slice r).pc, inst := BitVec.ofNat 32 inst, gmask := g.mask }
  have hv : faultGang s g f inst = v.raiseTrap r w := by
    have hpc : gangPc s.popIssue g = (s.slice r).pc := by simp only [gangPc, h.refs]; rfl
    simp only [faultGang, hpc, State.finishGang, h.refs, List.map_cons, List.map_nil]
    simp [settleAll, settleSlice, newMasks, SliceRes.isTrap, slotOrder, insertBySlot, raiseAll, v, w]
  obtain ⟨hwithin, hslices⟩ := splitGang_spec hg s.popIssue 0 [] [1#8 <<< r.sl]
  have hteam : { v.team r.tid with counters := (s.team r.tid).counters } = s.team r.tid := hwithin.elsewhere.teams r.tid
  have hdesc : (v.team r.tid).desc = (s.team r.tid).desc := congrArg (·.desc) hteam
  have hhp : (v.team r.tid).hp = (s.team r.tid).hp := congrArg (·.hp) hteam
  have hctx : (v.team r.tid).ctx = (s.team r.tid).ctx := congrArg (·.ctx) hteam
  have hslice : v.slice r = s.slice r := hslices r
  obtain ⟨hs, hi, hm⟩ := raiseTrap_spec (s := v) (r := r) (w := w) (hslice ▸ h.idle) (hslice ▸ h.still) h.single (hslice ▸ h.user)
    (hdesc ▸ h.handler) (by rw [hhp, hctx]; exact h.quiet) h.free hcause
  rw [hv]
  exact ⟨by rw [hs, hslice, hdesc], hi, hm⟩

theorem trapped_of_entered {s t : State} {r : SliceRef} {w : TrapWait}
    (h : t.slice r = (s.slice r).entered w ((s.team r.tid).desc.code + BitVec.ofNat 64 (s.team r.tid).desc.handler)) :
    Trapped s t r w.info w.tpc w.tfpc w.inst := by
  refine ⟨congrArg (·.trap.cause) h, congrArg (·.trap.sub) h, congrArg (·.trap.lanes) h, congrArg (·.trap.tpc) h,
    congrArg (·.trap.tfpc) h, congrArg (·.trap.taddr) h, congrArg (·.trap.texec) h, congrArg (·.trap.tinst) h, congrArg (·.tmode) h,
    congrArg (·.pc) h, ?_⟩
  rw [h]
  exact ⟨rfl, rfl, rfl, rfl, rfl⟩

/-- A gang of one slice that fetches words that are no instruction takes ILL. -/
theorem step_of_decode_error {s : State} {g : GangRef} {r : SliceRef} {e : TlbEntry} {ws : List Nat} {gs : List GangRef} {d : DecodeError}
    (hboot : s.dev.booted = true) (htrip : s.dev.tripped = false) (hnow : s.iss.now = g :: gs) (hg : g.bent < 64) (hcode : CodeAt s g e ws)
    (halone : Alone s g r) (hd : decodeWords ws = .error d) :
    ∃ t, step s = .next t ∧ Trapped s t r (faultAll causeIll) (s.slice r).pc (s.slice r).pc (BitVec.ofNat 32 (ws.headD 0)) := by
  obtain ⟨u, hu, hf⟩ := fetchFor_spec hcode
  obtain ⟨hslice, hiss, hmem⟩ := faultGang_spec (alone_of_fetched halone hf) hg (f := faultAll causeIll) (by decide) (ws.headD 0)
  rw [hf.slice_eq, hf.team_eq] at hslice
  let t := faultGang u g (faultAll causeIll) (ws.headD 0)
  have hfree : t.mem.blocked = false := by rw [hmem, hf.blocked_eq]; exact halone.free
  have hfused : t.iss.fused = false := by rw [hiss]; exact (alone_of_fetched halone hf).single
  have hstep : step s = .next (if t.iss.now.isEmpty then t.endIssue else t) := by
    simp only [step, hboot, htrip, hnow, State.stepGang, State.runGang, State.fetchAndRun, hu, hd, unlessBlocked, hfree, endIssueOf, t,
      if_true, Bool.false_eq_true, if_false]
  have hend : (if t.iss.now.isEmpty then t.endIssue else t).slice r = t.slice r := by
    split
    · simp only [State.slice, endIssue_slices hfused]
    · rfl
  exact ⟨_, hstep, trapped_of_entered (hend.trans hslice)⟩

/-! ## Words of BSC (03 R70, R73, R76) -/

/-- FN 16 to 22 of BSC are unassigned. -/
theorem instrBsc_unassigned {fn : Nat} (hlo : 16 ≤ fn) (hhi : fn ≤ 22) (o : B3) : instrBsc fn o = none := by
  interval_cases fn <;> rfl

theorem readBase_bsc {w : Nat} (hmajor : w / 2 ^ 24 % 64 = 7) (lit : Option Quad) :
    readBase w lit = .ok (.b3 7 (w / 2 ^ 19 % 32) (readB3 w lit)) := by
  simp only [readBase, hmajor]

/-- The word of a base instruction, alone or with its literal, is read as its class says. -/
theorem readForm_base {w : Nat} {rest : List Nat} (hw : w ≠ 0) (hlen : w / 2 ^ 30 % 4 = 0 ∨ w / 2 ^ 30 % 4 = 2)
    (hwhole : rest.length + 1 = wordCount w) : ∃ lit, readForm (w :: rest) = readBase w lit := by
  rcases hlen with hlen | hlen
  · exact ⟨none, by simp only [readForm, hw, hlen, if_false]⟩
  · have h2 : rest.length = 2 := by simpa only [wordCount, hlen, Nat.reduceEqDiff] using hwhole
    obtain ⟨lo, hi, rfl⟩ := List.length_eq_two.1 h2
    exact ⟨some (literalOf lo hi), by simp only [readForm, hw, hlen, if_false]⟩

theorem decodeWords_bsc_unassigned {ws : List Nat} {len fn x : Nat} (hwhole : ws.length = wordCount (ws.headD 0)) (hlen : len = 0 ∨ len = 2)
    (hlo : 16 ≤ fn) (hhi : fn ≤ 22) (hx : x < 2 ^ 19) (hw : ws.headD 0 = len * 2 ^ 30 + 7 * 2 ^ 24 + fn * 2 ^ 19 + x) :
    decodeWords ws = .error .unlistedFunction := by
  cases ws with
  | nil => simp only [List.headD_nil] at hw; omega
  | cons w rest =>
    rw [List.headD_cons] at hw hwhole
    have hfn : w / 2 ^ 19 % 32 = fn := by omega
    obtain ⟨lit, hread⟩ := readForm_base (w := w) (rest := rest) (by omega) (by omega) hwhole
    have hform : (Form.b3 7 fn (readB3 w lit)).instr? = none := instrBsc_unassigned hlo hhi _
    rw [readBase_bsc (by omega), hfn] at hread
    simp only [decodeWords, hread, hform]

/-! ## R151 -/

/-- Settles O2: the comparisons by what the issue of one comparison does, the f32 values by their condition codes, and the
unassigned functions of BSC by the fetch of words that are no instruction. -/
theorem baseCompare : Obligations.BaseCompare := by
  refine ⟨fun s g o => ⟨integer_comparisons s g o, float_comparisons s g o⟩,
    fun a b => ⟨fSet_unord fmtF32 a b, fSet_of_isNan fmtF32 a b, fSet_ne fmtF32 a b⟩, ?_⟩
  intro s g r e ws gs len fn x hboot htrip hnow hg hcode halone hlen hlo hhi hx hw
  exact step_of_decode_error hboot htrip hnow hg hcode halone (decodeWords_bsc_unassigned hcode.whole hlen hlo hhi hx hw)

end Sys2Proof.Machine
end
